-- ==== Sys2Proof/Word.lean ====
section
/-! DEFINITION. The words of the device: registers are 32 bits wide (R11), absolute time, records and link words
64 bits (R5, R82), bytes 8 bits; keys, tags and AES blocks 128 bits (R22). Bit 0 is the least significant (R10). -/
namespace Sys2Proof

/-- A register or instruction word (R11). -/
abbrev W32 := BitVec 32

/-- A time in drops, a record word or a link word (R5). -/
abbrev W64 := BitVec 64

/-- A byte. -/
abbrev W8 := BitVec 8

/-- A key or an AES block (R22). -/
abbrev W128 := BitVec 128

/-- A set of 256 lanes or channels, bit j for number j (R10). -/
abbrev W256 := BitVec 256

end Sys2Proof
end

