-- ==== Sys2Proof/Machine/Tables.lean ====
section
/-! DEFINITION. Tables of numbered cells (register banks, lanes, contexts, RAM words) as plain data, and the bit-field
helpers the meanings share.

A table is a list of (number, value) pairs with rising numbers that lists no cell holding the value an unlisted cell
reads as, so that equal tables are equal data. -/
namespace Sys2Proof.Machine

/-- A table of numbered cells. -/
abbrev Tbl (α : Type) := List (Nat × α)

/-- The value of cell k, d where the table does not list it. -/
def tget {α : Type} (d : α) (k : Nat) : Tbl α → α
  | [] => d
  | (k', v) :: t => if k = k' then v else tget d k t

/-- The table without cell k. -/
def terase {α : Type} (k : Nat) : Tbl α → Tbl α
  | [] => []
  | (k', v) :: t => if k = k' then terase k t else (k', v) :: terase k t

/-- The table with cell k listed, in its place by number. -/
def tinsert {α : Type} (k : Nat) (v : α) : Tbl α → Tbl α
  | [] => [(k, v)]
  | (k', v') :: t => if k < k' then (k, v) :: (k', v') :: t else (k', v') :: tinsert k v t

/-- The table with cell k set to v, where an unlisted cell k reads as d. -/
def tset {α : Type} [DecidableEq α] (d : α) (k : Nat) (v : α) (t : Tbl α) : Tbl α :=
  if v = d then terase k t else tinsert k v (terase k t)

/-- The table with cell k changed by f. -/
def tmod {α : Type} [DecidableEq α] (d : α) (k : Nat) (f : α → α) (t : Tbl α) : Tbl α :=
  tset d k (f (tget d k t)) t

/-- The canonical form: numbers strictly rising, no cell listed that reads as an unlisted one does. -/
def twf {α : Type} [DecidableEq α] (d : Nat → α) : Tbl α → Bool
  | [] => true
  | [(k, v)] => decide (v ≠ d k)
  | (k, v) :: (k', v') :: t => decide (v ≠ d k) && decide (k < k') && twf d ((k', v') :: t)

/-- The field of width n at bit lo of a word, as a number (R10). -/
def fld {w : Nat} (x : BitVec w) (lo n : Nat) : Nat := x.toNat / 2 ^ lo % 2 ^ n

/-- The word with its field of width n at bit lo replaced by v. -/
def setFld {w : Nat} (x : BitVec w) (lo n v : Nat) : BitVec w :=
  (x &&& ~~~ (BitVec.ofNat w ((2 ^ n - 1) * 2 ^ lo))) ||| BitVec.ofNat w (v % 2 ^ n * 2 ^ lo)

/-- The value v placed at bit lo of a 32-bit word. -/
def at32 (v lo : Nat) : W32 := BitVec.ofNat 32 (v * 2 ^ lo)

/-- The value v placed at bit lo of a 64-bit word. -/
def at64 (v lo : Nat) : W64 := BitVec.ofNat 64 (v * 2 ^ lo)

/-- A condition as a bit, 1 or 0. -/
def b2n (b : Bool) : Nat := if b then 1 else 0

/-- A number of n bits read as two's complement (R13). -/
def sgn (n v : Nat) : Int := if v % 2 ^ n < 2 ^ (n - 1) then (v % 2 ^ n : Int) else (v % 2 ^ n : Int) - (2 ^ n : Int)

/-- An integer as a two's complement word of 32 bits (R13). -/
def ofInt32 (i : Int) : W32 := BitVec.ofInt 32 i

/-- The low and the high word of a 64-bit value (R11). -/
def lo32 (x : W64) : W32 := x.setWidth 32
def hi32 (x : W64) : W32 := (x >>> 32).setWidth 32

/-- Two 32-bit words as one of 64 bits, the first most significant (R12). -/
def cat64 (h l : W32) : W64 := (h.setWidth 64 <<< 32) ||| l.setWidth 64

/-- The list with its element i changed by f. -/
def lmod {α : Type} (i : Nat) (f : α → α) : List α → List α
  | [] => []
  | x :: t => match i with
    | 0 => f x :: t
    | j + 1 => x :: lmod j f t

/-- The largest of a list of numbers; 0 of none. -/
def lmax : List Nat → Nat
  | [] => 0
  | x :: t => max x (lmax t)

/-- The sum of a list of numbers. -/
def lsum : List Nat → Nat
  | [] => 0
  | x :: t => x + lsum t

end Sys2Proof.Machine
end

