-- ==== Sys2Proof/Machine/RegMap.lean ====
section
/-! DEFINITION. The registers of the device: one constructor per register of Table 20-6 (R554), its address
(Tables 20-1, 20-2, 20-5, 20-6; R545, R546, R550), its reset value, the bits a write sets (access RW) and the bits
a written 1 clears (access W1C), as the field map in its owning chapter states them (R14, R15).
A lane argument k is the device-wide number 0-255 of a pulse lane (LN_, SG_L) or of a stamp lane (SL_, RG_) (R25);
a context argument x is the device-wide number 0-2047 (R188).
Departure (log entry 8, DESIGN CHOICE): the RG_ registers stand where R554 places them. -/

namespace Sys2Proof.Machine

/-- The registers of Table 20-6. -/
inductive Reg where
  | tbGated (i : Nat)
  | asPlanRatio (p : Nat)
  | asPlanBand (p : Nat)
  | asCkoCfg (n : Nat)
  | asCkoPhase (n : Nat)
  | evMcCtl (n : Nat)
  | evMcProd (n i : Nat)
  | evMcCnt (n : Nat)
  | evMcDis (n : Nat)
  | evGrpCfg (g : Nat)
  | evGrpEn (i : Nat)
  | evTtf (i : Nat)
  | ptCfg (n : Nat)
  | ptStatus (n : Nat)
  | ptEvents (n : Nat)
  | ptSess (n : Nat)
  | ptPsess (n : Nat)
  | ptBlkCnt (n : Nat)
  | ptFcsCnt (n : Nat)
  | ptMalfCnt (n : Nat)
  | ptGapCnt (n : Nat)
  | ptAbortCnt (n : Nat)
  | ptDropCnt (n : Nat)
  | ptDownCnt (n : Nat)
  | spTev (n : Nat)
  | spSCfg (m : Nat)
  | spSQuota (m : Nat)
  | spSLoss (m : Nat)
  | spSStat (m : Nat)
  | spWCfg (t w : Nat)
  | spWMask (t w : Nat)
  | spWOfs (t w : Nat)
  | spWWid (t w : Nat)
  | rgDone (i : Nat)
  | rgCfg (k : Nat)
  | rgGate (k : Nat)
  | rgCtrl (k : Nat)
  | rgStatus (k : Nat)
  | rgLevents (k : Nat)
  | rgResult (k : Nat)
  | rgRes (k r : Nat)
  | jrDigest (i : Nat)
  | adSys (n : Nat)
  | adECfg (i : Nat)
  | adEResLo (i : Nat)
  | adEResHi (i : Nat)
  | adECnt (i : Nat)
  | stClRes (c : Nat)
  | byKcCfg (i : Nat)
  | byKcThr (i : Nat)
  | byKcBlnk (i : Nat)
  | byKcLatch (i : Nat)
  | clInfo (c : Nat)
  | clBudCap (c : Nat)
  | clBudSum (c : Nat)
  | clBudStatus (c : Nat)
  | clBudExh (c : Nat)
  | clBudSysLast (c : Nat)
  | clBudSysMin (c : Nat)
  | sqCfg (c : Nat)
  | sqStatus (c : Nat)
  | sqEvents (c : Nat)
  | sqFaulted (c i : Nat)
  | sqHalted (c i : Nat)
  | clCcCtl (c n : Nat)
  | clCcProd (c n i : Nat)
  | clCcCnt (c n : Nat)
  | clCcDis (c n : Nat)
  | clLev (c n : Nat)
  | clLovr (c : Nat)
  | clLovrCnt (c : Nat)
  | clWovr (c n : Nat)
  | clEvstat (c : Nat)
  | lnCfg (k : Nat)
  | lnCtrl (k : Nat)
  | lnStatus (k : Nat)
  | lnEvents (k : Nat)
  | lnOwner (k : Nat)
  | lnSkew (k : Nat)
  | lnCtabIdx (k : Nat)
  | lnCtabData (k : Nat)
  | lnCalInfo (k : Nat)
  | lnSpot (k : Nat)
  | lnSkewSh (k : Nat)
  | lnCalpath (k : Nat)
  | lnLateCnt (k : Nat)
  | lnFullCnt (k : Nat)
  | lnDiscCnt (k : Nat)
  | lnTruncCnt (k : Nat)
  | lnFiredLo (k : Nat)
  | lnFiredHi (k : Nat)
  | lnOcCnt (k : Nat)
  | lnDropLog (k : Nat)
  | slCfg (k : Nat)
  | slCtrl (k : Nat)
  | slStatus (k : Nat)
  | slEvents (k : Nat)
  | slOwner (k : Nat)
  | slThr (k : Nat)
  | slThrNow (k : Nat)
  | slLatch (k : Nat)
  | slBlnk (k : Nat)
  | slEvcfg (k : Nat)
  | slCapwin (k : Nat)
  | slInpath (k : Nat)
  | slTrim (k : Nat)
  | slBinIdx (k : Nat)
  | slBinData (k : Nat)
  | slCalInfo (k : Nat)
  | slHitLo (k : Nat)
  | slHitHi (k : Nat)
  | slDeadCnt (k : Nat)
  | slQlossCnt (k : Nat)
  | slBlankCnt (k : Nat)
  | slOvfCnt (k : Nat)
  | slToterrCnt (k : Nat)
  | slFlushCnt (k : Nat)
  | sgCfg (c : Nat)
  | sgActive (c : Nat)
  | sgDOwn (c d : Nat)
  | sgDLoc (c d : Nat)
  | sgDLen (c d : Nat)
  | sgDSeq (c d : Nat)
  | sgLState (k : Nat)
  | sgLPos (k : Nat)
  | sgLBaseLo (k : Nat)
  | sgLBaseHi (k : Nat)
  | sgLCtrl (k : Nat)
  | sgLEvents (k : Nat)
  | sgLPasses (k : Nat)
  | ctxCfg (x : Nat)
  | ctxBud (x : Nat)
  | ctxIwin (x : Nat)
  | ctxDwin (x : Nat)
  | ctxEntry (x : Nat)
  | ctxCtrl (x : Nat)
  | ctxState (x : Nat)
  | ctxPc (x : Nat)
  | ctxFlags (x : Nat)
  | ctxFault (x : Nat)
  | ctxRem (x : Nat)
  | ctxExh (x : Nat)
  | ctxRetLo (x : Nat)
  | ctxRetHi (x : Nat)
  | ctxDbg (x : Nat)
  | ctxRstk (x : Nat)
  | ctxG (x i : Nat)
  | ctxT (x j : Nat)
  | idPart
  | idJtag
  | idUidLo
  | idUidHi
  | lcStatus
  | lcRev
  | tbCtrl
  | tbLockCfg
  | tbStatus
  | tbEvents
  | tbPherr
  | tbPherrMax
  | tbFofs
  | tbFofsNow
  | tbSyncCfg
  | tbSyncDiff
  | tbTsetLo
  | tbTsetHi
  | tbTimeLo
  | tbTimeHi
  | tbEpoch
  | tbBand
  | tbFlushEdge
  | tbFlushHit
  | tbTrunc
  | tbDisc
  | asCtrl
  | asStatus
  | asEvents
  | frCtrl
  | frPeriod
  | frPeriodReq
  | frCountLo
  | frCountHi
  | frStartLo
  | frStartHi
  | frStatus
  | frEvents
  | frPchkFail
  | frBudJr
  | frBudLb
  | frSetLo
  | frSetHi
  | pwStart
  | pwTready
  | pwStep
  | evAdcSel
  | evEvents
  | evAdcOvrCnt
  | ptTtcCfg
  | ptTtcStatus
  | ptTtcEvents
  | ptTtcTrigCnt
  | ptTtcBadCnt
  | ptTtcMarkCnt
  | ptTtcBc
  | ptJtag
  | ptQintCnt
  | ptQintLast
  | spCfg
  | spDevid
  | spChain
  | spChin
  | spQsum
  | spStatus
  | spEvents
  | spWm0
  | spWm1
  | spWmc
  | spLateCnt
  | spTlateCnt
  | spTlossCnt
  | spChbadCnt
  | spChdropCnt
  | spNostrCnt
  | rgSlot
  | jrStatus
  | jrEvents
  | jrCtrl
  | jrFill
  | jrSeqLo
  | jrSeqHi
  | jrGenLo
  | jrGenHi
  | jrPend
  | jrTuse
  | jrCsize
  | jrDframeLo
  | jrDframeHi
  | jrSuspIdx
  | jrSuspLo
  | jrSuspHi
  | jrSuspInfo
  | jrLateCnt
  | jrApprejCnt
  | jrAbandonCnt
  | jrSuspCnt
  | jrEccCnt
  | jrFlipCnt
  | tnStatus
  | tnEvents
  | tnSel
  | tnCapData
  | tnState
  | tnCtrLo
  | tnCtrHi
  | tnResvLo
  | tnResvHi
  | tnTAfail
  | tnTReplay
  | tnAfailCnt
  | tnReplayCnt
  | tnFailLog
  | tnSelf
  | adCfg
  | adFt
  | adStatus
  | adEvents
  | adFtOvrCnt
  | adConvCnt
  | stStatus
  | stEvents
  | stLbPend
  | stLbRun
  | stLbOk
  | stQuar
  | stAst
  | stAstLog
  | stLbCnt
  | stLbFailCnt
  | flStatus
  | flEvents
  | flFpend
  | flFmask
  | flIrqSrc
  | flImask
  | flTbasMask
  | flLogSeq
  | flSafe
  | flGrad
  | flGradMax
  | flGradCnt
  | flEccSel
  | flEccDataCnt
  | flEccChkCnt
  | flEccUncCnt
  | flEccLast
  | flTmrCnt
  | flScrubCnt
  | flLogDropCnt
  | flOvfAddr
  | flOvfData
  | flOvfFrameLo
  | flOvfFrameHi
  | flOvfLog
  | flCtrClr
  | byStatus
  | byEvents
  | byCtrl
  | byCfg
  | byPseq
  | byWake
  | byClk
  | byKclkMeas
  | byKtCfg
  | byKtReload
  | byKtCount
  | byBoot
  | byRramAddr
  | byRramData
  deriving DecidableEq, Repr

/-- The address of a register (R545, R546, Tables 20-5 and 20-6). -/
def regAddr : Reg → Nat
  | .tbGated i => 0x1050 + i * 0x4
  | .asPlanRatio p => 0x2040 + p * 0x8
  | .asPlanBand p => 0x2044 + p * 0x8
  | .asCkoCfg n => 0x2100 + n * 0x8
  | .asCkoPhase n => 0x2104 + n * 0x8
  | .evMcCtl n => 0x100000 + n * 0x20
  | .evMcProd n i => 0x100004 + n * 0x20 + i * 0x4
  | .evMcCnt n => 0x100014 + n * 0x20
  | .evMcDis n => 0x100018 + n * 0x20
  | .evGrpCfg g => 0x102000 + g * 0x4
  | .evGrpEn i => 0x102100 + i * 0x4
  | .evTtf i => 0x102200 + i * 0x4
  | .ptCfg n => 0x200000 + n * 0x100
  | .ptStatus n => 0x200004 + n * 0x100
  | .ptEvents n => 0x200008 + n * 0x100
  | .ptSess n => 0x20000C + n * 0x100
  | .ptPsess n => 0x200010 + n * 0x100
  | .ptBlkCnt n => 0x200014 + n * 0x100
  | .ptFcsCnt n => 0x200018 + n * 0x100
  | .ptMalfCnt n => 0x20001C + n * 0x100
  | .ptGapCnt n => 0x200020 + n * 0x100
  | .ptAbortCnt n => 0x200024 + n * 0x100
  | .ptDropCnt n => 0x200028 + n * 0x100
  | .ptDownCnt n => 0x20002C + n * 0x100
  | .spTev n => 0x300040 + n * 0x4
  | .spSCfg m => 0x301000 + m * 0x10
  | .spSQuota m => 0x301004 + m * 0x10
  | .spSLoss m => 0x301008 + m * 0x10
  | .spSStat m => 0x30100C + m * 0x10
  | .spWCfg t w => 0x320000 + t * 0x80 + w * 0x10
  | .spWMask t w => 0x320004 + t * 0x80 + w * 0x10
  | .spWOfs t w => 0x320008 + t * 0x80 + w * 0x10
  | .spWWid t w => 0x32000C + t * 0x80 + w * 0x10
  | .rgDone i => 0x308000 + i * 0x4
  | .rgCfg k => 0x30C000 + k * 0x40
  | .rgGate k => 0x30C004 + k * 0x40
  | .rgCtrl k => 0x30C008 + k * 0x40
  | .rgStatus k => 0x30C00C + k * 0x40
  | .rgLevents k => 0x30C010 + k * 0x40
  | .rgResult k => 0x30C014 + k * 0x40
  | .rgRes k r => 0x30C018 + k * 0x40 + r * 0x4
  | .jrDigest i => 0x400040 + i * 0x4
  | .adSys n => 0x500100 + n * 0x4
  | .adECfg i => 0x500200 + i * 0x10
  | .adEResLo i => 0x500204 + i * 0x10
  | .adEResHi i => 0x500208 + i * 0x10
  | .adECnt i => 0x50020C + i * 0x10
  | .stClRes c => 0x600100 + c * 0x4
  | .byKcCfg i => 0x700100 + i * 0x10
  | .byKcThr i => 0x700104 + i * 0x10
  | .byKcBlnk i => 0x700108 + i * 0x10
  | .byKcLatch i => 0x70010C + i * 0x10
  | .clInfo c => 0x1000000 + c * 0x100000
  | .clBudCap c => 0x1000100 + c * 0x100000
  | .clBudSum c => 0x1000104 + c * 0x100000
  | .clBudStatus c => 0x1000108 + c * 0x100000
  | .clBudExh c => 0x100010C + c * 0x100000
  | .clBudSysLast c => 0x1000110 + c * 0x100000
  | .clBudSysMin c => 0x1000114 + c * 0x100000
  | .sqCfg c => 0x1000200 + c * 0x100000
  | .sqStatus c => 0x1000204 + c * 0x100000
  | .sqEvents c => 0x1000208 + c * 0x100000
  | .sqFaulted c i => 0x1000210 + c * 0x100000 + i * 0x4
  | .sqHalted c i => 0x1000218 + c * 0x100000 + i * 0x4
  | .clCcCtl c n => 0x1000400 + c * 0x100000 + n * 0x20
  | .clCcProd c n i => 0x1000404 + c * 0x100000 + n * 0x20 + i * 0x4
  | .clCcCnt c n => 0x1000414 + c * 0x100000 + n * 0x20
  | .clCcDis c n => 0x1000418 + c * 0x100000 + n * 0x20
  | .clLev c n => 0x1000800 + c * 0x100000 + n * 0x4
  | .clLovr c => 0x1000840 + c * 0x100000
  | .clLovrCnt c => 0x1000844 + c * 0x100000
  | .clWovr c n => 0x1000900 + c * 0x100000 + n * 0x4
  | .clEvstat c => 0x1000A00 + c * 0x100000
  | .lnCfg k => 0x1001000 + k / 16 * 0x100000 + k % 16 * 0x100
  | .lnCtrl k => 0x1001004 + k / 16 * 0x100000 + k % 16 * 0x100
  | .lnStatus k => 0x1001008 + k / 16 * 0x100000 + k % 16 * 0x100
  | .lnEvents k => 0x100100C + k / 16 * 0x100000 + k % 16 * 0x100
  | .lnOwner k => 0x1001010 + k / 16 * 0x100000 + k % 16 * 0x100
  | .lnSkew k => 0x1001014 + k / 16 * 0x100000 + k % 16 * 0x100
  | .lnCtabIdx k => 0x1001018 + k / 16 * 0x100000 + k % 16 * 0x100
  | .lnCtabData k => 0x100101C + k / 16 * 0x100000 + k % 16 * 0x100
  | .lnCalInfo k => 0x1001020 + k / 16 * 0x100000 + k % 16 * 0x100
  | .lnSpot k => 0x1001024 + k / 16 * 0x100000 + k % 16 * 0x100
  | .lnSkewSh k => 0x1001028 + k / 16 * 0x100000 + k % 16 * 0x100
  | .lnCalpath k => 0x100102C + k / 16 * 0x100000 + k % 16 * 0x100
  | .lnLateCnt k => 0x1001030 + k / 16 * 0x100000 + k % 16 * 0x100
  | .lnFullCnt k => 0x1001034 + k / 16 * 0x100000 + k % 16 * 0x100
  | .lnDiscCnt k => 0x1001038 + k / 16 * 0x100000 + k % 16 * 0x100
  | .lnTruncCnt k => 0x100103C + k / 16 * 0x100000 + k % 16 * 0x100
  | .lnFiredLo k => 0x1001040 + k / 16 * 0x100000 + k % 16 * 0x100
  | .lnFiredHi k => 0x1001044 + k / 16 * 0x100000 + k % 16 * 0x100
  | .lnOcCnt k => 0x1001048 + k / 16 * 0x100000 + k % 16 * 0x100
  | .lnDropLog k => 0x100104C + k / 16 * 0x100000 + k % 16 * 0x100
  | .slCfg k => 0x2001000 + k / 16 * 0x100000 + k % 16 * 0x100
  | .slCtrl k => 0x2001004 + k / 16 * 0x100000 + k % 16 * 0x100
  | .slStatus k => 0x2001008 + k / 16 * 0x100000 + k % 16 * 0x100
  | .slEvents k => 0x200100C + k / 16 * 0x100000 + k % 16 * 0x100
  | .slOwner k => 0x2001010 + k / 16 * 0x100000 + k % 16 * 0x100
  | .slThr k => 0x2001014 + k / 16 * 0x100000 + k % 16 * 0x100
  | .slThrNow k => 0x2001018 + k / 16 * 0x100000 + k % 16 * 0x100
  | .slLatch k => 0x200101C + k / 16 * 0x100000 + k % 16 * 0x100
  | .slBlnk k => 0x2001020 + k / 16 * 0x100000 + k % 16 * 0x100
  | .slEvcfg k => 0x2001024 + k / 16 * 0x100000 + k % 16 * 0x100
  | .slCapwin k => 0x2001028 + k / 16 * 0x100000 + k % 16 * 0x100
  | .slInpath k => 0x200102C + k / 16 * 0x100000 + k % 16 * 0x100
  | .slTrim k => 0x2001030 + k / 16 * 0x100000 + k % 16 * 0x100
  | .slBinIdx k => 0x2001034 + k / 16 * 0x100000 + k % 16 * 0x100
  | .slBinData k => 0x2001038 + k / 16 * 0x100000 + k % 16 * 0x100
  | .slCalInfo k => 0x200103C + k / 16 * 0x100000 + k % 16 * 0x100
  | .slHitLo k => 0x2001040 + k / 16 * 0x100000 + k % 16 * 0x100
  | .slHitHi k => 0x2001044 + k / 16 * 0x100000 + k % 16 * 0x100
  | .slDeadCnt k => 0x2001048 + k / 16 * 0x100000 + k % 16 * 0x100
  | .slQlossCnt k => 0x200104C + k / 16 * 0x100000 + k % 16 * 0x100
  | .slBlankCnt k => 0x2001050 + k / 16 * 0x100000 + k % 16 * 0x100
  | .slOvfCnt k => 0x2001054 + k / 16 * 0x100000 + k % 16 * 0x100
  | .slToterrCnt k => 0x2001058 + k / 16 * 0x100000 + k % 16 * 0x100
  | .slFlushCnt k => 0x200105C + k / 16 * 0x100000 + k % 16 * 0x100
  | .sgCfg c => 0x1020000 + c * 0x100000
  | .sgActive c => 0x1020004 + c * 0x100000
  | .sgDOwn c d => 0x1020100 + c * 0x100000 + d * 0x10
  | .sgDLoc c d => 0x1020104 + c * 0x100000 + d * 0x10
  | .sgDLen c d => 0x1020108 + c * 0x100000 + d * 0x10
  | .sgDSeq c d => 0x102010C + c * 0x100000 + d * 0x10
  | .sgLState k => 0x1021000 + k / 16 * 0x100000 + k % 16 * 0x40
  | .sgLPos k => 0x1021004 + k / 16 * 0x100000 + k % 16 * 0x40
  | .sgLBaseLo k => 0x1021008 + k / 16 * 0x100000 + k % 16 * 0x40
  | .sgLBaseHi k => 0x102100C + k / 16 * 0x100000 + k % 16 * 0x40
  | .sgLCtrl k => 0x1021010 + k / 16 * 0x100000 + k % 16 * 0x40
  | .sgLEvents k => 0x1021014 + k / 16 * 0x100000 + k % 16 * 0x40
  | .sgLPasses k => 0x1021018 + k / 16 * 0x100000 + k % 16 * 0x40
  | .ctxCfg x => 0x1080000 + x / 64 * 0x100000 + x % 64 * 0x100
  | .ctxBud x => 0x1080004 + x / 64 * 0x100000 + x % 64 * 0x100
  | .ctxIwin x => 0x1080008 + x / 64 * 0x100000 + x % 64 * 0x100
  | .ctxDwin x => 0x108000C + x / 64 * 0x100000 + x % 64 * 0x100
  | .ctxEntry x => 0x1080010 + x / 64 * 0x100000 + x % 64 * 0x100
  | .ctxCtrl x => 0x1080014 + x / 64 * 0x100000 + x % 64 * 0x100
  | .ctxState x => 0x1080018 + x / 64 * 0x100000 + x % 64 * 0x100
  | .ctxPc x => 0x108001C + x / 64 * 0x100000 + x % 64 * 0x100
  | .ctxFlags x => 0x1080020 + x / 64 * 0x100000 + x % 64 * 0x100
  | .ctxFault x => 0x1080024 + x / 64 * 0x100000 + x % 64 * 0x100
  | .ctxRem x => 0x1080028 + x / 64 * 0x100000 + x % 64 * 0x100
  | .ctxExh x => 0x108002C + x / 64 * 0x100000 + x % 64 * 0x100
  | .ctxRetLo x => 0x1080030 + x / 64 * 0x100000 + x % 64 * 0x100
  | .ctxRetHi x => 0x1080034 + x / 64 * 0x100000 + x % 64 * 0x100
  | .ctxDbg x => 0x1080038 + x / 64 * 0x100000 + x % 64 * 0x100
  | .ctxRstk x => 0x108003C + x / 64 * 0x100000 + x % 64 * 0x100
  | .ctxG x i => 0x1080040 + x / 64 * 0x100000 + x % 64 * 0x100 + i * 0x4
  | .ctxT x j => 0x10800C0 + x / 64 * 0x100000 + x % 64 * 0x100 + j * 0x4
  | .idPart => 0x0
  | .idJtag => 0x4
  | .idUidLo => 0x8
  | .idUidHi => 0xC
  | .lcStatus => 0x100
  | .lcRev => 0x104
  | .tbCtrl => 0x1000
  | .tbLockCfg => 0x1004
  | .tbStatus => 0x1008
  | .tbEvents => 0x100C
  | .tbPherr => 0x1010
  | .tbPherrMax => 0x1014
  | .tbFofs => 0x1018
  | .tbFofsNow => 0x101C
  | .tbSyncCfg => 0x1020
  | .tbSyncDiff => 0x1024
  | .tbTsetLo => 0x1028
  | .tbTsetHi => 0x102C
  | .tbTimeLo => 0x1030
  | .tbTimeHi => 0x1034
  | .tbEpoch => 0x1038
  | .tbBand => 0x103C
  | .tbFlushEdge => 0x1040
  | .tbFlushHit => 0x1044
  | .tbTrunc => 0x1048
  | .tbDisc => 0x104C
  | .asCtrl => 0x2000
  | .asStatus => 0x2004
  | .asEvents => 0x2008
  | .frCtrl => 0x3000
  | .frPeriod => 0x3004
  | .frPeriodReq => 0x3008
  | .frCountLo => 0x3010
  | .frCountHi => 0x3014
  | .frStartLo => 0x3018
  | .frStartHi => 0x301C
  | .frStatus => 0x3020
  | .frEvents => 0x3024
  | .frPchkFail => 0x3028
  | .frBudJr => 0x3030
  | .frBudLb => 0x3034
  | .frSetLo => 0x3040
  | .frSetHi => 0x3044
  | .pwStart => 0x4000
  | .pwTready => 0x4004
  | .pwStep => 0x4008
  | .evAdcSel => 0x102240
  | .evEvents => 0x102244
  | .evAdcOvrCnt => 0x102248
  | .ptTtcCfg => 0x200400
  | .ptTtcStatus => 0x200404
  | .ptTtcEvents => 0x200408
  | .ptTtcTrigCnt => 0x20040C
  | .ptTtcBadCnt => 0x200410
  | .ptTtcMarkCnt => 0x200414
  | .ptTtcBc => 0x200418
  | .ptJtag => 0x200600
  | .ptQintCnt => 0x200700
  | .ptQintLast => 0x200704
  | .spCfg => 0x300000
  | .spDevid => 0x300004
  | .spChain => 0x300008
  | .spChin => 0x30000C
  | .spQsum => 0x300010
  | .spStatus => 0x300014
  | .spEvents => 0x300018
  | .spWm0 => 0x300020
  | .spWm1 => 0x300024
  | .spWmc => 0x300028
  | .spLateCnt => 0x300080
  | .spTlateCnt => 0x300084
  | .spTlossCnt => 0x300088
  | .spChbadCnt => 0x30008C
  | .spChdropCnt => 0x300090
  | .spNostrCnt => 0x300094
  | .rgSlot => 0x308020
  | .jrStatus => 0x400000
  | .jrEvents => 0x400004
  | .jrCtrl => 0x400008
  | .jrFill => 0x40000C
  | .jrSeqLo => 0x400010
  | .jrSeqHi => 0x400014
  | .jrGenLo => 0x400018
  | .jrGenHi => 0x40001C
  | .jrPend => 0x400020
  | .jrTuse => 0x400024
  | .jrCsize => 0x400028
  | .jrDframeLo => 0x400030
  | .jrDframeHi => 0x400034
  | .jrSuspIdx => 0x400060
  | .jrSuspLo => 0x400064
  | .jrSuspHi => 0x400068
  | .jrSuspInfo => 0x40006C
  | .jrLateCnt => 0x400080
  | .jrApprejCnt => 0x400084
  | .jrAbandonCnt => 0x400088
  | .jrSuspCnt => 0x40008C
  | .jrEccCnt => 0x400090
  | .jrFlipCnt => 0x400094
  | .tnStatus => 0x410000
  | .tnEvents => 0x410004
  | .tnSel => 0x410008
  | .tnCapData => 0x41000C
  | .tnState => 0x410010
  | .tnCtrLo => 0x410014
  | .tnCtrHi => 0x410018
  | .tnResvLo => 0x41001C
  | .tnResvHi => 0x410020
  | .tnTAfail => 0x410024
  | .tnTReplay => 0x410028
  | .tnAfailCnt => 0x41002C
  | .tnReplayCnt => 0x410030
  | .tnFailLog => 0x410034
  | .tnSelf => 0x410038
  | .adCfg => 0x500000
  | .adFt => 0x500004
  | .adStatus => 0x500008
  | .adEvents => 0x50000C
  | .adFtOvrCnt => 0x500010
  | .adConvCnt => 0x500014
  | .stStatus => 0x600000
  | .stEvents => 0x600004
  | .stLbPend => 0x600008
  | .stLbRun => 0x60000C
  | .stLbOk => 0x600010
  | .stQuar => 0x600014
  | .stAst => 0x600018
  | .stAstLog => 0x60001C
  | .stLbCnt => 0x600020
  | .stLbFailCnt => 0x600024
  | .flStatus => 0x601000
  | .flEvents => 0x601004
  | .flFpend => 0x601008
  | .flFmask => 0x60100C
  | .flIrqSrc => 0x601010
  | .flImask => 0x601014
  | .flTbasMask => 0x601018
  | .flLogSeq => 0x60101C
  | .flSafe => 0x601020
  | .flGrad => 0x601030
  | .flGradMax => 0x601034
  | .flGradCnt => 0x601038
  | .flEccSel => 0x601040
  | .flEccDataCnt => 0x601044
  | .flEccChkCnt => 0x601048
  | .flEccUncCnt => 0x60104C
  | .flEccLast => 0x601050
  | .flTmrCnt => 0x601054
  | .flScrubCnt => 0x601058
  | .flLogDropCnt => 0x60105C
  | .flOvfAddr => 0x601060
  | .flOvfData => 0x601064
  | .flOvfFrameLo => 0x601068
  | .flOvfFrameHi => 0x60106C
  | .flOvfLog => 0x601070
  | .flCtrClr => 0x601074
  | .byStatus => 0x700000
  | .byEvents => 0x700004
  | .byCtrl => 0x700008
  | .byCfg => 0x70000C
  | .byPseq => 0x700010
  | .byWake => 0x700014
  | .byClk => 0x700018
  | .byKclkMeas => 0x70001C
  | .byKtCfg => 0x700020
  | .byKtReload => 0x700024
  | .byKtCount => 0x700028
  | .byBoot => 0x70002C
  | .byRramAddr => 0x700030
  | .byRramData => 0x700034

/-- The value a register holds at reset, where its field map gives one that is not 0 (R552). -/
def regReset : Reg → BitVec 32
  | .tbGated _ => 0xFFFFFFFF
  | .evMcCtl _ => 0x80000000
  | .ptCfg _ => 0x3E80641
  | .spSQuota _ => 0x100000
  | .spWWid _ _ => 0x1
  | .rgCfg _ => 0x10000
  | .clBudCap _ => 0x90
  | .clBudSysMin _ => 0xFFFF
  | .sqCfg _ => 0x40
  | .clCcCtl _ _ => 0x80000000
  | .lnStatus _ => 0x10
  | .slCfg _ => 0x2008
  | .sgCfg _ => 0x20
  | .sgDLoc _ _ => 0x10000
  | .sgDLen _ _ => 0x4000
  | .sgDSeq _ _ => 0x1
  | .idJtag => 0x30512A6F
  | .tbCtrl => 0x10
  | .tbLockCfg => 0x4000804
  | .tbStatus => 0x10
  | .frPeriod => 0x140
  | .frPeriodReq => 0x140
  | .frStatus => 0x1
  | .frBudJr => 0x271
  | .frBudLb => 0x2801
  | .ptTtcCfg => 0x101
  | .spCfg => 0x9000000
  | .spChain => 0x4000000
  | .spChin => 0x40
  | .spQsum => 0x40
  | .spStatus => 0x80000
  | .spWm0 => 0x3000280
  | .spWm1 => 0x3C00380
  | .spWmc => 0x300020
  | .adFt => 0x10000
  | .flFmask => 0x7FFFFFE
  | .flTbasMask => 0x1F0FFF
  | .byCfg => 0x111
  | .byPseq => 0x20330004
  | .byKtReload => 0x8000
  | _ => 0

/-- The bits of a register that a plain write sets: its fields of access RW (R14, R15). -/
def regRwMask : Reg → BitVec 32
  | .asPlanRatio _ => 0xFFFFFFF
  | .asPlanBand _ => 0x800000FF
  | .asCkoCfg _ => 0xFFF0007
  | .asCkoPhase _ => 0xFFFFF
  | .evMcCtl _ => 0x8000BF00
  | .evMcProd _ _ => 0xFFF0FFF
  | .evGrpCfg _ => 0x81FF01FF
  | .evTtf _ => 0xFFFFFFFF
  | .ptCfg _ => 0xFFFFFFF1
  | .spTev _ => 0x800000FF
  | .spSCfg _ => 0xFC0003FF
  | .spSQuota _ => 0xFFF007FF
  | .spWCfg _ _ => 0xFF00FFFF
  | .spWMask _ _ => 0xFFFF
  | .spWOfs _ _ => 0xFFFFFFFF
  | .spWWid _ _ => 0xFFFFFFFF
  | .rgCfg _ => 0xFFFF3800
  | .rgGate _ => 0xFFFFF
  | .adECfg _ => 0xFFFFF3FF
  | .byKcCfg _ => 0x8000019F
  | .byKcThr _ => 0x3FF00FF
  | .byKcBlnk _ => 0xFF00FF
  | .sqCfg _ => 0x7FF
  | .clCcCtl _ _ => 0x8000BF00
  | .clCcProd _ _ _ => 0xFFF0FFF
  | .clLev _ _ => 0xC3FFC3FF
  | .lnCfg _ => 0x7
  | .lnCtabIdx _ => 0x800003FF
  | .lnCtabData _ => 0xFF
  | .lnSkewSh _ => 0xFFFF
  | .slCfg _ => 0x3FFF
  | .slThr _ => 0xF3FF03FF
  | .slBlnk _ => 0xFFFF7FFF
  | .slEvcfg _ => 0x10F
  | .slCapwin _ => 0xFFFF
  | .slTrim _ => 0xFFFF
  | .slBinIdx _ => 0x8000003F
  | .slBinData _ => 0x3FFF
  | .sgCfg _ => 0xFFF
  | .sgDOwn _ _ => 0x800003FF
  | .sgDLoc _ _ => 0xFFF07FF
  | .sgDLen _ _ => 0xFFFFFFFF
  | .sgDSeq _ _ => 0x803FFFFF
  | .ctxCfg _ => 0xFFF003FF
  | .ctxBud _ => 0x3FFF
  | .ctxIwin _ => 0xFF007F
  | .ctxDwin _ => 0x1FF00FF
  | .ctxEntry _ => 0x1FFF
  | .ctxPc _ => 0x1FFF
  | .ctxFlags _ => 0xF
  | .ctxDbg _ => 0x80001FFF
  | .ctxG _ _ => 0xFFFFFFFF
  | .ctxT _ _ => 0xFFFFFFFF
  | .tbCtrl => 0x1F
  | .tbLockCfg => 0xFFFFFF1F
  | .tbFofs => 0xFFFFFFFF
  | .tbSyncCfg => 0xFFFF0003
  | .tbTsetLo => 0xFFFFFFFF
  | .tbTsetHi => 0xFFFFFFFF
  | .asCtrl => 0xF1
  | .frCtrl => 0x2
  | .frPeriodReq => 0x7FFF
  | .frBudJr => 0xFFFF
  | .frBudLb => 0x3F07
  | .frSetLo => 0xFFFFFFFF
  | .frSetHi => 0xFFFF
  | .evAdcSel => 0xC00000FF
  | .ptTtcCfg => 0xFFFFFFF1
  | .ptJtag => 0x1
  | .spCfg => 0xFFFF0001
  | .spDevid => 0xFFFFFFFF
  | .spChain => 0xFFFF00FF
  | .spChin => 0x7FF
  | .spWm0 => 0x7FF07FF
  | .spWm1 => 0x7FF07FF
  | .spWmc => 0x7FF07FF
  | .jrSuspIdx => 0xF
  | .tnSel => 0x1FF03FF
  | .adCfg => 0xC000FFFF
  | .adFt => 0x8FFF7FFF
  | .flFmask => 0x7FFFFFE
  | .flImask => 0xFFFF
  | .flTbasMask => 0x1F0FFF
  | .flEccSel => 0xF
  | .flOvfAddr => 0xFFFFFFFC
  | .byCfg => 0x80000111
  | .byPseq => 0xFFFF00FF
  | .byWake => 0xFFF
  | .byClk => 0x1
  | .byKtCfg => 0xC000000F
  | .byKtReload => 0xFFFFFFFF
  | .byRramAddr => 0xFFC
  | .byRramData => 0xFFFFFFFF
  | _ => 0

/-- The bits of a register that a written 1 clears: its fields of access W1C (R15). -/
def regW1cMask : Reg → BitVec 32
  | .ptEvents _ => 0xFF
  | .rgDone _ => 0xFFFFFFFF
  | .rgLevents _ => 0xF
  | .byKcLatch _ => 0xF
  | .clBudStatus _ => 0x7
  | .sqEvents _ => 0x1F
  | .clLovr _ => 0xFFFFFFFF
  | .clEvstat _ => 0x1
  | .lnEvents _ => 0x7FF
  | .slEvents _ => 0xFF
  | .slLatch _ => 0xF
  | .sgLEvents _ => 0x7F
  | .tbEvents => 0xFFF
  | .asEvents => 0x1F
  | .frEvents => 0xFE
  | .evEvents => 0x3
  | .ptTtcEvents => 0x1F
  | .spEvents => 0x1FF
  | .jrEvents => 0xFF
  | .tnEvents => 0x7F
  | .adEvents => 0x1F
  | .stEvents => 0xF
  | .flEvents => 0x1F
  | .flFpend => 0x7FFFFFE
  | .flOvfData => 0xC0000000
  | .byEvents => 0xFF
  | _ => 0

/-- One row of the address map: a base, up to three instance counts with their strides (Table 20-5), and the
register they name. -/
structure RegRow where
  base : Nat
  n0 : Nat
  s0 : Nat
  n1 : Nat
  s1 : Nat
  n2 : Nat
  s2 : Nat
  make : Nat → Nat → Nat → Reg

/-- The register a row gives at an address, if the address is one of the row's. -/
def rowHit (a : Nat) (r : RegRow) : Option Reg :=
  if a < r.base then none else
    let o := a - r.base
    let i := o / r.s0
    let j := o % r.s0 / r.s1
    let l := o % r.s0 % r.s1 / r.s2
    if o % r.s0 % r.s1 % r.s2 = 0 ∧ i < r.n0 ∧ j < r.n1 ∧ l < r.n2 then some (r.make i j l) else none

/-- Part 0 of the register index (Table 20-6). -/
def regRows0 : List RegRow :=
 [
  ⟨0x1050, 8, 0x4, 1, 0x1, 1, 0x1, fun i _ _ => .tbGated i⟩,
  ⟨0x2040, 16, 0x8, 1, 0x1, 1, 0x1, fun i _ _ => .asPlanRatio i⟩,
  ⟨0x2044, 16, 0x8, 1, 0x1, 1, 0x1, fun i _ _ => .asPlanBand i⟩,
  ⟨0x2100, 8, 0x8, 1, 0x1, 1, 0x1, fun i _ _ => .asCkoCfg i⟩,
  ⟨0x2104, 8, 0x8, 1, 0x1, 1, 0x1, fun i _ _ => .asCkoPhase i⟩,
  ⟨0x100000, 256, 0x20, 1, 0x1, 1, 0x1, fun i _ _ => .evMcCtl i⟩,
  ⟨0x100004, 256, 0x20, 4, 0x4, 1, 0x1, fun i j _ => .evMcProd i j⟩,
  ⟨0x100014, 256, 0x20, 1, 0x1, 1, 0x1, fun i _ _ => .evMcCnt i⟩,
  ⟨0x100018, 256, 0x20, 1, 0x1, 1, 0x1, fun i _ _ => .evMcDis i⟩,
  ⟨0x102000, 64, 0x4, 1, 0x1, 1, 0x1, fun i _ _ => .evGrpCfg i⟩,
  ⟨0x102100, 2, 0x4, 1, 0x1, 1, 0x1, fun i _ _ => .evGrpEn i⟩,
  ⟨0x102200, 8, 0x4, 1, 0x1, 1, 0x1, fun i _ _ => .evTtf i⟩,
  ⟨0x200000, 4, 0x100, 1, 0x1, 1, 0x1, fun i _ _ => .ptCfg i⟩,
  ⟨0x200004, 4, 0x100, 1, 0x1, 1, 0x1, fun i _ _ => .ptStatus i⟩,
  ⟨0x200008, 4, 0x100, 1, 0x1, 1, 0x1, fun i _ _ => .ptEvents i⟩,
  ⟨0x20000C, 4, 0x100, 1, 0x1, 1, 0x1, fun i _ _ => .ptSess i⟩,
  ⟨0x200010, 4, 0x100, 1, 0x1, 1, 0x1, fun i _ _ => .ptPsess i⟩,
  ⟨0x200014, 4, 0x100, 1, 0x1, 1, 0x1, fun i _ _ => .ptBlkCnt i⟩,
  ⟨0x200018, 4, 0x100, 1, 0x1, 1, 0x1, fun i _ _ => .ptFcsCnt i⟩,
  ⟨0x20001C, 4, 0x100, 1, 0x1, 1, 0x1, fun i _ _ => .ptMalfCnt i⟩,
  ⟨0x200020, 4, 0x100, 1, 0x1, 1, 0x1, fun i _ _ => .ptGapCnt i⟩,
  ⟨0x200024, 4, 0x100, 1, 0x1, 1, 0x1, fun i _ _ => .ptAbortCnt i⟩,
  ⟨0x200028, 4, 0x100, 1, 0x1, 1, 0x1, fun i _ _ => .ptDropCnt i⟩,
  ⟨0x20002C, 4, 0x100, 1, 0x1, 1, 0x1, fun i _ _ => .ptDownCnt i⟩,
  ⟨0x300040, 16, 0x4, 1, 0x1, 1, 0x1, fun i _ _ => .spTev i⟩,
  ⟨0x301000, 1024, 0x10, 1, 0x1, 1, 0x1, fun i _ _ => .spSCfg i⟩,
  ⟨0x301004, 1024, 0x10, 1, 0x1, 1, 0x1, fun i _ _ => .spSQuota i⟩,
  ⟨0x301008, 1024, 0x10, 1, 0x1, 1, 0x1, fun i _ _ => .spSLoss i⟩,
  ⟨0x30100C, 1024, 0x10, 1, 0x1, 1, 0x1, fun i _ _ => .spSStat i⟩,
  ⟨0x320000, 1024, 0x80, 8, 0x10, 1, 0x1, fun i j _ => .spWCfg i j⟩,
  ⟨0x320004, 1024, 0x80, 8, 0x10, 1, 0x1, fun i j _ => .spWMask i j⟩,
  ⟨0x320008, 1024, 0x80, 8, 0x10, 1, 0x1, fun i j _ => .spWOfs i j⟩,
  ⟨0x32000C, 1024, 0x80, 8, 0x10, 1, 0x1, fun i j _ => .spWWid i j⟩,
  ⟨0x308000, 8, 0x4, 1, 0x1, 1, 0x1, fun i _ _ => .rgDone i⟩,
  ⟨0x30C000, 256, 0x40, 1, 0x1, 1, 0x1, fun i _ _ => .rgCfg i⟩,
  ⟨0x30C004, 256, 0x40, 1, 0x1, 1, 0x1, fun i _ _ => .rgGate i⟩,
  ⟨0x30C008, 256, 0x40, 1, 0x1, 1, 0x1, fun i _ _ => .rgCtrl i⟩,
  ⟨0x30C00C, 256, 0x40, 1, 0x1, 1, 0x1, fun i _ _ => .rgStatus i⟩,
  ⟨0x30C010, 256, 0x40, 1, 0x1, 1, 0x1, fun i _ _ => .rgLevents i⟩,
  ⟨0x30C014, 256, 0x40, 1, 0x1, 1, 0x1, fun i _ _ => .rgResult i⟩]

/-- Part 1 of the register index (Table 20-6). -/
def regRows1 : List RegRow :=
 [
  ⟨0x30C018, 256, 0x40, 10, 0x4, 1, 0x1, fun i j _ => .rgRes i j⟩,
  ⟨0x400040, 8, 0x4, 1, 0x1, 1, 0x1, fun i _ _ => .jrDigest i⟩,
  ⟨0x500100, 41, 0x4, 1, 0x1, 1, 0x1, fun i _ _ => .adSys i⟩,
  ⟨0x500200, 16, 0x10, 1, 0x1, 1, 0x1, fun i _ _ => .adECfg i⟩,
  ⟨0x500204, 16, 0x10, 1, 0x1, 1, 0x1, fun i _ _ => .adEResLo i⟩,
  ⟨0x500208, 16, 0x10, 1, 0x1, 1, 0x1, fun i _ _ => .adEResHi i⟩,
  ⟨0x50020C, 16, 0x10, 1, 0x1, 1, 0x1, fun i _ _ => .adECnt i⟩,
  ⟨0x600100, 32, 0x4, 1, 0x1, 1, 0x1, fun i _ _ => .stClRes i⟩,
  ⟨0x700100, 8, 0x10, 1, 0x1, 1, 0x1, fun i _ _ => .byKcCfg i⟩,
  ⟨0x700104, 8, 0x10, 1, 0x1, 1, 0x1, fun i _ _ => .byKcThr i⟩,
  ⟨0x700108, 8, 0x10, 1, 0x1, 1, 0x1, fun i _ _ => .byKcBlnk i⟩,
  ⟨0x70010C, 8, 0x10, 1, 0x1, 1, 0x1, fun i _ _ => .byKcLatch i⟩,
  ⟨0x1000000, 32, 0x100000, 1, 0x1, 1, 0x1, fun i _ _ => .clInfo i⟩,
  ⟨0x1000100, 32, 0x100000, 1, 0x1, 1, 0x1, fun i _ _ => .clBudCap i⟩,
  ⟨0x1000104, 32, 0x100000, 1, 0x1, 1, 0x1, fun i _ _ => .clBudSum i⟩,
  ⟨0x1000108, 32, 0x100000, 1, 0x1, 1, 0x1, fun i _ _ => .clBudStatus i⟩,
  ⟨0x100010C, 32, 0x100000, 1, 0x1, 1, 0x1, fun i _ _ => .clBudExh i⟩,
  ⟨0x1000110, 32, 0x100000, 1, 0x1, 1, 0x1, fun i _ _ => .clBudSysLast i⟩,
  ⟨0x1000114, 32, 0x100000, 1, 0x1, 1, 0x1, fun i _ _ => .clBudSysMin i⟩,
  ⟨0x1000200, 32, 0x100000, 1, 0x1, 1, 0x1, fun i _ _ => .sqCfg i⟩,
  ⟨0x1000204, 32, 0x100000, 1, 0x1, 1, 0x1, fun i _ _ => .sqStatus i⟩,
  ⟨0x1000208, 32, 0x100000, 1, 0x1, 1, 0x1, fun i _ _ => .sqEvents i⟩,
  ⟨0x1000210, 32, 0x100000, 2, 0x4, 1, 0x1, fun i j _ => .sqFaulted i j⟩,
  ⟨0x1000218, 32, 0x100000, 2, 0x4, 1, 0x1, fun i j _ => .sqHalted i j⟩,
  ⟨0x1000400, 32, 0x100000, 32, 0x20, 1, 0x1, fun i j _ => .clCcCtl i j⟩,
  ⟨0x1000404, 32, 0x100000, 32, 0x20, 4, 0x4, fun i j l => .clCcProd i j l⟩,
  ⟨0x1000414, 32, 0x100000, 32, 0x20, 1, 0x1, fun i j _ => .clCcCnt i j⟩,
  ⟨0x1000418, 32, 0x100000, 32, 0x20, 1, 0x1, fun i j _ => .clCcDis i j⟩,
  ⟨0x1000800, 32, 0x100000, 16, 0x4, 1, 0x1, fun i j _ => .clLev i j⟩,
  ⟨0x1000840, 32, 0x100000, 1, 0x1, 1, 0x1, fun i _ _ => .clLovr i⟩,
  ⟨0x1000844, 32, 0x100000, 1, 0x1, 1, 0x1, fun i _ _ => .clLovrCnt i⟩,
  ⟨0x1000900, 32, 0x100000, 64, 0x4, 1, 0x1, fun i j _ => .clWovr i j⟩,
  ⟨0x1000A00, 32, 0x100000, 1, 0x1, 1, 0x1, fun i _ _ => .clEvstat i⟩,
  ⟨0x1001000, 16, 0x100000, 16, 0x100, 1, 0x1, fun i j _ => .lnCfg (i * 16 + j)⟩,
  ⟨0x1001004, 16, 0x100000, 16, 0x100, 1, 0x1, fun i j _ => .lnCtrl (i * 16 + j)⟩,
  ⟨0x1001008, 16, 0x100000, 16, 0x100, 1, 0x1, fun i j _ => .lnStatus (i * 16 + j)⟩,
  ⟨0x100100C, 16, 0x100000, 16, 0x100, 1, 0x1, fun i j _ => .lnEvents (i * 16 + j)⟩,
  ⟨0x1001010, 16, 0x100000, 16, 0x100, 1, 0x1, fun i j _ => .lnOwner (i * 16 + j)⟩,
  ⟨0x1001014, 16, 0x100000, 16, 0x100, 1, 0x1, fun i j _ => .lnSkew (i * 16 + j)⟩,
  ⟨0x1001018, 16, 0x100000, 16, 0x100, 1, 0x1, fun i j _ => .lnCtabIdx (i * 16 + j)⟩]

/-- Part 2 of the register index (Table 20-6). -/
def regRows2 : List RegRow :=
 [
  ⟨0x100101C, 16, 0x100000, 16, 0x100, 1, 0x1, fun i j _ => .lnCtabData (i * 16 + j)⟩,
  ⟨0x1001020, 16, 0x100000, 16, 0x100, 1, 0x1, fun i j _ => .lnCalInfo (i * 16 + j)⟩,
  ⟨0x1001024, 16, 0x100000, 16, 0x100, 1, 0x1, fun i j _ => .lnSpot (i * 16 + j)⟩,
  ⟨0x1001028, 16, 0x100000, 16, 0x100, 1, 0x1, fun i j _ => .lnSkewSh (i * 16 + j)⟩,
  ⟨0x100102C, 16, 0x100000, 16, 0x100, 1, 0x1, fun i j _ => .lnCalpath (i * 16 + j)⟩,
  ⟨0x1001030, 16, 0x100000, 16, 0x100, 1, 0x1, fun i j _ => .lnLateCnt (i * 16 + j)⟩,
  ⟨0x1001034, 16, 0x100000, 16, 0x100, 1, 0x1, fun i j _ => .lnFullCnt (i * 16 + j)⟩,
  ⟨0x1001038, 16, 0x100000, 16, 0x100, 1, 0x1, fun i j _ => .lnDiscCnt (i * 16 + j)⟩,
  ⟨0x100103C, 16, 0x100000, 16, 0x100, 1, 0x1, fun i j _ => .lnTruncCnt (i * 16 + j)⟩,
  ⟨0x1001040, 16, 0x100000, 16, 0x100, 1, 0x1, fun i j _ => .lnFiredLo (i * 16 + j)⟩,
  ⟨0x1001044, 16, 0x100000, 16, 0x100, 1, 0x1, fun i j _ => .lnFiredHi (i * 16 + j)⟩,
  ⟨0x1001048, 16, 0x100000, 16, 0x100, 1, 0x1, fun i j _ => .lnOcCnt (i * 16 + j)⟩,
  ⟨0x100104C, 16, 0x100000, 16, 0x100, 1, 0x1, fun i j _ => .lnDropLog (i * 16 + j)⟩,
  ⟨0x2001000, 16, 0x100000, 16, 0x100, 1, 0x1, fun i j _ => .slCfg (i * 16 + j)⟩,
  ⟨0x2001004, 16, 0x100000, 16, 0x100, 1, 0x1, fun i j _ => .slCtrl (i * 16 + j)⟩,
  ⟨0x2001008, 16, 0x100000, 16, 0x100, 1, 0x1, fun i j _ => .slStatus (i * 16 + j)⟩,
  ⟨0x200100C, 16, 0x100000, 16, 0x100, 1, 0x1, fun i j _ => .slEvents (i * 16 + j)⟩,
  ⟨0x2001010, 16, 0x100000, 16, 0x100, 1, 0x1, fun i j _ => .slOwner (i * 16 + j)⟩,
  ⟨0x2001014, 16, 0x100000, 16, 0x100, 1, 0x1, fun i j _ => .slThr (i * 16 + j)⟩,
  ⟨0x2001018, 16, 0x100000, 16, 0x100, 1, 0x1, fun i j _ => .slThrNow (i * 16 + j)⟩,
  ⟨0x200101C, 16, 0x100000, 16, 0x100, 1, 0x1, fun i j _ => .slLatch (i * 16 + j)⟩,
  ⟨0x2001020, 16, 0x100000, 16, 0x100, 1, 0x1, fun i j _ => .slBlnk (i * 16 + j)⟩,
  ⟨0x2001024, 16, 0x100000, 16, 0x100, 1, 0x1, fun i j _ => .slEvcfg (i * 16 + j)⟩,
  ⟨0x2001028, 16, 0x100000, 16, 0x100, 1, 0x1, fun i j _ => .slCapwin (i * 16 + j)⟩,
  ⟨0x200102C, 16, 0x100000, 16, 0x100, 1, 0x1, fun i j _ => .slInpath (i * 16 + j)⟩,
  ⟨0x2001030, 16, 0x100000, 16, 0x100, 1, 0x1, fun i j _ => .slTrim (i * 16 + j)⟩,
  ⟨0x2001034, 16, 0x100000, 16, 0x100, 1, 0x1, fun i j _ => .slBinIdx (i * 16 + j)⟩,
  ⟨0x2001038, 16, 0x100000, 16, 0x100, 1, 0x1, fun i j _ => .slBinData (i * 16 + j)⟩,
  ⟨0x200103C, 16, 0x100000, 16, 0x100, 1, 0x1, fun i j _ => .slCalInfo (i * 16 + j)⟩,
  ⟨0x2001040, 16, 0x100000, 16, 0x100, 1, 0x1, fun i j _ => .slHitLo (i * 16 + j)⟩,
  ⟨0x2001044, 16, 0x100000, 16, 0x100, 1, 0x1, fun i j _ => .slHitHi (i * 16 + j)⟩,
  ⟨0x2001048, 16, 0x100000, 16, 0x100, 1, 0x1, fun i j _ => .slDeadCnt (i * 16 + j)⟩,
  ⟨0x200104C, 16, 0x100000, 16, 0x100, 1, 0x1, fun i j _ => .slQlossCnt (i * 16 + j)⟩,
  ⟨0x2001050, 16, 0x100000, 16, 0x100, 1, 0x1, fun i j _ => .slBlankCnt (i * 16 + j)⟩,
  ⟨0x2001054, 16, 0x100000, 16, 0x100, 1, 0x1, fun i j _ => .slOvfCnt (i * 16 + j)⟩,
  ⟨0x2001058, 16, 0x100000, 16, 0x100, 1, 0x1, fun i j _ => .slToterrCnt (i * 16 + j)⟩,
  ⟨0x200105C, 16, 0x100000, 16, 0x100, 1, 0x1, fun i j _ => .slFlushCnt (i * 16 + j)⟩,
  ⟨0x1020000, 16, 0x100000, 1, 0x1, 1, 0x1, fun i _ _ => .sgCfg i⟩,
  ⟨0x1020004, 16, 0x100000, 1, 0x1, 1, 0x1, fun i _ _ => .sgActive i⟩,
  ⟨0x1020100, 16, 0x100000, 64, 0x10, 1, 0x1, fun i j _ => .sgDOwn i j⟩]

/-- Part 3 of the register index (Table 20-6). -/
def regRows3 : List RegRow :=
 [
  ⟨0x1020104, 16, 0x100000, 64, 0x10, 1, 0x1, fun i j _ => .sgDLoc i j⟩,
  ⟨0x1020108, 16, 0x100000, 64, 0x10, 1, 0x1, fun i j _ => .sgDLen i j⟩,
  ⟨0x102010C, 16, 0x100000, 64, 0x10, 1, 0x1, fun i j _ => .sgDSeq i j⟩,
  ⟨0x1021000, 16, 0x100000, 16, 0x40, 1, 0x1, fun i j _ => .sgLState (i * 16 + j)⟩,
  ⟨0x1021004, 16, 0x100000, 16, 0x40, 1, 0x1, fun i j _ => .sgLPos (i * 16 + j)⟩,
  ⟨0x1021008, 16, 0x100000, 16, 0x40, 1, 0x1, fun i j _ => .sgLBaseLo (i * 16 + j)⟩,
  ⟨0x102100C, 16, 0x100000, 16, 0x40, 1, 0x1, fun i j _ => .sgLBaseHi (i * 16 + j)⟩,
  ⟨0x1021010, 16, 0x100000, 16, 0x40, 1, 0x1, fun i j _ => .sgLCtrl (i * 16 + j)⟩,
  ⟨0x1021014, 16, 0x100000, 16, 0x40, 1, 0x1, fun i j _ => .sgLEvents (i * 16 + j)⟩,
  ⟨0x1021018, 16, 0x100000, 16, 0x40, 1, 0x1, fun i j _ => .sgLPasses (i * 16 + j)⟩,
  ⟨0x1080000, 32, 0x100000, 64, 0x100, 1, 0x1, fun i j _ => .ctxCfg (i * 64 + j)⟩,
  ⟨0x1080004, 32, 0x100000, 64, 0x100, 1, 0x1, fun i j _ => .ctxBud (i * 64 + j)⟩,
  ⟨0x1080008, 32, 0x100000, 64, 0x100, 1, 0x1, fun i j _ => .ctxIwin (i * 64 + j)⟩,
  ⟨0x108000C, 32, 0x100000, 64, 0x100, 1, 0x1, fun i j _ => .ctxDwin (i * 64 + j)⟩,
  ⟨0x1080010, 32, 0x100000, 64, 0x100, 1, 0x1, fun i j _ => .ctxEntry (i * 64 + j)⟩,
  ⟨0x1080014, 32, 0x100000, 64, 0x100, 1, 0x1, fun i j _ => .ctxCtrl (i * 64 + j)⟩,
  ⟨0x1080018, 32, 0x100000, 64, 0x100, 1, 0x1, fun i j _ => .ctxState (i * 64 + j)⟩,
  ⟨0x108001C, 32, 0x100000, 64, 0x100, 1, 0x1, fun i j _ => .ctxPc (i * 64 + j)⟩,
  ⟨0x1080020, 32, 0x100000, 64, 0x100, 1, 0x1, fun i j _ => .ctxFlags (i * 64 + j)⟩,
  ⟨0x1080024, 32, 0x100000, 64, 0x100, 1, 0x1, fun i j _ => .ctxFault (i * 64 + j)⟩,
  ⟨0x1080028, 32, 0x100000, 64, 0x100, 1, 0x1, fun i j _ => .ctxRem (i * 64 + j)⟩,
  ⟨0x108002C, 32, 0x100000, 64, 0x100, 1, 0x1, fun i j _ => .ctxExh (i * 64 + j)⟩,
  ⟨0x1080030, 32, 0x100000, 64, 0x100, 1, 0x1, fun i j _ => .ctxRetLo (i * 64 + j)⟩,
  ⟨0x1080034, 32, 0x100000, 64, 0x100, 1, 0x1, fun i j _ => .ctxRetHi (i * 64 + j)⟩,
  ⟨0x1080038, 32, 0x100000, 64, 0x100, 1, 0x1, fun i j _ => .ctxDbg (i * 64 + j)⟩,
  ⟨0x108003C, 32, 0x100000, 64, 0x100, 1, 0x1, fun i j _ => .ctxRstk (i * 64 + j)⟩,
  ⟨0x1080040, 32, 0x100000, 64, 0x100, 32, 0x4, fun i j l => .ctxG (i * 64 + j) l⟩,
  ⟨0x10800C0, 32, 0x100000, 64, 0x100, 16, 0x4, fun i j l => .ctxT (i * 64 + j) l⟩,
  ⟨0x0, 1, 0x1, 1, 0x1, 1, 0x1, fun _ _ _ => .idPart⟩,
  ⟨0x4, 1, 0x1, 1, 0x1, 1, 0x1, fun _ _ _ => .idJtag⟩,
  ⟨0x8, 1, 0x1, 1, 0x1, 1, 0x1, fun _ _ _ => .idUidLo⟩,
  ⟨0xC, 1, 0x1, 1, 0x1, 1, 0x1, fun _ _ _ => .idUidHi⟩,
  ⟨0x100, 1, 0x1, 1, 0x1, 1, 0x1, fun _ _ _ => .lcStatus⟩,
  ⟨0x104, 1, 0x1, 1, 0x1, 1, 0x1, fun _ _ _ => .lcRev⟩,
  ⟨0x1000, 1, 0x1, 1, 0x1, 1, 0x1, fun _ _ _ => .tbCtrl⟩,
  ⟨0x1004, 1, 0x1, 1, 0x1, 1, 0x1, fun _ _ _ => .tbLockCfg⟩,
  ⟨0x1008, 1, 0x1, 1, 0x1, 1, 0x1, fun _ _ _ => .tbStatus⟩,
  ⟨0x100C, 1, 0x1, 1, 0x1, 1, 0x1, fun _ _ _ => .tbEvents⟩,
  ⟨0x1010, 1, 0x1, 1, 0x1, 1, 0x1, fun _ _ _ => .tbPherr⟩,
  ⟨0x1014, 1, 0x1, 1, 0x1, 1, 0x1, fun _ _ _ => .tbPherrMax⟩]

/-- Part 4 of the register index (Table 20-6). -/
def regRows4 : List RegRow :=
 [
  ⟨0x1018, 1, 0x1, 1, 0x1, 1, 0x1, fun _ _ _ => .tbFofs⟩,
  ⟨0x101C, 1, 0x1, 1, 0x1, 1, 0x1, fun _ _ _ => .tbFofsNow⟩,
  ⟨0x1020, 1, 0x1, 1, 0x1, 1, 0x1, fun _ _ _ => .tbSyncCfg⟩,
  ⟨0x1024, 1, 0x1, 1, 0x1, 1, 0x1, fun _ _ _ => .tbSyncDiff⟩,
  ⟨0x1028, 1, 0x1, 1, 0x1, 1, 0x1, fun _ _ _ => .tbTsetLo⟩,
  ⟨0x102C, 1, 0x1, 1, 0x1, 1, 0x1, fun _ _ _ => .tbTsetHi⟩,
  ⟨0x1030, 1, 0x1, 1, 0x1, 1, 0x1, fun _ _ _ => .tbTimeLo⟩,
  ⟨0x1034, 1, 0x1, 1, 0x1, 1, 0x1, fun _ _ _ => .tbTimeHi⟩,
  ⟨0x1038, 1, 0x1, 1, 0x1, 1, 0x1, fun _ _ _ => .tbEpoch⟩,
  ⟨0x103C, 1, 0x1, 1, 0x1, 1, 0x1, fun _ _ _ => .tbBand⟩,
  ⟨0x1040, 1, 0x1, 1, 0x1, 1, 0x1, fun _ _ _ => .tbFlushEdge⟩,
  ⟨0x1044, 1, 0x1, 1, 0x1, 1, 0x1, fun _ _ _ => .tbFlushHit⟩,
  ⟨0x1048, 1, 0x1, 1, 0x1, 1, 0x1, fun _ _ _ => .tbTrunc⟩,
  ⟨0x104C, 1, 0x1, 1, 0x1, 1, 0x1, fun _ _ _ => .tbDisc⟩,
  ⟨0x2000, 1, 0x1, 1, 0x1, 1, 0x1, fun _ _ _ => .asCtrl⟩,
  ⟨0x2004, 1, 0x1, 1, 0x1, 1, 0x1, fun _ _ _ => .asStatus⟩,
  ⟨0x2008, 1, 0x1, 1, 0x1, 1, 0x1, fun _ _ _ => .asEvents⟩,
  ⟨0x3000, 1, 0x1, 1, 0x1, 1, 0x1, fun _ _ _ => .frCtrl⟩,
  ⟨0x3004, 1, 0x1, 1, 0x1, 1, 0x1, fun _ _ _ => .frPeriod⟩,
  ⟨0x3008, 1, 0x1, 1, 0x1, 1, 0x1, fun _ _ _ => .frPeriodReq⟩,
  ⟨0x3010, 1, 0x1, 1, 0x1, 1, 0x1, fun _ _ _ => .frCountLo⟩,
  ⟨0x3014, 1, 0x1, 1, 0x1, 1, 0x1, fun _ _ _ => .frCountHi⟩,
  ⟨0x3018, 1, 0x1, 1, 0x1, 1, 0x1, fun _ _ _ => .frStartLo⟩,
  ⟨0x301C, 1, 0x1, 1, 0x1, 1, 0x1, fun _ _ _ => .frStartHi⟩,
  ⟨0x3020, 1, 0x1, 1, 0x1, 1, 0x1, fun _ _ _ => .frStatus⟩,
  ⟨0x3024, 1, 0x1, 1, 0x1, 1, 0x1, fun _ _ _ => .frEvents⟩,
  ⟨0x3028, 1, 0x1, 1, 0x1, 1, 0x1, fun _ _ _ => .frPchkFail⟩,
  ⟨0x3030, 1, 0x1, 1, 0x1, 1, 0x1, fun _ _ _ => .frBudJr⟩,
  ⟨0x3034, 1, 0x1, 1, 0x1, 1, 0x1, fun _ _ _ => .frBudLb⟩,
  ⟨0x3040, 1, 0x1, 1, 0x1, 1, 0x1, fun _ _ _ => .frSetLo⟩,
  ⟨0x3044, 1, 0x1, 1, 0x1, 1, 0x1, fun _ _ _ => .frSetHi⟩,
  ⟨0x4000, 1, 0x1, 1, 0x1, 1, 0x1, fun _ _ _ => .pwStart⟩,
  ⟨0x4004, 1, 0x1, 1, 0x1, 1, 0x1, fun _ _ _ => .pwTready⟩,
  ⟨0x4008, 1, 0x1, 1, 0x1, 1, 0x1, fun _ _ _ => .pwStep⟩,
  ⟨0x102240, 1, 0x1, 1, 0x1, 1, 0x1, fun _ _ _ => .evAdcSel⟩,
  ⟨0x102244, 1, 0x1, 1, 0x1, 1, 0x1, fun _ _ _ => .evEvents⟩,
  ⟨0x102248, 1, 0x1, 1, 0x1, 1, 0x1, fun _ _ _ => .evAdcOvrCnt⟩,
  ⟨0x200400, 1, 0x1, 1, 0x1, 1, 0x1, fun _ _ _ => .ptTtcCfg⟩,
  ⟨0x200404, 1, 0x1, 1, 0x1, 1, 0x1, fun _ _ _ => .ptTtcStatus⟩,
  ⟨0x200408, 1, 0x1, 1, 0x1, 1, 0x1, fun _ _ _ => .ptTtcEvents⟩]

/-- Part 5 of the register index (Table 20-6). -/
def regRows5 : List RegRow :=
 [
  ⟨0x20040C, 1, 0x1, 1, 0x1, 1, 0x1, fun _ _ _ => .ptTtcTrigCnt⟩,
  ⟨0x200410, 1, 0x1, 1, 0x1, 1, 0x1, fun _ _ _ => .ptTtcBadCnt⟩,
  ⟨0x200414, 1, 0x1, 1, 0x1, 1, 0x1, fun _ _ _ => .ptTtcMarkCnt⟩,
  ⟨0x200418, 1, 0x1, 1, 0x1, 1, 0x1, fun _ _ _ => .ptTtcBc⟩,
  ⟨0x200600, 1, 0x1, 1, 0x1, 1, 0x1, fun _ _ _ => .ptJtag⟩,
  ⟨0x200700, 1, 0x1, 1, 0x1, 1, 0x1, fun _ _ _ => .ptQintCnt⟩,
  ⟨0x200704, 1, 0x1, 1, 0x1, 1, 0x1, fun _ _ _ => .ptQintLast⟩,
  ⟨0x300000, 1, 0x1, 1, 0x1, 1, 0x1, fun _ _ _ => .spCfg⟩,
  ⟨0x300004, 1, 0x1, 1, 0x1, 1, 0x1, fun _ _ _ => .spDevid⟩,
  ⟨0x300008, 1, 0x1, 1, 0x1, 1, 0x1, fun _ _ _ => .spChain⟩,
  ⟨0x30000C, 1, 0x1, 1, 0x1, 1, 0x1, fun _ _ _ => .spChin⟩,
  ⟨0x300010, 1, 0x1, 1, 0x1, 1, 0x1, fun _ _ _ => .spQsum⟩,
  ⟨0x300014, 1, 0x1, 1, 0x1, 1, 0x1, fun _ _ _ => .spStatus⟩,
  ⟨0x300018, 1, 0x1, 1, 0x1, 1, 0x1, fun _ _ _ => .spEvents⟩,
  ⟨0x300020, 1, 0x1, 1, 0x1, 1, 0x1, fun _ _ _ => .spWm0⟩,
  ⟨0x300024, 1, 0x1, 1, 0x1, 1, 0x1, fun _ _ _ => .spWm1⟩,
  ⟨0x300028, 1, 0x1, 1, 0x1, 1, 0x1, fun _ _ _ => .spWmc⟩,
  ⟨0x300080, 1, 0x1, 1, 0x1, 1, 0x1, fun _ _ _ => .spLateCnt⟩,
  ⟨0x300084, 1, 0x1, 1, 0x1, 1, 0x1, fun _ _ _ => .spTlateCnt⟩,
  ⟨0x300088, 1, 0x1, 1, 0x1, 1, 0x1, fun _ _ _ => .spTlossCnt⟩,
  ⟨0x30008C, 1, 0x1, 1, 0x1, 1, 0x1, fun _ _ _ => .spChbadCnt⟩,
  ⟨0x300090, 1, 0x1, 1, 0x1, 1, 0x1, fun _ _ _ => .spChdropCnt⟩,
  ⟨0x300094, 1, 0x1, 1, 0x1, 1, 0x1, fun _ _ _ => .spNostrCnt⟩,
  ⟨0x308020, 1, 0x1, 1, 0x1, 1, 0x1, fun _ _ _ => .rgSlot⟩,
  ⟨0x400000, 1, 0x1, 1, 0x1, 1, 0x1, fun _ _ _ => .jrStatus⟩,
  ⟨0x400004, 1, 0x1, 1, 0x1, 1, 0x1, fun _ _ _ => .jrEvents⟩,
  ⟨0x400008, 1, 0x1, 1, 0x1, 1, 0x1, fun _ _ _ => .jrCtrl⟩,
  ⟨0x40000C, 1, 0x1, 1, 0x1, 1, 0x1, fun _ _ _ => .jrFill⟩,
  ⟨0x400010, 1, 0x1, 1, 0x1, 1, 0x1, fun _ _ _ => .jrSeqLo⟩,
  ⟨0x400014, 1, 0x1, 1, 0x1, 1, 0x1, fun _ _ _ => .jrSeqHi⟩,
  ⟨0x400018, 1, 0x1, 1, 0x1, 1, 0x1, fun _ _ _ => .jrGenLo⟩,
  ⟨0x40001C, 1, 0x1, 1, 0x1, 1, 0x1, fun _ _ _ => .jrGenHi⟩,
  ⟨0x400020, 1, 0x1, 1, 0x1, 1, 0x1, fun _ _ _ => .jrPend⟩,
  ⟨0x400024, 1, 0x1, 1, 0x1, 1, 0x1, fun _ _ _ => .jrTuse⟩,
  ⟨0x400028, 1, 0x1, 1, 0x1, 1, 0x1, fun _ _ _ => .jrCsize⟩,
  ⟨0x400030, 1, 0x1, 1, 0x1, 1, 0x1, fun _ _ _ => .jrDframeLo⟩,
  ⟨0x400034, 1, 0x1, 1, 0x1, 1, 0x1, fun _ _ _ => .jrDframeHi⟩,
  ⟨0x400060, 1, 0x1, 1, 0x1, 1, 0x1, fun _ _ _ => .jrSuspIdx⟩,
  ⟨0x400064, 1, 0x1, 1, 0x1, 1, 0x1, fun _ _ _ => .jrSuspLo⟩,
  ⟨0x400068, 1, 0x1, 1, 0x1, 1, 0x1, fun _ _ _ => .jrSuspHi⟩]

/-- Part 6 of the register index (Table 20-6). -/
def regRows6 : List RegRow :=
 [
  ⟨0x40006C, 1, 0x1, 1, 0x1, 1, 0x1, fun _ _ _ => .jrSuspInfo⟩,
  ⟨0x400080, 1, 0x1, 1, 0x1, 1, 0x1, fun _ _ _ => .jrLateCnt⟩,
  ⟨0x400084, 1, 0x1, 1, 0x1, 1, 0x1, fun _ _ _ => .jrApprejCnt⟩,
  ⟨0x400088, 1, 0x1, 1, 0x1, 1, 0x1, fun _ _ _ => .jrAbandonCnt⟩,
  ⟨0x40008C, 1, 0x1, 1, 0x1, 1, 0x1, fun _ _ _ => .jrSuspCnt⟩,
  ⟨0x400090, 1, 0x1, 1, 0x1, 1, 0x1, fun _ _ _ => .jrEccCnt⟩,
  ⟨0x400094, 1, 0x1, 1, 0x1, 1, 0x1, fun _ _ _ => .jrFlipCnt⟩,
  ⟨0x410000, 1, 0x1, 1, 0x1, 1, 0x1, fun _ _ _ => .tnStatus⟩,
  ⟨0x410004, 1, 0x1, 1, 0x1, 1, 0x1, fun _ _ _ => .tnEvents⟩,
  ⟨0x410008, 1, 0x1, 1, 0x1, 1, 0x1, fun _ _ _ => .tnSel⟩,
  ⟨0x41000C, 1, 0x1, 1, 0x1, 1, 0x1, fun _ _ _ => .tnCapData⟩,
  ⟨0x410010, 1, 0x1, 1, 0x1, 1, 0x1, fun _ _ _ => .tnState⟩,
  ⟨0x410014, 1, 0x1, 1, 0x1, 1, 0x1, fun _ _ _ => .tnCtrLo⟩,
  ⟨0x410018, 1, 0x1, 1, 0x1, 1, 0x1, fun _ _ _ => .tnCtrHi⟩,
  ⟨0x41001C, 1, 0x1, 1, 0x1, 1, 0x1, fun _ _ _ => .tnResvLo⟩,
  ⟨0x410020, 1, 0x1, 1, 0x1, 1, 0x1, fun _ _ _ => .tnResvHi⟩,
  ⟨0x410024, 1, 0x1, 1, 0x1, 1, 0x1, fun _ _ _ => .tnTAfail⟩,
  ⟨0x410028, 1, 0x1, 1, 0x1, 1, 0x1, fun _ _ _ => .tnTReplay⟩,
  ⟨0x41002C, 1, 0x1, 1, 0x1, 1, 0x1, fun _ _ _ => .tnAfailCnt⟩,
  ⟨0x410030, 1, 0x1, 1, 0x1, 1, 0x1, fun _ _ _ => .tnReplayCnt⟩,
  ⟨0x410034, 1, 0x1, 1, 0x1, 1, 0x1, fun _ _ _ => .tnFailLog⟩,
  ⟨0x410038, 1, 0x1, 1, 0x1, 1, 0x1, fun _ _ _ => .tnSelf⟩,
  ⟨0x500000, 1, 0x1, 1, 0x1, 1, 0x1, fun _ _ _ => .adCfg⟩,
  ⟨0x500004, 1, 0x1, 1, 0x1, 1, 0x1, fun _ _ _ => .adFt⟩,
  ⟨0x500008, 1, 0x1, 1, 0x1, 1, 0x1, fun _ _ _ => .adStatus⟩,
  ⟨0x50000C, 1, 0x1, 1, 0x1, 1, 0x1, fun _ _ _ => .adEvents⟩,
  ⟨0x500010, 1, 0x1, 1, 0x1, 1, 0x1, fun _ _ _ => .adFtOvrCnt⟩,
  ⟨0x500014, 1, 0x1, 1, 0x1, 1, 0x1, fun _ _ _ => .adConvCnt⟩,
  ⟨0x600000, 1, 0x1, 1, 0x1, 1, 0x1, fun _ _ _ => .stStatus⟩,
  ⟨0x600004, 1, 0x1, 1, 0x1, 1, 0x1, fun _ _ _ => .stEvents⟩,
  ⟨0x600008, 1, 0x1, 1, 0x1, 1, 0x1, fun _ _ _ => .stLbPend⟩,
  ⟨0x60000C, 1, 0x1, 1, 0x1, 1, 0x1, fun _ _ _ => .stLbRun⟩,
  ⟨0x600010, 1, 0x1, 1, 0x1, 1, 0x1, fun _ _ _ => .stLbOk⟩,
  ⟨0x600014, 1, 0x1, 1, 0x1, 1, 0x1, fun _ _ _ => .stQuar⟩,
  ⟨0x600018, 1, 0x1, 1, 0x1, 1, 0x1, fun _ _ _ => .stAst⟩,
  ⟨0x60001C, 1, 0x1, 1, 0x1, 1, 0x1, fun _ _ _ => .stAstLog⟩,
  ⟨0x600020, 1, 0x1, 1, 0x1, 1, 0x1, fun _ _ _ => .stLbCnt⟩,
  ⟨0x600024, 1, 0x1, 1, 0x1, 1, 0x1, fun _ _ _ => .stLbFailCnt⟩,
  ⟨0x601000, 1, 0x1, 1, 0x1, 1, 0x1, fun _ _ _ => .flStatus⟩,
  ⟨0x601004, 1, 0x1, 1, 0x1, 1, 0x1, fun _ _ _ => .flEvents⟩]

/-- Part 7 of the register index (Table 20-6). -/
def regRows7 : List RegRow :=
 [
  ⟨0x601008, 1, 0x1, 1, 0x1, 1, 0x1, fun _ _ _ => .flFpend⟩,
  ⟨0x60100C, 1, 0x1, 1, 0x1, 1, 0x1, fun _ _ _ => .flFmask⟩,
  ⟨0x601010, 1, 0x1, 1, 0x1, 1, 0x1, fun _ _ _ => .flIrqSrc⟩,
  ⟨0x601014, 1, 0x1, 1, 0x1, 1, 0x1, fun _ _ _ => .flImask⟩,
  ⟨0x601018, 1, 0x1, 1, 0x1, 1, 0x1, fun _ _ _ => .flTbasMask⟩,
  ⟨0x60101C, 1, 0x1, 1, 0x1, 1, 0x1, fun _ _ _ => .flLogSeq⟩,
  ⟨0x601020, 1, 0x1, 1, 0x1, 1, 0x1, fun _ _ _ => .flSafe⟩,
  ⟨0x601030, 1, 0x1, 1, 0x1, 1, 0x1, fun _ _ _ => .flGrad⟩,
  ⟨0x601034, 1, 0x1, 1, 0x1, 1, 0x1, fun _ _ _ => .flGradMax⟩,
  ⟨0x601038, 1, 0x1, 1, 0x1, 1, 0x1, fun _ _ _ => .flGradCnt⟩,
  ⟨0x601040, 1, 0x1, 1, 0x1, 1, 0x1, fun _ _ _ => .flEccSel⟩,
  ⟨0x601044, 1, 0x1, 1, 0x1, 1, 0x1, fun _ _ _ => .flEccDataCnt⟩,
  ⟨0x601048, 1, 0x1, 1, 0x1, 1, 0x1, fun _ _ _ => .flEccChkCnt⟩,
  ⟨0x60104C, 1, 0x1, 1, 0x1, 1, 0x1, fun _ _ _ => .flEccUncCnt⟩,
  ⟨0x601050, 1, 0x1, 1, 0x1, 1, 0x1, fun _ _ _ => .flEccLast⟩,
  ⟨0x601054, 1, 0x1, 1, 0x1, 1, 0x1, fun _ _ _ => .flTmrCnt⟩,
  ⟨0x601058, 1, 0x1, 1, 0x1, 1, 0x1, fun _ _ _ => .flScrubCnt⟩,
  ⟨0x60105C, 1, 0x1, 1, 0x1, 1, 0x1, fun _ _ _ => .flLogDropCnt⟩,
  ⟨0x601060, 1, 0x1, 1, 0x1, 1, 0x1, fun _ _ _ => .flOvfAddr⟩,
  ⟨0x601064, 1, 0x1, 1, 0x1, 1, 0x1, fun _ _ _ => .flOvfData⟩,
  ⟨0x601068, 1, 0x1, 1, 0x1, 1, 0x1, fun _ _ _ => .flOvfFrameLo⟩,
  ⟨0x60106C, 1, 0x1, 1, 0x1, 1, 0x1, fun _ _ _ => .flOvfFrameHi⟩,
  ⟨0x601070, 1, 0x1, 1, 0x1, 1, 0x1, fun _ _ _ => .flOvfLog⟩,
  ⟨0x601074, 1, 0x1, 1, 0x1, 1, 0x1, fun _ _ _ => .flCtrClr⟩,
  ⟨0x700000, 1, 0x1, 1, 0x1, 1, 0x1, fun _ _ _ => .byStatus⟩,
  ⟨0x700004, 1, 0x1, 1, 0x1, 1, 0x1, fun _ _ _ => .byEvents⟩,
  ⟨0x700008, 1, 0x1, 1, 0x1, 1, 0x1, fun _ _ _ => .byCtrl⟩,
  ⟨0x70000C, 1, 0x1, 1, 0x1, 1, 0x1, fun _ _ _ => .byCfg⟩,
  ⟨0x700010, 1, 0x1, 1, 0x1, 1, 0x1, fun _ _ _ => .byPseq⟩,
  ⟨0x700014, 1, 0x1, 1, 0x1, 1, 0x1, fun _ _ _ => .byWake⟩,
  ⟨0x700018, 1, 0x1, 1, 0x1, 1, 0x1, fun _ _ _ => .byClk⟩,
  ⟨0x70001C, 1, 0x1, 1, 0x1, 1, 0x1, fun _ _ _ => .byKclkMeas⟩,
  ⟨0x700020, 1, 0x1, 1, 0x1, 1, 0x1, fun _ _ _ => .byKtCfg⟩,
  ⟨0x700024, 1, 0x1, 1, 0x1, 1, 0x1, fun _ _ _ => .byKtReload⟩,
  ⟨0x700028, 1, 0x1, 1, 0x1, 1, 0x1, fun _ _ _ => .byKtCount⟩,
  ⟨0x70002C, 1, 0x1, 1, 0x1, 1, 0x1, fun _ _ _ => .byBoot⟩,
  ⟨0x700030, 1, 0x1, 1, 0x1, 1, 0x1, fun _ _ _ => .byRramAddr⟩,
  ⟨0x700034, 1, 0x1, 1, 0x1, 1, 0x1, fun _ _ _ => .byRramData⟩]

/-- The whole register index (R554). -/
def regRows : List RegRow :=
  regRows0 ++ regRows1 ++ regRows2 ++ regRows3 ++ regRows4 ++ regRows5 ++ regRows6 ++ regRows7

/-- The keeper channels 248 to 255 are one set of registers, reached also in the Byre block (R550). -/
def keeperAlias (a : Nat) : Nat :=
  if 0x700400 ≤ a ∧ a < 0x700500 then 0x100000 + 248 * 0x20 + (a - 0x700400) else a

/-- The register at an address of the register space; none where there is no register (R547). Port 2 carries the
TTC stream and has no port block of its own (Table 20-5). -/
def regOfAddr (a : Nat) : Option Reg :=
  match regRows.findSome? (rowHit (keeperAlias a)) with
  | some r => if 0x200200 ≤ a ∧ a < 0x200300 then none else some r
  | none => none

end Sys2Proof.Machine
end

