-- ==== Sys2Proof/Machine/StTime.lean ====
section
/-! DEFINITION. State of the timebase, the auxiliary synthesizer and the frame generator beside their registers
(02_timebase.md, 03_frames_and_budgets.md). -/
namespace Sys2Proof.Machine

/-- The access path that carries a command or a register access (R397, R411, R539). -/
inductive Path where
  | p0 | p1 | mspi | jtag
  deriving DecidableEq, Repr

/-- The issuer of a register access: its path and its tenant; tenant 0 is the steward (R357, R375). -/
structure Who where
  path : Path
  tenant : Nat
  deriving DecidableEq, Repr

/-- The states of the TS (R48, Table 2-2). -/
inductive TsState where
  | off | qualify | check | search | acquire | locked | holdover
  deriving DecidableEq, Repr

/-- What took the TS out of LOCKED (R59, R61; R48 for a write of 0 to TS_EN). -/
inductive LossCause where
  | none | reference | lock | disabled
  deriving DecidableEq, Repr

/-- An UNGATE that waits for its tick: the lanes it lifts, and whether it lifts the CKO outputs too (R57). -/
structure Ungate where
  lanes : W256
  cko : Bool
  lc : Nat    -- lane cycle of its acceptance (R57)
  deriving DecidableEq, Repr

/-- The timebase synthesizer. -/
structure Timebase where
  ts : TsState            -- R48
  refOk : Bool            -- TB_STATUS.REF_OK (R45)
  anchored : Bool         -- a first edge has anchored the windows (R44, R45)
  activity : Nat          -- consecutive present edges counted (R45)
  missing : Nat           -- consecutive missing cycles (R51)
  expect : Nat            -- expected instant of the next edge, in drops of run time (R44)
  inWin : Nat             -- consecutive cycles inside the lock window (R49)
  outWin : Nat            -- consecutive cycles outside it (R50)
  firstLock : Bool        -- no lock declared since the start (R53)
  cold : Bool             -- the start was a cold start (R45, R48)
  fromStored : Bool       -- ACQUIRE was entered from a stored band (R52)
  acquireLc : Nat         -- lane cycle in which ACQUIRE was entered (R52)
  research : Bool         -- the band search in progress follows a stored band that failed (R52)
  cause : LossCause       -- what entered HOLDOVER (R61)
  frozenByLoss : Bool     -- time is frozen after a loss (TB_STATUS.HOLDOVER until t_R, R61)
  lastEpoch : Option W32  -- last epoch recorded in the journal (R53)
  ocxo : Bool             -- recognised level of OCXO_WARM (R46)
  warm : Bool             -- TB_STATUS.WARM in force (R46, R47)
  frameWarm : Bool        -- WARM when the current frame began (R47)
  prevWarm : Bool         -- WARM when the previous frame began (R47)
  ungates : List Ungate   -- waiting UNGATEs (R57)
  gateLc : Option Nat     -- lane cycle of the last write of TB_CTRL.GATE (R79)
  liftLc : Option Nat     -- lane cycle of the last tick at which an UNGATE took effect (R79)
  liftGate : Bool         -- TB_CTRL.GATE before that tick (R79)
  clockPhase : Nat        -- phase of the lane clock against the release, in TS VCO cycles modulo 16 (R64)
  tset : Bool             -- a forced time set waits (R66)
  syncPrev : Bool         -- SYNC as sampled at the previous REFIN edge (R62)
  syncT0 : Option Nat     -- lane cycle of T0 of a SYNC acted on (R64)
  gated : W256            -- TB_GATED: pulse lanes under timebase gating (R54, R56)
  ckoGated : BitVec 8     -- CKO outputs under timebase gating (R54)
  tickPending : Bool      -- a tick is due one lane cycle after lock (R53, R61)
  deriving DecidableEq, Repr

/-- The timebase after reset: OFF, every output gated (R48, R54; internal counts by log entry 1, DESIGN CHOICE). -/
def Timebase.reset : Timebase :=
  { ts := .off, refOk := false, anchored := false, activity := 0, missing := 0, expect := 0, inWin := 0, outWin := 0,
    firstLock := true, cold := true, fromStored := false, acquireLc := 0, research := false, cause := .none, frozenByLoss := false,
    lastEpoch := none, ocxo := false, warm := false, frameWarm := false, prevWarm := false, ungates := [],
    gateLc := none, liftLc := none, liftGate := false, clockPhase := 0, tset := false, syncPrev := false, syncT0 := none, gated := BitVec.allOnes 256, ckoGated := BitVec.allOnes 8,
    tickPending := false }

/-- What the AS is doing (R71, R72): nothing, a HOP or a SEARCH to a plan. -/
inductive AsWork where
  | idle
  | hop (plan : Nat)
  | search (plan : Nat) (fallback : Bool)
  deriving DecidableEq, Repr

/-- One CKO output: started, waiting for its start tick, and the settings in force (R74-R76). -/
structure Cko where
  started : Bool        -- it started, and runs until `stopAt` (R76)
  waiting : Bool
  div : Nat
  phase : Nat
  pol : Bool
  ratio : Nat           -- ratio of the plan it started on, in units of 2^-24 (R70)
  startAt : Nat         -- lane cycle of its last start tick
  restartAt : Nat       -- lane cycle in which its divider restarts: the whole lane cycles of the offset later (R75)
  fine : Nat            -- the remainder that the interpolator adds, in drops (R75)
  first : Nat           -- its first rising edge, in drops of run time (R76)
  stopAt : Option Nat   -- the end of the half-period after which it stops, in drops of run time (R76)
  sync : Option Nat     -- T0 of the SYNC that last restarted its divider, in drops of run time (R64)
  deriving DecidableEq, Repr

def Cko.reset : Cko :=
  { started := false, waiting := false, div := 0, phase := 0, pol := false, ratio := 0, startAt := 0, restartAt := 0, fine := 0,
    first := 0, stopAt := none, sync := none }

/-- The auxiliary synthesizer (R70-R77). -/
structure Synth where
  locked : Bool
  active : Nat
  work : AsWork
  relock : Bool         -- idle: relocking on the active plan after a loss of lock (R73); else lock was held when it began (R79)
  workLc : Nat          -- lane cycle in which the work in progress began (R72)
  modLc : Option Nat    -- lane cycle of the last restart of the fractional modulator (R64)
  ckos : Tbl Cko
  deriving DecidableEq, Repr

def Synth.reset : Synth := { locked := false, active := 0, work := .idle, relock := false, workLc := 0, modLc := none, ckos := [] }

/-- The frame generator (R80-R87, R101). -/
structure Frames where
  running : Bool        -- absolute time runs (R53, R59, R60)
  base : W64            -- absolute time at lane cycle `baseLc`; the frozen value while time is frozen
  baseLc : Nat
  count : Nat           -- frame counter, 48 bits (R82)
  start : W64           -- FR_START (R82)
  tickLc : Nat          -- lane cycle of the last tick
  period : Nat          -- P in force, lane cycles (R80)
  prevLen : Nat         -- length of the previous frame, lane cycles (R150)
  pend : Option Nat     -- period change waiting for its tick (R101)
  pendBy : Bool         -- the waiting change came from a PERIOD record
  flags : BitVec 8      -- header flags of the frame in progress (R83, R84, R86, R59; Table 11-8)
  ticks : Nat           -- ticks since the release
  deriving DecidableEq, Repr

/-- The frame generator after reset: frozen, period 320 (FR_PERIOD, FR_STATUS). -/
def Frames.reset : Frames :=
  { running := false, base := 0, baseLc := 0, count := 0, start := 0, tickLc := 0, period := 320, prevLen := 320,
    pend := none, pendBy := false, flags := 0, ticks := 0 }

end Sys2Proof.Machine
end

