-- ==== Sys2Proof/Machine/StLanes.lean ====
section
/-! DEFINITION. State of the pulse lanes, the stamp lanes and the frequency measurement beside their registers
(04_pulse_lanes.md, 05_stamp_lanes.md, 06_frequency_measurement.md). -/
namespace Sys2Proof.Machine

/-- The kind of a stored edge (Table 4-1). A PULSE-PAIR is stored as a RISE and a FALL (R105). -/
inductive EdgeKind where
  | rise | fall | toggle
  deriving DecidableEq, Repr

/-- The source of an entry (Table 4-1). -/
inductive EdgeSource where
  | direct | locked | segment
  deriving DecidableEq, Repr

/-- An edge entry as presented to a lane (Table 4-1): KIND 3 is a PULSE-PAIR of the given width. -/
structure EdgeEntry where
  time : W64
  width : Nat
  kind : Nat
  tag : Nat
  ctx : Nat
  source : EdgeSource
  deriving DecidableEq, Repr

/-- A stored entry: requested time, corrected time (R114), kind, tag, context, source, and whether it is the rise
(1) or the fall (2) of a PULSE-PAIR, or neither (0), with the requested time of the other half (R105, R109). -/
structure Stored where
  t : W64
  tint : W64
  kind : EdgeKind
  tag : Nat
  ctx : Nat
  source : EdgeSource
  pair : Nat
  mate : W64
  deriving DecidableEq, Repr

/-- A bank of pulse-lane calibration: OFS, and the correction table DELTA by position (R126, R127). -/
structure CalBank where
  ofs : BitVec 16
  delta : Tbl W8
  resid : Nat        -- LN_CAL_INFO of the bank: largest fit residual, 1/16 drop
  temp : Int         -- and cluster temperature when it was measured, 1/16 degrees C
  deriving DecidableEq, Repr

def CalBank.reset : CalBank := { ofs := 0, delta := [], resid := 0, temp := 0 }

/-- Why a lane waits for calibration, most urgent last (R128, R132, R155; log entry 37, DEDUCED). -/
inductive CalDue where
  | no | turn | temperature | now | spot
  deriving DecidableEq, Repr

/-- Calibration state of a lane (R126-R132, R153-R157). -/
structure CalState where
  valid : Bool
  stale : Bool
  busy : Bool
  full : Bool           -- the pass or visit in progress is a full one
  due : CalDue
  dueNo : Nat           -- the order in which lanes became due by CAL_NOW or a failed spot check (R128, R132)
  startLc : Nat         -- lane cycle in which the visit's shots or the pass began (R125, R126, R153)
  awaits : Bool         -- the visit waits for its pass on the stamp lane; the pass is that of a visit (R155)
  waits : Nat           -- shots of the visit that waited for a generator (R125)
  gen : Nat             -- generator of the next shot, 0-3 (R125)
  dueAfterLoad : Bool   -- an aborted visit is due again after CAL_LOAD (R130)
  swap : Bool           -- the shadow comes into force at the next tick (R127, R154)
  fitted : Bool         -- that shadow is a calibration's (R132)
  saveDue : Bool        -- the bank coming into force is to be journaled (R131, R157)
  saved : Option Nat    -- ticks at the last automatic save (R131, R157)
  deriving DecidableEq, Repr

def CalState.reset : CalState :=
  { valid := false, stale := false, busy := false, full := false, due := .no, dueNo := 0, startLc := 0, awaits := false,
    waits := 0, gen := 0, dueAfterLoad := false, swap := false, fitted := false,
    saveDue := false, saved := none }

/-- What truncates a pulse: the lane gate, timebase gating, or the safe state, which has counted it already (R55, R119,
R120). -/
inductive CutBy where
  | gate | timebase | safe
  deriving DecidableEq, Repr

/-- A truncation: the lane cycle at whose start L becomes inactive, and what it counts as. -/
structure Cut where
  lc : Nat
  cause : CutBy
  deriving DecidableEq, Repr

/-- A lane as a tick found it that lifted its gating: the lane cycle, the queue, the entries not yet corrected, L and the
trailing edge (R79). -/
structure Lifted where
  lc : Nat
  queue : List Stored
  correct : List (Nat × Stored)
  level : Bool
  trailing : Option W64
  deriving DecidableEq, Repr

/-- A pulse lane (04_pulse_lanes.md). -/
structure PulseLane where
  level : Bool                    -- L: active or inactive (R106)
  queue : List Stored             -- the edge queue, by requested time (R105, R115)
  gens : List Stored              -- entries loaded into the edge generators whose pin time is not reached (R114)
  direct : Option (Nat × EdgeEntry)   -- the direct slot, with the lane cycle it waits from (R107)
  directFree : Nat                -- lane cycle in which the port last took the direct slot's entry (R260)
  seg : Option (Nat × EdgeEntry)      -- the segment engine's pending entry (R107, R293)
  correct : List (Nat × Stored)   -- entries taken and not yet corrected, with the lane cycle that is due (R109)
  portFree : Nat                  -- first lane cycle at which the input port is free (R107)
  staged : List Stored            -- entries the open locked set gave the lane, in order; more than 16 fail it (R112)
  gateOpen : Bool                 -- the lane gate (R118)
  gateReqs : List (Nat × Bool)    -- gate requests waiting: due time in run drops, open (R34, R118)
  closedLc : Option Nat           -- lane cycle in which the gate last closed (R35)
  trailing : Option W64           -- requested time of the edge that may still end the pulse (R55, R119)
  cut : Option Cut                -- a truncation that waits for its lane-cycle boundary (R55, R119)
  lifted : Option Lifted          -- what the last lifting of gating flushed (R58, R79)
  ocDis : Bool                    -- LN_STATUS.OC_DIS (R124)
  rearm : Bool                    -- an OC_REARM waits for the tick (R124)
  stdNow : Nat                    -- LN_STATUS.STD_NOW (R123)
  polNow : Bool
  cfgPend : Bool                  -- LN_CFG.CFG_PEND (R123)
  lastT : Option W64              -- requested time of the last edge whose time was reached (R109)
  dropLog : List W32              -- LN_DROP_LOG, oldest first, at most 8 (R135)
  recs : Nat                      -- fault records sent in the frame (R111)
  fired : W64                     -- LN_FIRED
  bank : CalBank                  -- in force (R127)
  shadow : CalBank
  cal : CalState
  deriving DecidableEq, Repr

/-- A pulse lane after reset: inactive, gate closed, queues empty (R106, R118, R122; log entry 1, DESIGN CHOICE). -/
def PulseLane.reset : PulseLane :=
  { level := false, queue := [], gens := [], direct := none, directFree := 0, seg := none, correct := [], portFree := 0,
    staged := [], gateOpen := false, gateReqs := [], closedLc := none, trailing := none, cut := none, lifted := none, ocDis := false,
    rearm := false, stdNow := 0, polNow := false, cfgPend := false, lastT := none, dropLog := [], recs := 0,
    fired := 0, bank := CalBank.reset, shadow := CalBank.reset, cal := CalState.reset }

/-- A threshold setting: SL_THR's codes and hysteresis as one word (R137). -/
abbrev ThrWord := W32

/-- A threshold setting that waits: the setting, and whether a tick has passed since the first became pending
(R139). -/
structure ThrPend where
  thr : ThrWord
  tickPassed : Bool
  deriving DecidableEq, Repr

/-- A decoded stamp (R150-R152): frame, counted by the frame counter and from the release, and time; run time in drops at
the ball; flags. -/
structure StampTime where
  frame : Nat
  no : Nat
  time : Nat
  run : Int
  notWarm : Bool
  degraded : Bool
  ovf : Bool
  deriving DecidableEq, Repr

/-- A capture (R149, R150): leading or trailing; run time of the crossing; coarse count, VCO cycle and bin; the capture
frame, by the frame counter and from the release, its length of the frame before it in lane cycles, and WARM as the two
frames began; the coarse count had reached the period (R151); its trailing crossing was lost (R159); the time it was decoded
to, once the bank of its decode is no longer in force (R154). -/
structure Capture where
  trail : Bool
  t : Nat
  lc : Nat
  vc : Nat
  bin : Nat
  frame : Nat
  no : Nat
  prevLen : Nat
  warm : Bool
  prevWarm : Bool
  ovf : Bool
  lost : Bool
  dec : Option StampTime
  deriving DecidableEq, Repr

/-- A hit-queue entry: FRAME and the 64-bit record of Table 5-7; the frame counted from the release; and the run time, in
drops, at which the entry is in the queue (R162). -/
structure Hit where
  frame : BitVec 16
  word : W64
  no : Nat
  inq : Nat
  deriving DecidableEq, Repr

/-- A stamp lane (05_stamp_lanes.md). Times are run times: drops, or lane cycles where named lc. -/
structure StampLane where
  sA : Bool                     -- state of comparator A (R136)
  sB : Bool
  repA : Bool                   -- state last reported (R143)
  repB : Bool
  thrNow : ThrWord              -- SL_THR_NOW (R139)
  thrPend : Option ThrPend
  thrLc : Option Nat            -- lane cycle of the last accepted THR (R277)
  cfg : W32                     -- SL_CFG in force (R167)
  cfgPend : Bool
  blnk : W32                    -- SL_BLNK in force (R144)
  evcfg : W32                   -- SL_EVCFG in force (R163)
  evcfgAt : List (Nat × W32)    -- written values that come into force, oldest first: lane cycle, value
  trim : BitVec 16              -- SL_TRIM in force (R154)
  latchPend : List (Nat × Nat)  -- latch bits on their way: lane cycle in which they are set, bit (R141)
  laneBlank : Option (Nat × Nat)  -- start and end of the lane timer's interval, run drops (R142)
  frameBlank : Option (Nat × Nat) -- of the frame timer's interval
  oneShot : Option (Nat × Nat)  -- of the one-shot's interval
  oneShotAt : List Nat          -- lane cycles at which the requested one-shots start, earliest first
  frameAt : Option Nat          -- lane cycle at which the frame timer starts in this frame
  settling : Option (Nat × Nat) -- of the settling interval (R140)
  window : Option Nat           -- end of the open capture window, run drops; none: until the next tick (R145)
  windowFrom : Nat              -- and its start, run drops
  windowOpen : Bool
  held : Bool                   -- an event held for the capture consumer under ONCE (R349)
  presc : Nat                   -- prescaler count (R147)
  deadLead : Nat                -- end of the dead time of the leading unit, run drops (R149)
  deadTrail : Nat
  buf : List Capture            -- capture buffer, at most 4 (R149)
  pair : Option StampTime       -- pairing register (R158)
  skipTrail : Bool              -- the trailing crossing of a timed-out pair is not stamped (R159)
  queue : List Hit              -- hit queue, at most 256 (R160)
  enqFree : Nat                 -- run drops from which the queue accepts the next entry (R162)
  fwdFree : Nat                 -- run drops from which the forwarder may take the next entry (R162)
  ovfSent : Bool                -- a COARSE_OVERFLOW record was sent in the frame (R151)
  hits : W64                    -- SL_HIT
  bins : Tbl (BitVec 14)        -- bin table in force: edge[1..63] (R153, R154)
  binsSh : Tbl (BitVec 14)      -- shadow
  info : Nat × Int              -- SL_CAL_INFO of the bank in force: samples in units of 1,024, temperature in 1/16 degrees C
  infoSh : Nat × Int            -- and of the shadow
  cal : CalState
  frozen : Bool                 -- SL_STATUS.FROZEN (R146)
  deriving DecidableEq, Repr

/-- A stamp lane after reset: S = 0 (R136), registers at their reset values, queues empty (log entry 1, DESIGN CHOICE). -/
def StampLane.reset : StampLane :=
  { sA := false, sB := false, repA := false, repB := false, thrNow := 0, thrPend := none, thrLc := none,
    cfg := 0x2008, cfgPend := false, blnk := 0, evcfg := 0, evcfgAt := [], trim := 0, latchPend := [], laneBlank := none, frameBlank := none,
    oneShot := none, oneShotAt := [], frameAt := none, settling := none, window := none, windowFrom := 0, windowOpen := false,
    held := false, presc := 0, deadLead := 0, deadTrail := 0, buf := [], pair := none,
    skipTrail := false, queue := [], enqFree := 0, fwdFree := 0, ovfSent := false, hits := 0,
    bins := [], binsSh := [], info := (0, 0), infoSh := (0, 0), cal := CalState.reset, frozen := false }

/-- An entry of a lane's measurement tap: index, time in drops from the gate's start tick, flags (R172). -/
structure TapEntry where
  j : Nat
  t : Nat
  ovf : Bool
  degraded : Bool
  deriving DecidableEq, Repr

/-- The sums and flags of one gate (R171, R179, R181, R183). -/
structure Gate where
  start : Nat             -- run time of the start tick, drops
  startLc : Nat
  k : Nat                 -- PRESC in force for the gate (R173)
  space : Nat             -- RG_CFG.SPACE of the gate (R172, R178)
  j : Nat                 -- next candidate index (R171)
  accepted : Nat          -- candidates accepted (R172)
  last : Option Nat       -- time of the candidate last accepted, drops from the start tick
  s0 : Nat
  s1 : Nat
  s2 : Nat
  st : Nat
  snt : Nat
  stt : Nat
  cause : Nat             -- first cause of Table 6-1 but FEW: 0 none, 1 OVERFLOW, 2 EPOCH
  notWarm : Bool
  degraded : Bool
  slew : Bool
  dest : Bool             -- RG_CFG.DEST in use (R178, R184)
  tap : List TapEntry     -- the tap buffer, at most 32 (R170)
  deriving DecidableEq, Repr

def Gate.empty : Gate :=
  { start := 0, startLc := 0, k := 0, space := 1, j := 0, accepted := 0, last := none, s0 := 0, s1 := 0, s2 := 0, st := 0,
    snt := 0, stt := 0, cause := 0, notWarm := false, degraded := false, slew := false, dest := false, tap := [] }

/-- What a lane's measurement is doing (R174, R176; the gate state bits of RG_STATUS). -/
inductive GateState where
  | idle | waitTick | waitEvent | running
  deriving DecidableEq, Repr

/-- The measurement of one stamp lane (06_frequency_measurement.md). -/
structure Measure where
  state : GateState
  mode : Nat                          -- RG_CFG.MODE in use (R174, R178)
  frames : Nat                        -- G in use
  left : Nat                          -- frames left of the running gate
  gate : Gate
  cands : List (Capture × Bool)       -- candidates not yet decoded, oldest first; stamped (R171, R172; Table 5-4)
  finish : List (Gate × Nat × Nat)    -- closed gates being finished, their closing and ready lane cycles (R180)
  waitFrom : Nat                      -- first lane cycle whose tick can start the waiting gate (R174)
  slotAt : Nat                        -- first lane cycle in which the engine may take entries again (R170)
  again : Bool                        -- CONTINUOUS or EVENT: gates go on until a STOP (R174, R176)
  held : Bool                         -- an event held for the consumer under ONCE (R175)
  seq : Nat                           -- RG_RESULT.SEQ (R180)
  startLc : Option (Nat × Nat)        -- lane cycle and context of the last MEAS start (R279)
  stopLc : Option Nat                 -- lane cycle of the last write of RG_CTRL.STOP (R279)
  words : List W64                    -- W0-W4 of the result in the registers (R184)
  deriving DecidableEq, Repr

def Measure.reset : Measure :=
  { state := .idle, mode := 0, frames := 1, left := 0, gate := Gate.empty, cands := [], finish := [], waitFrom := 0, slotAt := 0, again := false,
    held := false, seq := 0, startLc := none, stopLc := none, words := [0, 0, 0, 0, 0] }

end Sys2Proof.Machine
end

