-- ==== Sys2Proof/Machine/StSeq.lean ====
section
/-! DEFINITION. State of the clusters: sequencers, contexts, memories, segment engines (07_enxia_programming_model.md,
08_enxia_reference_core.md, 09_enxia_reference_timing.md, 10_segments.md). -/
namespace Sys2Proof.Machine

/-- The states of a context (R189, Table 7-1). -/
inductive CtxState where
  | free | stopped | ready | running | waiting | preempted | halted | ended | faulted
  deriving DecidableEq, Repr

/-- An event delivered to a WAIT consumer: NOW of its lane cycle, or a trigger's time and code (R268). -/
structure Delivery where
  time : W64
  code : Option (BitVec 16)
  deriving DecidableEq, Repr

/-- The WAIT consumer of a context (R266): subject (a name of Table 9-4), pending event, overrun flag. -/
structure WaitCon where
  subject : Option Nat
  pending : Option Delivery
  overrun : Bool
  deriving DecidableEq, Repr

/-- What a WAITING context waits with: where the delivery goes, and the timeout (R267-R269). -/
structure WaitInfo where
  d : Nat
  ge : Nat
  c : Bool                 -- C to be written at the wake: the overrun flag read at issue (R267)
  timeout : Option Nat     -- the lane cycle in which the timeout's wake falls (R269)
  deriving DecidableEq, Repr

/-- A program record of one or two words in a context's buffer (R282, R283). -/
structure ProgRec where
  stream : Nat
  frame : Nat
  w0 : W64
  w1 : Option W64
  base : W64       -- start of the frame
  deriving DecidableEq, Repr

/-- A post slot of the service unit (R251). -/
structure Post where
  ticket : Nat
  message : W32
  reply : Option W32
  deriving DecidableEq, Repr

/-- The flags Z, N, C, V (R193); E is whether an event is pending, L is kept beside them. -/
structure Flags where
  z : Bool
  n : Bool
  c : Bool
  v : Bool
  deriving DecidableEq, Repr

def Flags.clear : Flags := { z := false, n := false, c := false, v := false }

/-- The registers a context computes with (R191). -/
structure Regs where
  g : Tbl W32              -- g0-g31 (R192)
  t : Tbl W64              -- t0-t7
  flags : Flags
  rstk : List (BitVec 13)  -- return stack, top first, at most 8 (R195)
  deriving DecidableEq, Repr

def Regs.reset : Regs := { g := [], t := [], flags := Flags.clear, rstk := [] }

/-- The rights of a context before a change that waits for its lock to end (R207): the words of its tenant's record, and the
descriptors held for the tenant in its cluster. -/
structure Kept where
  caps : Tbl W32
  descs : List Nat
  deriving DecidableEq, Repr

/-- One context (R188-R191, Table 7-2) with its context-table entry and its consumer. -/
structure Ctx where
  state : CtxState
  cls : Nat                -- class while READY or RUNNING (R201)
  l : Bool                 -- flag L (R193)
  pc : BitVec 13
  r : Regs
  cfg : W32                -- SQ_CTX_CFG in force
  iwin : W32
  dwin : W32
  entry : W32
  bud : Nat                -- admitted budget, granules (SQ_CTX_BUD)
  next : Option (W32 × W32 × W32)  -- CFG, IWIN, DWIN that wait for the lock to end (R207)
  rem : Nat                -- remaining budget, cycles (R94)
  fault : W32              -- SQ_CTX_FAULT
  ret : W64                -- SQ_CTX_RET
  dbg : W32                -- SQ_CTX_DBG
  lockBrk : Bool
  bpHit : Bool
  bpPend : Bool            -- a breakpoint met inside a lock waits for UNLOCK (R222)
  stepped : Bool
  haltPend : Bool
  stopPend : Bool          -- a STOP waits for UNLOCK (R190)
  startPend : Bool         -- a START waits for its tick (R190)
  autoStart : Bool         -- the waiting START is that of R218, due after READY
  stepping : Bool          -- one instruction runs, then HALTED (R221)
  bpSkip : Bool            -- the next issue does not halt at BPADDR (R222)
  exhausted : Bool         -- BUDGET_EXHAUSTED was counted in this frame (R97)
  suspHalt : Bool         -- halted by a suspension (R378)
  keep : Option Kept       -- rights before a change that waits for the lock to end (R207)
  readyAt : Nat            -- first sequencer cycle at which its first instruction after a wake may issue (R204, R205)
  metAt : Nat              -- cycle at which the WAIT condition was met (Table 7-5)
  qStart : Nat             -- first cycle of the switch-in (R202)
  con : WaitCon
  wait : Option WaitInfo
  recs : List ProgRec      -- record buffer, at most 8 words (R283)
  post : Option Post
  ticket : Option Nat      -- last ticket given (R251)
  deriving DecidableEq, Repr

/-- A context after reset: FREE, every item 0 or empty (R189, R191). -/
def Ctx.reset : Ctx :=
  { state := .free, cls := 2, l := false, pc := 0, r := Regs.reset, cfg := 0, iwin := 0, dwin := 0, entry := 0, bud := 0,
    next := none, rem := 0, fault := 0, ret := 0, dbg := 0, lockBrk := false, bpHit := false, bpPend := false, stepped := false,
    haltPend := false, stopPend := false, startPend := false, autoStart := false, stepping := false, bpSkip := false,
    exhausted := false, suspHalt := false, keep := none, readyAt := 0, metAt := 0, qStart := 0,
    con := { subject := none, pending := none, overrun := false }, wait := none, recs := [], post := none,
    ticket := none }

/-- A lock held in a cluster: its context, n, the instructions retired since, and the checkpoint of R213, R245. -/
structure LockInfo where
  ctx : Nat
  n : Nat
  count : Nat
  pc : BitVec 13
  saved : Regs
  deriving DecidableEq, Repr

/-- A word of data memory as it was before a TST: the sequencer cycle of the write, the word's number, its value, and whether
it was uncorrectable (R238). -/
structure OldWord where
  cyc : Nat
  word : Nat
  value : W64
  bad : Bool
  deriving DecidableEq, Repr

/-- The sequencer and the memories of a cluster. -/
structure Cluster where
  run : Option Nat         -- context holding the sequencer, 0-63
  next : Nat               -- first sequencer cycle at which it may issue (R228)
  hold : Option (Nat × Nat)  -- a held instruction: its issue cycle, and the cycle up to which it is charged and judged (R202)
  lock : Option LockInfo
  last2 : Nat              -- class-2 context last served (Table 7-5)
  held : Nat               -- cycles of the frame that a context held (R93)
  imem : Tbl W32           -- instruction memory, by word (R196)
  dmem : Tbl W64           -- data memory, by 8-byte word (R197, R237)
  imemBad : List Nat       -- words of instruction memory with an uncorrectable error (R199, R532)
  dmemBad : List Nat
  pools : Tbl Nat          -- share pools, cycles left, by SHARE (R99)
  fwdLast : Nat            -- source last served by the forwarder: lane 0-15, or 16 for program records (R162)
  recLast : Nat            -- context last served by the program-record turn (R283)
  recHalf : Option (Nat × W64)  -- context and W1 of a record whose first word has left (R283)
  temp : Int               -- cluster temperature, 1/16 degrees C (REQ TEMP, R250)
  vdd : Int                -- VDD_LANE reading (R536)
  phase : Int              -- phase-monitor reading (R536)
  graded : Bool            -- both monitors have been read since reset
  sgLast : Nat             -- lane last served by the segment engine (R292)
  sgAt : Nat               -- first sequencer cycle at which the engine may read again (R292)
  stored : Option OldWord  -- what the last TST replaced (R238)
  fwdAt : Nat              -- first lane cycle in which the forwarder may take its next record (R162)
  deriving DecidableEq, Repr

/-- A cluster after reset: no context runs, memories cleared (R191, R469; log entry 1, DESIGN CHOICE). -/
def Cluster.reset : Cluster :=
  { run := none, next := 0, hold := none, lock := none, last2 := 63, held := 0, imem := [], dmem := [],
    imemBad := [], dmemBad := [], pools := [], fwdLast := 16, recLast := 63, recHalf := none,
    temp := 0, vdd := 0, phase := 0, graded := false, sgLast := 15, sgAt := 0, stored := none, fwdAt := 0 }

/-- A fetched segment entry in a lane's prefetch buffer: index in the pass, TIME, KIND, WIDTH, TAG, and the lane cycle
from which it can be presented (R289, R292). -/
structure SegEntry where
  idx : Nat
  e : EdgeEntry
  fromLc : Nat
  deriving DecidableEq, Repr

/-- The segment playback of a pulse lane (R288-R300). -/
structure Playback where
  play : Bool
  ctx : Nat                  -- issuing context (R288)
  desc : Nat                 -- descriptor of the pass
  base : W64                 -- base of the pass (R289)
  addr : Nat                 -- ADDR and COUNT as read at the start of the pass (R291)
  cnt : Nat
  len : Nat                  -- LEN, and NEXT where CHAIN is 1, as read at the start of the pass (R289, R291)
  chain : Option Nat
  left : Nat                 -- passes of the descriptor left after this one
  endless : Bool             -- LOOPS is 0
  fetched : Nat              -- entries of the pass fetched
  taken : Nat                -- entries of the pass taken by the port
  buf : List SegEntry        -- prefetch buffer, at most 4
  jump : Option Nat          -- pending jump (R296)
  jumpAt : List (Nat × Nat)  -- jumps to record: lane cycle, target, oldest first (R296)
  stopAt : Option Nat        -- lane cycle at which a stop takes effect (R297)
  bound : Option Nat         -- lane cycle of the boundary whose last entry the port is taking (R290)
  idleAt : Nat               -- first sequencer cycle from which a start is accepted (R298)
  deriving DecidableEq, Repr

def Playback.reset : Playback :=
  { play := false, ctx := 0, desc := 0, base := 0, addr := 0, cnt := 0, len := 0, chain := none, left := 0,
    endless := false, fetched := 0, taken := 0, buf := [], jump := none, jumpAt := [], stopAt := none, bound := none,
    idleAt := 0 }

end Sys2Proof.Machine
end

