-- ==== Sys2Proof/Machine/StSep.lean ====
section
/-! DEFINITION. State of the Separator beside its registers (11_separator.md). -/
namespace Sys2Proof.Machine

/-- A record on its way to the Separator or waiting in it: the tenant to whose stream it is addressed, the stream
where a REC names one (otherwise the tenant's home stream, R305), its frame and words, and the chain position of the
device that produced it (R304-R308, R320). The frame is counted in ticks since the release, so that a load of the frame
counter makes no two frames one; in an upstream packet it is the frame number. -/
structure SpRec where
  tenant : Nat
  stream : Option Nat
  frame : Nat
  words : List W64
  pos : Nat
  base : W64 := 0     -- start of that frame, for program records (Table 11-4)
  cl : Option Nat := none  -- the cluster whose input queue it crosses (Table 14-11)
  deriving DecidableEq, Repr

/-- What an entry of the key area holds (R362): key, reservation, key-valid bit. -/
structure KeyEntry where
  key : W128
  resv : Nat
  valid : Bool
  deriving DecidableEq, Repr

def KeyEntry.reset : KeyEntry := { key := 0, resv := 0, valid := false }

/-- An entry of the trigger list (R314): time, source of Table 11-4, code, issuing tenant of a program trigger, input
of an event trigger with its channel; whether its trigger records are written, or never will be (R318). -/
structure Trig where
  done : Bool
  time : W64
  src : Nat
  code : BitVec 16
  tenant : Nat
  input : Nat
  chan : Nat
  deriving DecidableEq, Repr

/-- A frame not yet sealed: its number, epoch and start, the lane cycle and the absolute time of its closing tick once
closed, the windows and keys in force at the tick that began it, and the packet flags known of it (R310, R316, R366,
Table 11-8). -/
structure OpenFrame where
  frame : Nat
  no : Nat         -- ticks since the release at the tick that began it
  gen : Nat        -- loads of the time up to that tick
  epoch : W32
  start : W64
  closed : Option Nat
  stop : W64
  wins : Tbl W32
  keys : Tbl W64   -- the key area
  flags : Nat
  digest : W32     -- H3 prefix: of the digest in force at the frame's tick (R437)
  deriving DecidableEq, Repr

/-- A packet of a sealed frame: what R325 and R327 put in it, the owner's key, the RESUME record. While `rdy` is false it
waits for the upstream part, at most to lane cycle `waitLc`; then it may go from `readyLc`, or from the next tick where
`hold` (R311, R312, R323). `hb` makes it a heartbeat; `hbFlag` that an upstream heartbeat had FLAG set. -/
structure Packet where
  stream : Nat
  frame : Nat
  no : Nat
  gen : Nat
  epoch : W32
  digest : W32
  flags : Nat
  loss : Nat
  srcmap : Nat
  recs : List SpRec
  key : KeyEntry
  resume : Option (Nat × Nat × Nat)
  hb : Bool
  hbFlag : Bool
  rdy : Bool
  hold : Bool
  readyLc : Nat
  waitLc : Nat
  deriving DecidableEq, Repr

/-- A packet as sent: the words from H0 to T0, after any encryption (R330, R334). -/
structure Sent where
  frame : Nat
  words : List W64
  deriving DecidableEq, Repr

/-- One stream (R304, R333-R337). -/
structure Stream where
  loss : Nat                          -- loss count since the previous packet (R337)
  recs : List SpRec                   -- waiting records, in order of arrival (R320)
  queue : List Packet                 -- packets built and not sent, oldest first
  replays : List Sent                 -- packets queued by REPLAY, ahead of the queue (R334)
  window : List Sent                  -- replay window, oldest first, at most 64
  deficit : Nat                       -- R333
  undeliv : Option (Nat × Nat × Nat)  -- undelivered packets: count, first and last frame (R335)
  promised : Bool                     -- a packet of the queue carries the RESUME of these (R335)
  resuming : Option (Nat × Nat × Nat) -- the RESUME of the packet started last, which is not whole yet (R335)
  lastUp : Option (Nat × Nat)         -- newest frame of an upstream item of the stream, with its load (R323)
  lastSent : Option (Nat × Nat)       -- frame of the packet or heartbeat started last, with its load (R324)
  ended : List Packet                 -- the last 64 frames decided without a packet (R324)
  newKey : Option Nat                 -- first frame under the owner's present key (R366)
  deriving DecidableEq, Repr

def Stream.reset : Stream :=
  { loss := 0, recs := [], queue := [], replays := [], window := [], deficit := 0, undeliv := none, promised := false,
    resuming := none, lastUp := none, lastSent := none, ended := [], newKey := none }

/-- An upstream packet held for merging (R323-R325). -/
structure UpPacket where
  stream : Nat
  frame : Nat
  gen : Nat        -- the load of the time after which this device has that frame (R323)
  epoch : W32
  flags : Nat
  loss : Nat
  srcmap : Nat
  recs : List SpRec
  hb : Bool
  hbFlag : Bool
  deriving DecidableEq, Repr

/-- The Separator. -/
structure Sep where
  inbound : List SpRec          -- records on their way from forwarders and own units
  later : List SpRec            -- fault records of frozen time, for the first frame after relock (R525)
  frames : List OpenFrame       -- open frames, oldest first (R310)
  sealedTo : Option Nat         -- number of the newest sealed frame
  sealedEnd : W64               -- absolute time at which it ended (R317)
  trigs : List Trig             -- trigger list, in order of entry, at most 1,024 (R314)
  trigLoss : Bool               -- packets of the next frame sealed carry TRIG_LOSS (R315)
  lateTrig : List Nat           -- tenants whose packets of the next frame sealed carry LATE_TRIG (R317)
  upBad : Bool                  -- packets of the next frame sent carry UP_BAD (R324)
  streams : Tbl Stream
  up : List UpPacket            -- chain input area (R336)
  upEnd : Option (Nat × Nat)    -- newest frame a frame-end word named, with its load (R323)
  ends : List (Nat × Nat)       -- sealed frames whose frame-end word has not left, oldest first: tick and number (R322)
  gen : Nat                     -- loads of absolute time and of the frame counter since the release (R53, R64, R66)
  last : Tbl Nat                -- stream last served by each port (R333)
  missed : List (Nat × Nat)     -- frames whose WAIT has passed, each with its load (R323)
  xoff0 : Bool                  -- pins (R338, R339)
  xoff1 : Bool
  xoffOut : Bool
  xoffIn : Bool
  sendStop : Bool               -- sending on P3 downstream stopped by CH_XOFF_IN (R339)
  deriving DecidableEq, Repr

/-- The Separator after reset: empty, pins low (R338; log entry 1, DESIGN CHOICE). -/
def Sep.reset : Sep :=
  { inbound := [], later := [], frames := [], sealedTo := none, sealedEnd := 0, trigs := [], trigLoss := false, lateTrig := [],
    upBad := false, streams := [], up := [], upEnd := none, ends := [], gen := 0, last := [], missed := [], xoff0 := false,
    xoff1 := false, xoffOut := false, xoffIn := false, sendStop := false }

end Sys2Proof.Machine
end

