-- ==== Sys2Proof/Machine/StTen.lean ====
section
/-! DEFINITION. State of event routing, of the tenant unit and of the ports beside their registers
(12_milkline_events.md, 13_tenants_and_isolation.md, 14_ports.md). -/
namespace Sys2Proof.Machine

/-- A command frame as it arrives on a port: the path that carries it and its words from W0 to T1 (Table 14-5). -/
structure CmdFrame where
  path : Path
  words : List W64
  deriving DecidableEq, Repr

/-- A request to enable or disable a channel or a group, with the lane cycle at which it takes effect (R347). Channels
0-255 are the Milkline's, 256 + 32c + i is channel i of cluster c; groups are 2048 + g. -/
structure EnReq where
  due : Nat
  obj : Nat
  on : Bool
  deriving DecidableEq, Repr

/-- An assertion of a producer: its lane cycle, the lane cycle in which its event begins on a cluster channel, its code of
Table 12-1, and for SIG the one channel it names (R271, R345). -/
structure Signal where
  lc : Nat
  clusLc : Nat
  code : Nat
  only : Option Nat
  deriving DecidableEq, Repr

/-- Event routing. -/
structure Ev where
  asserted : List (Nat × Nat)   -- events under way: lane cycle of the assertion, channel numbered as in EnReq (R344)
  signals : List Signal         -- assertions of this lane cycle and of later ones (R355)
  lastEv : Tbl Nat              -- lane cycle of the latest event of each channel, plus 1 (R344)
  reqs : List EnReq
  pendW : List (Nat × Nat × W32)  -- written CL_LEVn and EV_ADC_SEL: lane cycle of effect, address, value (R350)
  deriving DecidableEq, Repr

def Ev.reset : Ev := { asserted := [], signals := [], lastEv := [], reqs := [], pendW := [] }

/-- The states of a tenant (Table 13-1). -/
inductive TenState where
  | absent | active | suspended
  deriving DecidableEq, Repr

/-- A tenant (R356-R380): state, record in force by word (R358), grants that are still the previous ones while a clearing
runs (R373: by word of the record), counter LAST (R368), its TN_SEL, the kept status of the command
accepted with LAST (R403), and whether its REPLAY record of the frame is sent (R371). -/
structure Tenant where
  state : TenState
  caps : Tbl W32
  held : Tbl W32
  leaving : Option Nat        -- a removal is in progress: the frame that began at its tick (R380)
  last : Nat
  sel : W32
  status : Option (Nat × Nat)
  replaySent : Bool
  afail : W32                 -- TN_T_AFAIL, TN_T_REPLAY
  replays : W32
  deriving DecidableEq, Repr

def Tenant.reset : Tenant :=
  { state := .absent, caps := [], held := [], leaving := none, last := 0, sel := 0, status := none, replaySent := false,
    afail := 0, replays := 0 }

/-- What a key-area write in progress writes (R364, R365, R369, R380). -/
inductive KeyWrite where
  | init (key : W128)
  | set (tenant : Nat) (key : W128)
  | resv (tenant : Nat) (value : Nat)
  | erase (tenant : Nat)
  deriving DecidableEq, Repr

/-- A key-area write with the lane cycle at which it completes, and the path whose command waits for it (R425). -/
structure KeyJob where
  write : KeyWrite
  due : Nat
  path : Option Path
  deriving DecidableEq, Repr

/-- Words being cleared: the tenant they left, cluster, whether of data memory, first word and count, and the lane cycle of
completion (R373). -/
structure Clearing where
  owner : Nat
  cluster : Nat
  data : Bool
  first : Nat
  count : Nat
  due : Nat
  deriving DecidableEq, Repr

/-- The tenant unit. -/
structure TenUnit where
  tens : Tbl Tenant
  keys : Tbl W64              -- the key area of the MRAM, by 8-byte word: four for each tenant (R362)
  ver : Tbl Nat               -- by path, one more than the lane cycle in which its engine last finished a command (R370)
  jobs : List KeyJob
  clearing : List Clearing
  zeroMark : Bool             -- the zeroise-pending mark of the control area (R381)
  zeroising : Bool
  failLog : List W32          -- TN_FAIL_LOG, oldest first, at most 16
  afailSent : Bool            -- the frame's AUTH_FAIL and REPLAY records to the steward (R371)
  replaySent : Bool
  rekeyed : List Nat          -- tenants whose new key reaches their streams at the next tick (R366)
  deriving DecidableEq, Repr

def TenUnit.reset : TenUnit :=
  { tens := [], keys := [], ver := [], jobs := [], clearing := [], zeroMark := false, zeroising := false, failLog := [],
    afailSent := false, replaySent := false, rekeyed := [] }

/-- A command being executed on a path: its words, the records it waits for, and what its response will say
(R397, R401, R430). -/
structure Running where
  words : List W64
  waits : List Nat
  keyWait : Bool              -- waits for a key-area write before it acts or answers (R366, R369)
  acted : Bool                -- it has passed step 8; only its acknowledgement is open
  status : Nat
  payload : List W64
  deriving DecidableEq, Repr

/-- What a port is sending (R395, R396). -/
inductive Sending where
  | packet (stream frame : Nat)
  | item          -- a heartbeat or a frame-end word
  | response
  | other         -- HELLO, PAUSE
  deriving DecidableEq, Repr

/-- P0, P1 or P3 (R386-R404). Times are lane cycles. -/
structure Port where
  lock : Bool                 -- block lock
  hiber : Bool
  lf : Bool                   -- local, remote fault in the last 128 blocks
  rf : Bool
  helloOk : Bool
  up : Bool
  linkup : Nat                -- LINKUP of PT_Pn_SESS (R394)
  helloAt : Nat               -- last HELLO received
  helloDue : Nat              -- next HELLO to send
  pausedTo : Option Nat       -- end of the partner's pause (R391)
  xoff : Bool                 -- the TQ-512 is pausing the partner (R392)
  xoffAt : Nat                -- last PAUSE sent
  buf : List (List W64)       -- command buffer: whole commands waiting (R392, R397)
  run : Option Running
  resps : List (List W64)     -- responses built and not sent
  lseqTx : Nat
  lseqRx : Nat
  part : Option (List W64)    -- an upstream item received in part (R390)
  sending : Option (Sending × Nat)  -- what is being sent, and when its last block leaves
  txFree : Nat                -- first lane cycle at which a frame may start
  rest : List W64             -- words of the item under way that a pause or CH_XOFF_IN left for a further frame (R391, R405)
  tx : List W64               -- body of the link frame sent last
  deriving DecidableEq, Repr

def Port.reset : Port :=
  { lock := false, hiber := false, lf := false, rf := false, helloOk := false, up := false, linkup := 0, helloAt := 0,
    helloDue := 0, pausedTo := none, xoff := false, xoffAt := 0, buf := [], run := none, resps := [], lseqTx := 0,
    lseqRx := 0, part := none, sending := none, txFree := 0, rest := [], tx := [] }

/-- The TTC receiver (R406-R410). -/
structure Ttc where
  lock : Bool
  phase : Nat
  matched : Bool              -- the last mark received was matched (R409)
  ticks : Nat                 -- frame ticks since that mark
  past : List (Nat × Nat)     -- the ticks that a mark can still be compared with: frame number, lane cycle (R409)
  release : List (Nat × W64 × BitVec 16)   -- trigger words: lane cycle of release, TIME, CODE (R408)
  bcast : List (Nat × W64 × BitVec 16)    -- released words on their way to the responders, with the lane cycle they meet a WAIT (R36)
  bc : List W32               -- PT_TTC_BC, oldest first, at most 16
  deriving DecidableEq, Repr

def Ttc.reset : Ttc := { lock := false, phase := 0, matched := false, ticks := 0, past := [], release := [], bcast := [], bc := [] }

/-- The MSPI (R411-R413): buffered register words by offset, the keeper edge of the next application, the command taken,
the response ready, the bytes returned last. -/
structure Mspi where
  wbuf : List (Nat × W32)
  applyAt : Nat
  cmdBusy : Bool
  cmd : Option (List W64)
  run : Option Running
  rsp : Option (List W64)
  out : List W32
  deriving DecidableEq, Repr

def Mspi.reset : Mspi :=
  { wbuf := [], applyAt := 0, cmdBusy := false, cmd := none, run := none, rsp := none, out := [] }

/-- The JTAG port (R414, R415, R484, R485): instruction, boundary register, bypass bit, the word last captured or shifted
out, and scan: mode, chain selected, the chains' contents. -/
structure Jtag where
  ir : W8
  boundary : BitVec 540
  out : BitVec 540
  scanMode : Bool
  chain : Nat
  chains : Tbl W64
  deriving DecidableEq, Repr

/-- JTAG after reset: IDCODE is selected after Test-Logic-Reset (Table 14-10; log entry 1, DESIGN CHOICE). -/
def Jtag.reset : Jtag := { ir := 0x02, boundary := 0, out := 0, scanMode := false, chain := 0, chains := [] }

end Sys2Proof.Machine
end

