-- ==== Sys2Proof/Machine/StArgs.lean ====
section
/-! DEFINITION. The operands of the commands that are more than a number: what a measurement of the analog part brought
(log entry 5, DESIGN CHOICE), a link frame as received, and the places a command can come from. -/
namespace Sys2Proof.Machine

/-- What a pulse-lane calibration measured (R126): the mean captured position of the shots at each code 0-1023, in
1/16 drop (the unit of LN_CAL_INFO.RESID), and the mean loopback delay, in drops. -/
structure PulseCal where
  pos : List Int
  delay : Int
  deriving DecidableEq, Repr

/-- What a code-density pass counted, by bin 0-63 (R153). -/
structure StampCal where
  counts : List Nat
  deriving DecidableEq, Repr

/-- A link frame as received (R388): its header fields, body words and FCS, and whether it was free of unknown and error
blocks and terminated after exactly NWORDS data blocks (R389). -/
structure LinkFrame where
  kind : Nat
  flags : Nat
  nwords : Nat
  lseq : Nat
  body : List W64
  fcs : W32
  clean : Bool
  deriving DecidableEq, Repr

/-- Why the receive side of a port loses a condition of UP (R393, R395). -/
inductive DownCause where
  | blockLock | highBer | localFault | remoteFault
  deriving DecidableEq, Repr

/-- Where an UNGATE or a COMPACT comes from: a command, a register write, or, for a compaction, the fill threshold
(R57, R440). -/
inductive CmdSrc where
  | command (f : CmdFrame)
  | register (who : Who)
  | threshold
  deriving DecidableEq, Repr

/-- Where a command on a context comes from (Table 7-9): a command frame, or SQ_CTX_CTRL of context x. -/
inductive CtxSrc where
  | command (f : CmdFrame)
  | register (who : Who) (x : Nat)
  deriving DecidableEq, Repr

/-- The path of a write to a Byre register: the mirror, or the MSPI (R476, R477). -/
inductive ByPath where
  | mirror (who : Who)
  | mspi
  deriving DecidableEq, Repr

/-- How the blocks of a slice of logic BIST ended (R495): all signatures matched, the first block that differed, or an
uncorrectable error of the save RAM at the restore. -/
inductive BistVerdict where
  | pass
  | signature (block : Nat)
  | restore
  deriving DecidableEq, Repr

/-- What an item of the analog self-test measured (R500): for each value its index within the item and its deviation in
the units of ST_AST_LOG, and for item 1 whether the AS locked within 60 microseconds. -/
structure AstResult where
  values : List (Nat × Int)
  locked : Bool
  deriving DecidableEq, Repr

/-- What executing a command answers: STATUS, payload, the records it waits for, and whether it waits for something else
before its response is built (R401, R430, R366, R481, R502). -/
structure CmdResult where
  code : Nat
  payload : List W64
  waits : List Nat
  wait : Bool
  deriving DecidableEq, Repr

/-- The class of a memory read (R532). -/
inductive EccKind where
  | clean | data | checkbit | multi
  deriving DecidableEq, Repr

end Sys2Proof.Machine
end

