-- ==== Sys2Proof/Syntax.lean ====
section
/-! DEFINITION. The commands of the block: one constructor per row of spec/opcode_table.json, with the row's operands.
The rows are the steps of the part (95_what_each_step_holds.md): register accesses, commands, instructions of the
clusters, and events of the clocks, pins and analog units. Commands without operands come last (the order carries no
meaning). Lanes k are numbered device-wide (R25), clusters c from 0 to 31, contexts x from 0 to 2,047 (R188). -/
namespace Sys2Proof

open Sys2Proof.Machine

/-- A command of the block. -/
inductive Instr where
  /-- REF_EDGE: A reference edge arrives in its window; the TS counts activity and compares phase. (R44) -/
  | refEdge (err : Int)
  /-- FREQUENCY_CHECK_DONE: The VCO-to-reference ratio measured over 1,024 cycles passes or fails. (R45) -/
  | frequencyCheckDone (pass : Bool)
  /-- BAND_SEARCH_DONE: A TS band search completes and stores its band. (R52) -/
  | bandSearchDone (band : Nat)
  /-- OCXO_WARM: A new OCXO_WARM level stable for 1,024 lane cycles is recognised. (R46) -/
  | ocxoWarm (level : Bool)
  /-- REFSEL_WRITE: A change of TB_CTRL.REFSEL outside OFF acts as a loss of reference. (R43) -/
  | refselWrite (who : Who) (sel : Nat)
  /-- TS_EN_WRITE: A write of TB_CTRL.TS_EN starts or stops the TS. (R48) -/
  | tsEnWrite (who : Who) (en : Bool)
  /-- TB_CTRL_GATE: A write of 1 to TB_CTRL.GATE starts timebase gating. (R54) -/
  | tbCtrlGate (who : Who)
  /-- UNGATE: An UNGATE, by command or TB_CTRL.UNGATE, is accepted or refused and waits for the next tick. (R57) -/
  | ungate (src : CmdSrc)
  /-- TSET: A write of 1 to TB_CTRL.TSET requests a forced time set at the next tick, or is refused. (R66) -/
  | tset (who : Who)
  /-- TB_FOFS_WRITE: A write of TB_FOFS sets the target offset or is rejected out of range. (R68) -/
  | tbFofsWrite (who : Who) (v : W32)
  /-- SYNC_EVENT: A SYNC event at a REFIN edge is acted on under ARM, compared under CHECK, or refused. (R62) -/
  | syncEvent (level : Bool) (offs : Nat)
  /-- AS_SEARCH: A write of AS_CTRL.SEARCH band-searches a plan and makes it active. (R71) -/
  | asSearch (who : Who) (plan : Nat)
  /-- AS_HOP: A write of AS_CTRL.HOP retunes the AS to a plan from its stored band. (R71) -/
  | asHop (who : Who) (plan : Nat)
  /-- AS_EN: A change of AS_CTRL.EN acts as a HOP or stops all CKO outputs. (R70) -/
  | asEn (who : Who) (en : Bool)
  /-- AS_LOCK: 4,096 cycles inside 20 ps declare AS lock and complete a HOP or SEARCH. (R73) -/
  | asLock (band : Nat)
  /-- AS_PLAN_RATIO_WRITE: A write of AS_PLANp_RATIO clears the plan's band VALID. (R70) -/
  | asPlanRatioWrite (who : Who) (plan : Nat) (v : W32)
  /-- AS_CKO_CFG_WRITE: A write of a CKO configuration enables, disables or is refused for an output. (R74) -/
  | asCkoCfgWrite (who : Who) (n : Nat) (v : W32)
  /-- FR_APPLY: A write of 1 to FR_CTRL.APPLY requests FR_PERIOD_REQ at the next tick. (R101) -/
  | frApply (who : Who)
  /-- CL_BUD_SYS_MIN_READ: A read of CL_BUD_SYS_MIN returns the minimum and resets it to 0xFFFF. (R15) -/
  | clBudSysMinRead (who : Who) (c : Nat)
  /-- TB_PHERR_MAX_READ: A read of TB_PHERR_MAX returns the maximum and clears it. (R15) -/
  | tbPherrMaxRead (who : Who)
  /-- EDGE_ENTRY_ACCEPT: A lane's input port takes an edge entry and applies the horizon check. (R108) -/
  | edgeEntryAccept (k : Nat)
  /-- EDGE_CORRECT: The entry is corrected and checked for capacity, spacing and burst, then inserted. (R109) -/
  | edgeCorrect (k : Nat)
  /-- EDGE_LOAD: The coarse comparator loads entries of the coming lane cycle into free edge generators. (R114) -/
  | edgeLoad (k : Nat)
  /-- EDGE_FIRE: An edge reaches its time and changes L and the pin, or is consumed. (R117) -/
  | edgeFire (k : Nat)
  /-- LANE_GATE_CHANGE: A gate request from an instruction or register write takes effect two lane cycles later. (R118) -/
  | laneGateChange (k : Nat)
  /-- LN_GATE_CLOSE: A write of 1 to LN_CTRL.GATE_CLOSE requests closing the lane gate. (R118) -/
  | lnGateClose (who : Who) (k : Nat)
  /-- LN_FLUSH: A write of 1 to LN_CTRL.FLUSH removes the queued entries except a closing edge. (R121) -/
  | lnFlush (who : Who) (k : Nat)
  /-- LN_OC_REARM: A write of 1 to LN_CTRL.OC_REARM re-enables the driver at the next tick. (R124) -/
  | lnOcRearm (who : Who) (k : Nat)
  /-- LN_CAL_LOAD: A write of 1 to LN_CTRL.CAL_LOAD swaps the shadow bank in at the next tick. (R127) -/
  | lnCalLoad (who : Who) (k : Nat)
  /-- LN_CAL_NOW: A write of 1 to LN_CTRL.CAL_NOW makes the lane due ahead of all others. (R128) -/
  | lnCalNow (who : Who) (k : Nat)
  /-- LN_CAL_SAVE: A write of 1 to LN_CTRL.CAL_SAVE writes the in-force table to the journal. (R131) -/
  | lnCalSave (who : Who) (k : Nat)
  /-- LN_CFG_WRITE: A write of LN_CFG makes STD and POL pending or is refused. (R123) -/
  | lnCfgWrite (who : Who) (k : Nat) (v : W32)
  /-- LN_SKEW_SH_WRITE: A write of LN_SKEW_SH sets the shadow offset and aborts a visit. (R130) -/
  | lnSkewShWrite (who : Who) (k : Nat) (v : W32)
  /-- LN_CTAB_DATA_WRITE: A write of LN_CTAB_DATA sets a shadow entry, advances IDX and aborts a visit. (R130) -/
  | lnCtabDataWrite (who : Who) (k : Nat) (v : W32)
  /-- OVERCURRENT: A driver reports overcurrent; the lane is disabled, gated and flushed. (R124) -/
  | overcurrent (k : Nat)
  /-- CAL_VISIT_START: A due loopback pair begins a background calibration visit. (R128) -/
  | calVisitStart (k : Nat)
  /-- CAL_VISIT_DONE: A pulse-lane calibration completes and writes the shadow or sets CAL_STALE. (R126) -/
  | calVisitDone (k : Nat) (meas : PulseCal)
  /-- LN_DROP_LOG_READ: A read of LN_DROP_LOG returns and removes the oldest drop. (R135) -/
  | lnDropLogRead (who : Who) (k : Nat)
  /-- THRESHOLD_CROSSING: A comparator changes state; the crossing is reported, latched, blanked and captured. (R136) -/
  | thresholdCrossing (k : Nat) (cmpB : Bool) (level : Bool) (t : Nat) (bin : Nat)
  /-- HIT_ENQUEUE: A decoded capture enters the hit queue or pairing register, or is lost. (R160) -/
  | hitEnqueue (k : Nat)
  /-- FORWARD_RECORD: The cluster forwarder sends one hit or program record to the Separator. (R162) -/
  | forwardRecord (c : Nat)
  /-- SL_THR_WRITE: A write of SL_THR makes a threshold setting pending or is refused. (R139) -/
  | slThrWrite (who : Who) (k : Nat) (v : W32)
  /-- THR_APPLY: A pending threshold setting applies and settling blanking starts. (R139) -/
  | thrApply (k : Nat)
  /-- BLANKING_START: A frame-timer or one-shot blanking interval begins. (R142) -/
  | blankingStart (k : Nat) (oneShot : Bool)
  /-- BLANKING_END: Blanking ends and differing comparator states are adopted. (R143) -/
  | blankingEnd (k : Nat)
  /-- CAPTURE_WINDOW_CLOSE: An event-gated capture window reaches its length and closes. (R145) -/
  | captureWindowClose (k : Nat)
  /-- TOT_TIMEOUT: A leading crossing without its trailing crossing by 204.795 ns yields an unmeasured pair. (R159) -/
  | totTimeout (k : Nat)
  /-- SL_FLUSH: A write of 1 to SL_CTRL.FLUSH empties the hit queue, capture buffer and pairing register. (R165) -/
  | slFlush (who : Who) (k : Nat)
  /-- SL_BLNK_NOW: A write of 1 to SL_CTRL.BLNK_NOW requests a one-shot blanking interval. (R142) -/
  | slBlnkNow (who : Who) (k : Nat)
  /-- SL_CAL_LOAD: A write of 1 to SL_CTRL.CAL_LOAD checks the shadow bin table and swaps it at the next tick. (R154) -/
  | slCalLoad (who : Who) (k : Nat)
  /-- SL_CAL_NOW: A write of 1 to SL_CTRL.CAL_NOW makes the lane due for a full pass first. (R155) -/
  | slCalNow (who : Who) (k : Nat)
  /-- SL_CAL_SAVE: A write of 1 to SL_CTRL.CAL_SAVE writes the bin table to the journal. (R157) -/
  | slCalSave (who : Who) (k : Nat)
  /-- SL_CFG_WRITE: A write of SL_CFG becomes pending for the next tick or is refused. (R167) -/
  | slCfgWrite (who : Who) (k : Nat) (v : W32)
  /-- SL_TRIM_WRITE: A write of SL_TRIM sets the trim for the next tick and aborts a pass. (R154) -/
  | slTrimWrite (who : Who) (k : Nat) (v : W32)
  /-- SL_BIN_DATA_WRITE: A write of SL_BIN_DATA sets a shadow bin edge, advances IDX and aborts a pass. (R154) -/
  | slBinDataWrite (who : Who) (k : Nat) (v : W32)
  /-- CODE_DENSITY_PASS_START: A due stamp lane begins a code-density pass. (R155) -/
  | codeDensityPassStart (k : Nat)
  /-- CODE_DENSITY_PASS_DONE: A code-density pass completes and writes the shadow or is rejected. (R153) -/
  | codeDensityPassDone (k : Nat) (meas : StampCal)
  /-- REGRESSION_SLOT: In its slot an engine takes up to two tap entries per lane cycle into the lane's sums. (R170) -/
  | regressionSlot (k : Nat)
  /-- RESULT_READY: A regression result is ready, replaces the result registers and may go to the stream. (R180) -/
  | resultReady (k : Nat)
  /-- RG_START: A write of 1 to RG_CTRL.START starts a measurement or is refused. (R174) -/
  | rgStart (who : Who) (k : Nat)
  /-- RG_STOP: A write of 1 to RG_CTRL.STOP ends the lane's measurement. (R176) -/
  | rgStop (who : Who) (k : Nat)
  /-- RG_RES0_READ: A read of RG_RES0 latches the other result words into shadows. (R187) -/
  | rgRes0Read (who : Who) (k : Nat)
  /-- SWITCH_IN: At a switch point the sequencer chooses a ready context by class and switches it in. (R201) -/
  | switchIn (c : Nat)
  /-- ADD: ADD adds two 32-bit values and sets the flags. (R230) -/
  | add (c : Nat)
  /-- SUB: SUB subtracts two 32-bit values and sets the flags. (R230) -/
  | sub (c : Nat)
  /-- AND: AND forms a bitwise AND. (R230) -/
  | and_ (c : Nat)
  /-- OR: OR forms a bitwise OR. (R230) -/
  | or_ (c : Nat)
  /-- XOR: XOR forms a bitwise exclusive OR. (R230) -/
  | xor_ (c : Nat)
  /-- SHL: SHL shifts left. (R231) -/
  | shl (c : Nat)
  /-- SHR: SHR shifts right with zero fill. (R231) -/
  | shr (c : Nat)
  /-- SRA: SRA shifts right with sign fill. (R231) -/
  | sra (c : Nat)
  /-- MUL: MUL multiplies signed values in 3 cycles. (R230) -/
  | mul (c : Nat)
  /-- MIN: MIN selects the signed minimum. (R230) -/
  | min (c : Nat)
  /-- MAX: MAX selects the signed maximum. (R230) -/
  | max (c : Nat)
  /-- CMP: CMP subtracts and writes only the flags. (R230) -/
  | cmp (c : Nat)
  /-- LI: LI loads a sign-extended immediate. (R230) -/
  | li (c : Nat)
  /-- LUI: LUI loads an immediate into the upper half. (R230) -/
  | lui (c : Nat)
  /-- TADD: TADD adds to a time register modulo 2^64. (R234) -/
  | tadd (c : Nat)
  /-- TSUB: TSUB subtracts from a time register modulo 2^64. (R234) -/
  | tsub (c : Nat)
  /-- TCMP: TCMP compares two times by their difference. (R234) -/
  | tcmp (c : Nat)
  /-- TSCL: TSCL scales a time by a register or extracts 32 bits of it. (R236) -/
  | tscl (c : Nat)
  /-- TLD: TLD loads a time register from the data window. (R237) -/
  | tld (c : Nat)
  /-- TST: TST stores a time register to the data window. (R237) -/
  | tst (c : Nat)
  /-- TNOW: TNOW reads NOW plus an offset into a time register. (R235) -/
  | tnow (c : Nat)
  /-- TFRM: TFRM reads FR_START, the frame counter or the epoch. (R235) -/
  | tfrm (c : Nat)
  /-- B_COND: B.cond branches relative when its condition holds. (R239) -/
  | bCond (c : Nat)
  /-- J: J jumps relative or through a register. (R240) -/
  | j (c : Nat)
  /-- CALL: CALL pushes the return address and jumps. (R240) -/
  | call (c : Nat)
  /-- LOOP: LOOP decrements a counter and branches while it is not 0. (R241) -/
  | loop (c : Nat)
  /-- RET: RET pops the return stack into the PC. (R240) -/
  | ret (c : Nat)
  /-- YIELD: YIELD makes the context READY in class 2 at a switch point. (R242) -/
  | yield (c : Nat)
  /-- HALT: HALT ends the program and the context enters ENDED. (R244) -/
  | halt (c : Nat)
  /-- LOCK: LOCK opens a locked sequence, or preempts or faults by budget. (R245) -/
  | lock (c : Nat)
  /-- UNLOCK: UNLOCK waits for the lanes' decision on the locked set and sets Z and L. (R246) -/
  | unlock (c : Nat)
  /-- BUD: BUD reads the remaining budget into a register. (R247) -/
  | bud (c : Nat)
  /-- REQ_PING: REQ PING returns its argument at the cluster's service slot. (R250) -/
  | reqPing (c : Nat)
  /-- REQ_PUBSTAT: REQ PUBSTAT returns lock, warm and frozen status. (R250) -/
  | reqPubstat (c : Nat)
  /-- REQ_DIGEST: REQ DIGEST returns the first 32 bits of the digest in force. (R250) -/
  | reqDigest (c : Nat)
  /-- REQ_TEMP: REQ TEMP returns the cluster temperature. (R250) -/
  | reqTemp (c : Nat)
  /-- REQ_UNGATE: REQ UNGATE makes the tenant's UNGATE or is refused with TIMEBASE_LOSS. (R250) -/
  | reqUngate (c : Nat)
  /-- REQ_POST: REQ POST stores a message, sends a request record and returns a ticket. (R251) -/
  | reqPost (c : Nat)
  /-- REQ_COLLECT: REQ COLLECT returns the steward's reply, pends or is refused. (R251) -/
  | reqCollect (c : Nat)
  /-- RESERVED_OPCODE: A word with a reserved major opcode faults with ILLEGAL_INSTRUCTION. (R227) -/
  | reservedOpcode (c : Nat)
  /-- EMIT: EMIT writes or stages a RISE, FALL or TOGGLE entry to each named lane. (R261) -/
  | emit (c : Nat)
  /-- EMITP: EMITP writes or stages a PULSE-PAIR entry to each named lane. (R261) -/
  | emitp (c : Nat)
  /-- GATE_OPEN: GATE OPEN requests opening the named lane gates. (R263) -/
  | gateOpen (c : Nat)
  /-- GATE_CLOSE: GATE CLOSE requests closing the named lane gates. (R263) -/
  | gateClose (c : Nat)
  /-- SPLAY_START: SPLAY start begins a segment playback on a lane or is refused. (R264) -/
  | splayStart (c : Nat)
  /-- SPLAY_STOP: SPLAY stop requests the stop of a lane's playback. (R264) -/
  | splayStop (c : Nat)
  /-- SJUMP: SJUMP requests a jump of a running playback to a descriptor. (R265) -/
  | sjump (c : Nat)
  /-- SIG: SIG asserts the sequencer-SIG producer on a channel for one lane cycle. (R271) -/
  | sig (c : Nat)
  /-- WAIT: WAIT consumes a pending event or enters WAITING on its subject. (R267) -/
  | wait (c : Nat)
  /-- POLL: POLL consumes a pending event if one exists. (R267) -/
  | poll (c : Nat)
  /-- ARM: ARM requests enabling a channel or group. (R272) -/
  | arm (c : Nat)
  /-- DISARM: DISARM requests disabling a channel or group. (R272) -/
  | disarm (c : Nat)
  /-- HPOP: HPOP removes the head of a program-drained hit queue. (R275) -/
  | hpop (c : Nat)
  /-- HCNT: HCNT returns the number of hit-queue entries. (R276) -/
  | hcnt (c : Nat)
  /-- THR: THR submits a pending threshold setting or is refused. (R277) -/
  | thr (c : Nat)
  /-- BLNK_ONE_SHOT: BLNK one-shot requests a one-shot blanking interval. (R278) -/
  | blnkOneShot (c : Nat)
  /-- BLNK_SET: BLNK set loads SL_BLNK for the next tick or is refused. (R278) -/
  | blnkSet (c : Nat)
  /-- MEAS_START: MEAS start acts as RG_CTRL.START for the lane. (R279) -/
  | measStart (c : Nat)
  /-- MEAS_STOP: MEAS stop acts as RG_CTRL.STOP for the lane. (R279) -/
  | measStop (c : Nat)
  /-- MRD: MRD loads one word of the lane's current result. (R280) -/
  | mrd (c : Nat)
  /-- REC: REC writes a program record to the context's buffer or is refused. (R283) -/
  | recw (c : Nat)
  /-- WAIT_TIMEOUT: A WAIT's timeout count expires and the context wakes with Z = 0. (R269) -/
  | waitTimeout (x : Nat)
  /-- CTX_ALLOC: CTX_ALLOC journals a context's configuration, windows and budget after checks. (R198) -/
  | ctxAlloc (f : CmdFrame)
  /-- CODE_WRITE: CODE_WRITE journals instruction words within the issuer's grant. (R217) -/
  | codeWrite (f : CmdFrame)
  /-- DATA_WRITE: DATA_WRITE journals data-memory words within the issuer's grant. (R217) -/
  | dataWrite (f : CmdFrame)
  /-- CTX_ENTRY: CTX_ENTRY journals a context's entry address. (R216) -/
  | ctxEntry (f : CmdFrame)
  /-- CTX_START: CTX_START, or SQ_CTX_CTRL.START, starts a context at the next tick or is refused. (R190) -/
  | ctxStart (src : CtxSrc)
  /-- CTX_STOP: CTX_STOP, or SQ_CTX_CTRL.STOP, stops a context. (R190) -/
  | ctxStop (src : CtxSrc)
  /-- CTX_HALT: CTX_HALT, or SQ_CTX_CTRL.HALT, halts a context for debug. (R219) -/
  | ctxHalt (src : CtxSrc)
  /-- CTX_RESUME: CTX_RESUME, or SQ_CTX_CTRL.RESUME, makes a halted context READY. (R219) -/
  | ctxResume (src : CtxSrc)
  /-- CTX_STEP: CTX_STEP, or SQ_CTX_CTRL.STEP, runs one instruction of a halted context. (R221) -/
  | ctxStep (src : CtxSrc)
  /-- CTX_BREAK: CTX_BREAK, or SQ_CTX_CTRL.FORCE, breaks a lock under a pending halt. (R220) -/
  | ctxBreak (src : CtxSrc)
  /-- SEGMENT_FETCH: The segment engine reads one entry into a lane's prefetch buffer. (R292) -/
  | segmentFetch (k : Nat)
  /-- SEGMENT_PRESENT: A buffered segment entry within the lookahead is presented to the input port. (R293) -/
  | segmentPresent (k : Nat)
  /-- JUMP_RECORD: An accepted SJUMP target is recorded as pending. (R296) -/
  | jumpRecord (k : Nat)
  /-- PLAYBACK_STOP: A requested stop takes effect and the playback becomes idle. (R297) -/
  | playbackStop (k : Nat)
  /-- SG_STOP: A write of 1 to SG_Ln_CTRL.STOP requests the stop of a playback. (R297) -/
  | sgStop (who : Who) (k : Nat)
  /-- PACKET_SEND: A port's slot sends a ready packet or item under deficit round-robin. (R333) -/
  | packetSend (p : Nat)
  /-- UPSTREAM_PACKET: An upstream item arrives on P3, is checked and held for merging or discarded. (R324) -/
  | upstreamPacket (frame : LinkFrame)
  /-- CH_XOFF_IN: CH_XOFF_IN changes level and stops or resumes sending on P3 downstream. (R339) -/
  | chXoffIn (level : Bool)
  /-- MILKLINE_EVENT: A Milkline channel passes an event to its consumer ports. (R345) -/
  | milklineEvent (n : Nat) (delay : Nat)
  /-- CLUSTER_CHANNEL_EVENT: A cluster channel passes an event to its consumers. (R345) -/
  | clusterChannelEvent (c : Nat) (n : Nat)
  /-- CL_LEV_WRITE: A write of CL_LEVn changes a lane consumer's source two lane cycles later. (R350) -/
  | clLevWrite (who : Who) (c : Nat) (n : Nat) (v : W32)
  /-- EV_ADC_SEL_WRITE: A write of EV_ADC_SEL changes the ADC start consumer's source. (R350) -/
  | evAdcSelWrite (who : Who) (v : W32)
  /-- CHANNEL_CTL_WRITE: A write of a channel's CTL acts on EN and journals steward-only fields. (R355) -/
  | channelCtlWrite (who : Who) (obj : Nat) (v : W32)
  /-- GROUP_CFG_WRITE: A write of EV_GRPg_CFG acts on EN and journals the ON and OFF sources. (R355) -/
  | groupCfgWrite (who : Who) (g : Nat) (v : W32)
  /-- KEY_INIT: KEY_INIT loads the steward's first key on the MSPI or is refused. (R364) -/
  | keyInit (f : CmdFrame)
  /-- KEY_SET: KEY_SET gives a tenant a new key carried encrypted. (R365) -/
  | keySet (f : CmdFrame)
  /-- CAP_SET: CAP_SET journals a tenant's capability record or is refused. (R360) -/
  | capSet (f : CmdFrame)
  /-- TEN_SUSPEND: TEN_SUSPEND journals the suspension of a tenant. (R378) -/
  | tenSuspend (f : CmdFrame)
  /-- TEN_RESUME: TEN_RESUME journals the resumption of a tenant. (R379) -/
  | tenResume (f : CmdFrame)
  /-- TEN_REMOVE: TEN_REMOVE journals the removal of a tenant. (R380) -/
  | tenRemove (f : CmdFrame)
  /-- ZEROISE: ZEROISE starts erasing every key and counter. (R381) -/
  | zeroise (f : CmdFrame)
  /-- TN_FAIL_LOG_READ: A read of TN_FAIL_LOG returns and removes the oldest failure. (R371) -/
  | tnFailLogRead (who : Who)
  /-- LINK_DOWN: A port loses block lock or reports high BER or a fault and goes DOWN. (R395) -/
  | linkDown (p : Nat) (why : DownCause)
  /-- HELLO_RECEIVED: A HELLO arrives, brings the port UP or reveals a partner reset. (R393) -/
  | helloReceived (p : Nat) (frame : LinkFrame)
  /-- HELLO_TIMEOUT: No HELLO for HTMO µs takes the port DOWN. (R393) -/
  | helloTimeout (p : Nat)
  /-- HELLO_SEND: The HELLO period expires and a HELLO is sent. (R394) -/
  | helloSend (p : Nat)
  /-- PAUSE_RECEIVED: A PAUSE from the partner stops PACKET and RESPONSE frames. (R391) -/
  | pauseReceived (p : Nat) (quanta : Nat)
  /-- PAUSE_END: The pause time expires and sending resumes. (R391) -/
  | pauseEnd (p : Nat)
  /-- PAUSE_SEND: The command buffer crosses its levels or the repeat interval expires and a PAUSE is sent. (R392) -/
  | pauseSend (p : Nat)
  /-- RESPONSE_SEND: A built response is sent on the port that carried its command. (R402) -/
  | responseSend (path : Path)
  /-- UNDEFINED_COMMAND: A command with an undefined opcode is refused with ILLEGAL_INSTRUCTION. (R399) -/
  | undefinedCommand (f : CmdFrame)
  /-- REG_READ: REG_READ returns COUNT consecutive registers checked for rights. (R401) -/
  | regRead (f : CmdFrame)
  /-- REG_WRITE: REG_WRITE applies its entries in order until one is refused. (R401) -/
  | regWrite (f : CmdFrame)
  /-- REPLAY: REPLAY requeues a packet from the replay window or is refused. (R334) -/
  | replay (f : CmdFrame)
  /-- REQ_REPLY: REQ_REPLY answers an outstanding post or is discarded. (R251) -/
  | reqReply (f : CmdFrame)
  /-- PERIOD: PERIOD journals a change of frame period, possibly scheduled. (R101) -/
  | period (f : CmdFrame)
  /-- CHARACTER_LOCK: Three aligned K28.5 characters give TTC character lock. (R406) -/
  | characterLock (phase : Nat)
  /-- TRIGGER_WORD: A TTC trigger word arrives and is checked. (R408) -/
  | triggerWord (code : BitVec 16) (time : W64) (check : BitVec 16)
  /-- FRAME_MARK: A TTC frame mark arrives and is matched against its frame. (R409) -/
  | frameMark (frame : BitVec 48) (check : BitVec 16)
  /-- BROADCAST: A TTC broadcast enters PT_TTC_BC or is discarded. (R410) -/
  | broadcast (code : W8) (arg : BitVec 16) (check : BitVec 16)
  /-- PT_TTC_BC_READ: A read of PT_TTC_BC returns and removes the oldest broadcast. (R410) -/
  | ptTtcBcRead (who : Who)
  /-- MSPI_READ: The MSPI READ instruction returns Byre registers without side effects. (R412) -/
  | mspiRead (offset : Nat) (count : Nat)
  /-- MSPI_WRITE: The MSPI WRITE instruction places words in the write buffer or is ignored. (R412) -/
  | mspiWrite (offset : Nat) (words : List W32)
  /-- MSPI_CMD: The MSPI CMD instruction takes one command frame or is ignored. (R413) -/
  | mspiCmd (len : Nat) (words : List W64)
  /-- EXTEST: JTAG EXTEST drives the pins from the boundary register. (R414) -/
  | extest (cells : BitVec 540)
  /-- SAMPLE_PRELOAD: JTAG SAMPLE/PRELOAD samples and loads the boundary register. (R414) -/
  | samplePreload (cells : BitVec 540)
  /-- SCANSEL: JTAG SCANSEL selects a chain and enters scan mode on first use. (R485) -/
  | scansel (chain : Nat)
  /-- SCANSHIFT: JTAG SCANSHIFT shifts the selected chain. (R484) -/
  | scanshift (bits : W64)
  /-- SCANCLK: JTAG SCANCLK gives one functional clock pulse to every chain. (R484) -/
  | scanclk (pulse : Bool)
  /-- ASTRUN: JTAG ASTRUN runs analog self-test items. (R501) -/
  | astrun (mask : Nat)
  /-- OTPRD: JTAG OTPRD reads a word of the public OTP map. (R484) -/
  | otprd (addr : Nat)
  /-- LCADV: JTAG LCADV requests a life-cycle transition. (R479) -/
  | lcadv (target : Nat)
  /-- OTPWR: JTAG OTPWR writes an OTP word in BLANK or FACTORY_TEST. (R484) -/
  | otpwr (addr : Nat) (v : W32)
  /-- QUEUE_INTEGRITY: Duplicated queue pointers disagree and the queue is reset. (R417) -/
  | queueIntegrity (q : Nat)
  /-- DIGEST_GET: DIGEST_GET returns the digest in force and its frame. (R439) -/
  | digestGet (f : CmdFrame)
  /-- SUSPECT_READ: SUSPECT_READ returns raw words of a suspect record. (R445) -/
  | suspectRead (f : CmdFrame)
  /-- ACCEPT_SUSPECT: ACCEPT_SUSPECT journals an ACCEPT record for a suspect. (R445) -/
  | acceptSuspect (f : CmdFrame)
  /-- DISCARD: DISCARD journals a DISCARD record for a suspect. (R445) -/
  | discard (f : CmdFrame)
  /-- COMPACT: COMPACT, JR_CTRL.COMPACT or the fill threshold starts compaction. (R440) -/
  | compact (src : CmdSrc)
  /-- SCHED_CANCEL: SCHED_CANCEL journals the cancellation of a pending scheduled record. (R435) -/
  | schedCancel (f : CmdFrame)
  /-- JOURNAL_ERASE: JOURNAL_ERASE empties the journal and requests a cold start. (R446) -/
  | journalErase (f : CmdFrame)
  /-- BROWNOUT: A rail is lost while the core is released. (R453) -/
  | brownout (rails : BitVec 6)
  /-- SLEEP: A write of BY_CTRL.SLEEP with KEY requests deep sleep and starts a drain. (R466) -/
  | sleep (src : ByPath) (key : W8)
  /-- OFF: A write of BY_CTRL.OFF with KEY powers down without a drain. (R466) -/
  | off (src : ByPath) (key : W8)
  /-- WAKE: A write of BY_CTRL.WAKE wakes the device from SLEEP or is held. (R462) -/
  | wake (src : ByPath)
  /-- HRESET: A write of BY_CTRL.HRESET with KEY causes a hard reset. (R474) -/
  | hreset (src : ByPath) (key : W8)
  /-- SAFE_CLR: A write of BY_CTRL.SAFE_CLR clears PIN and GATE_ALL if SAFE_N is high. (R530) -/
  | safeClr (src : ByPath) (safeNHigh : Bool)
  /-- GATE_ALL: A write of BY_CTRL.GATE_ALL starts the safe state. (R529) -/
  | gateAll (src : ByPath)
  /-- SAFE_N: A low pulse on SAFE_N sets the PIN cause of the safe state. (R529) -/
  | safeN (level : Bool)
  /-- BY_CLK_SRC: A write of BY_CLK.SRC starts or stops use of the crystal. (R455) -/
  | byClkSrc (src : ByPath) (crystal : Bool)
  /-- KCLK_MEAS_UPDATE: Every 1,024 keeper cycles BY_KCLK_MEAS is updated. (R456) -/
  | kclkMeasUpdate (lc : Nat)
  /-- KEEPER_CROSSING: A keeper comparator sample shows a crossing, latches it and may assert its producer. (R458) -/
  | keeperCrossing (n : Nat) (cmpB : Bool) (level : Bool) (kc : Nat)
  /-- KC_THR_WRITE: A write of BY_KCi_THR makes a keeper threshold pending. (R459) -/
  | kcThrWrite (src : ByPath) (n : Nat) (v : W32)
  /-- KC_THR_APPLY: A pending keeper threshold applies at a sampling edge. (R459) -/
  | kcThrApply (n : Nat)
  /-- WAKE_IN: An active edge of WAKE_INn asserts its producer. (R460) -/
  | wakeIn (n : Nat) (level : Bool)
  /-- KT_CFG_WRITE: A write of BY_KT_CFG that sets EN loads the count. (R461) -/
  | ktCfgWrite (src : ByPath) (v : W32)
  /-- BY_RRAM_DATA_READ: A mirror read of BY_RRAM_DATA returns a word and advances BY_RRAM_ADDR. (R542) -/
  | byRramDataRead (who : Who)
  /-- BY_RRAM_DATA_WRITE: A write of BY_RRAM_DATA writes the free area or is refused, and advances the address. (R463) -/
  | byRramDataWrite (src : ByPath) (v : W32)
  /-- RECOVER: RECOVER gates the outputs and runs the named analog self-test items. (R502) -/
  | recover (f : CmdFrame)
  /-- LBIST_RUN: LBIST_RUN makes drained clusters pending for logic BIST. (R489) -/
  | lbistRun (f : CmdFrame)
  /-- Q_RELEASE: Q_RELEASE clears a passed cluster's quarantine. (R498) -/
  | qRelease (f : CmdFrame)
  /-- COMPAT_SCAN: COMPAT_SCAN zeroises, blows a fuse and enables the scan instructions. (R486) -/
  | compatScan (f : CmdFrame)
  /-- COMPAT_DISABLE: COMPAT_DISABLE blows the COMPAT_DIS fuse. (R488) -/
  | compatDisable (f : CmdFrame)
  /-- LC_ADVANCE: LC_ADVANCE requests a life-cycle transition from the steward. (R482) -/
  | lcAdvance (f : CmdFrame)
  /-- LB_STATUS: LB_STATUS returns the pending, quarantine and pass masks. (R504) -/
  | lbStatus (f : CmdFrame)
  /-- LBIST_SLICE_RESTORE: The slice's blocks end and the cluster state is restored. (R493) -/
  | lbistSliceRestore (c : Nat) (verdict : BistVerdict)
  /-- LBIST_SLICE_END: The cluster returns to service and may be quarantined. (R493) -/
  | lbistSliceEnd (c : Nat)
  /-- AST_ITEM_DONE: An analog self-test item completes and is judged against its window. (R500) -/
  | astItemDone (result : AstResult)
  /-- ST_AST_LOG_READ: A read of ST_AST_LOG returns and removes the oldest failing value. (R500) -/
  | stAstLogRead (who : Who)
  /-- ADC_SYSTEM_WINDOW: A system window begins and the system scan converts its input. (R510) -/
  | adcSystemWindow (value : Int)
  /-- ADC_CONVERSION_DONE: A conversion's result is written and its record produced. (R508) -/
  | adcConversionDone (value : Int)
  /-- SCRUB: The scrubber reads, checks and corrects a memory word. (R533) -/
  | scrub (mem : Nat) (cluster : Nat) (word : Nat) (err : EccKind)
  /-- RRAM_SCRUB: Every 65,536 keeper cycles the Byre scrubs the retention RAM. (R532) -/
  | rramScrub (word : Nat) (err : EccKind)
  /-- GRADIENT_READING: Every 1,024 lane cycles cluster monitors are compared against the gradient limits. (R536) -/
  | gradientReading (c : Nat) (vdd : Int) (phase : Int)
  /-- FL_OVF_LOG_READ: A read of FL_OVF_LOG returns and removes the oldest carry. (R540) -/
  | flOvfLogRead (who : Who)
  /-- LOW_WORD_READ: A read of a 64-bit low word latches the high word for its access path. (R539) -/
  | lowWordRead (who : Who) (addr : Nat)
  /-- REGISTER_WRITE: A write to a register without a row of its own acts by its access code and rights. (R15) -/
  | registerWrite (who : Who) (addr : Nat) (v : W32)
  /-- BLOCK_LOCK_GAINED: A P0, P1 or P3 upstream receiver gains block lock, stops sending remote-fault ordered sets and sends one HELLO at once. (R394) -/
  | blockLockGained (p : Nat)
  /-- HIGH_BER_CLEARED: The BER monitor's 125 µs window ends with fewer than 16 invalid sync headers and high BER clears, which can return the port to UP. (R386) -/
  | highBerCleared (p : Nat)
  /-- FAULT_SET_WINDOW_END: 128 blocks pass without a fault ordered set, so that condition of UP holds again. (R393) -/
  | faultSetWindowEnd (p : Nat)
  /-- SPOT_CHECK_DONE: The warm-wake spot check of a loopback pair completes, writes LN_SPOT and may set CAL_STALE and SPOT_FAIL and make the pair due. (R132) -/
  | spotCheckDone (k : Nat) (meas : Int)
  /-- MISSING_REFERENCE_CYCLE: A reference window ends with no present edge. (R44) -/
  | missingReferenceCycle
  /-- STORED_BAND_TIMEOUT: No lock within 2 ms of acquiring from a stored band starts a fresh search. (R52) -/
  | storedBandTimeout
  /-- SYNC_T0: At T0 after an eligible SYNC, time, frame counter, epoch and CKO dividers are loaded. (R64) -/
  | syncT0
  /-- AS_LOSS_OF_LOCK: Eight cycles outside 20 ps declare AS loss of lock and gate the CKO outputs. (R73) -/
  | asLossOfLock
  /-- AS_HOP_TIMEOUT: A HOP not locked within 40 µs falls back to a fresh search. (R72) -/
  | asHopTimeout
  /-- FRAME_TICK: A frame tick takes the ordered steps of Table 3-2. (R87) -/
  | frameTick
  /-- ENABLE_CHANGE: An enable or disable request for a channel or group takes effect two lane cycles later. (R347) -/
  | enableChange
  /-- SEPARATOR_RECORD_IN: A record reaches the Separator and is placed in its stream or lost. (R306) -/
  | separatorRecordIn
  /-- FRAME_SEAL: HOLD lane cycles after a frame ends it is sealed, matched and its packets built. (R310) -/
  | frameSeal
  /-- UPSTREAM_WAIT_TIMEOUT: SP_CHAIN.WAIT passes after the own seal and the frame is sent with UP_MISSING. (R323) -/
  | upstreamWaitTimeout
  /-- KEY_AREA_WRITE_DONE: A key-area write completes; a waiting command acts or a KEY_SET is acknowledged. (R425) -/
  | keyAreaWriteDone
  /-- CLEARING_DONE: Clearing of released memory words completes and waiting grants take effect. (R373) -/
  | clearingDone
  /-- ZEROISE_DONE: The key-area overwrite completes and ZEROISED is set. (R381) -/
  | zeroiseDone
  /-- LOCK_LOST: Four invalid code groups in 16 characters lose TTC character lock. (R406) -/
  | lockLost
  /-- TRIGGER_RELEASE: 108 lane cycles after arrival a trigger word is released to filters, list and broadcast. (R408) -/
  | triggerRelease
  /-- MSPI_WRITE_APPLY: A buffered MSPI word applies at a keeper-clock edge. (R412) -/
  | mspiWriteApply
  /-- MSPI_STATUS: The MSPI STATUS instruction returns AWAKE, WBUSY, CMD_BUSY and RSP_READY. (R411) -/
  | mspiStatus
  /-- MSPI_RSP: The MSPI RSP instruction returns the response and clears RSP_READY. (R413) -/
  | mspiRsp
  /-- IDCODE: JTAG IDCODE selects the identification register. (R414) -/
  | idcode
  /-- CLAMP: JTAG CLAMP holds the pins from the boundary register with bypass selected. (R414) -/
  | clamp
  /-- HIGHZ: JTAG HIGHZ puts the outputs at high impedance. (R414) -/
  | highz
  /-- BYPASS: JTAG BYPASS, or any unavailable code, selects the bypass register. (R414) -/
  | bypass
  /-- ASTRD: JTAG ASTRD captures ST_AST and one log entry. (R484) -/
  | astrd
  /-- TEST_LOGIC_RESET: The TAP reaches Test-Logic-Reset; scan mode ends with a cold start. (R485) -/
  | testLogicReset
  /-- JOURNAL_WORD_WRITE: The journal writer writes one word after its interval; a commit word commits a record. (R424) -/
  | journalWordWrite
  /-- DIGEST_DONE: A SHA-256 computation over the canonical configuration completes. (R437) -/
  | digestDone
  /-- BYRE_POWER_ON_RESET: VKEEP rises or falls through its threshold and the Byre resets. (R449) -/
  | byrePowerOnReset
  /-- POWER_STEP: A step's rails are good and STEP keeper cycles pass; the next enable rises. (R450) -/
  | powerStep
  /-- POWER_GOOD_TIMEOUT: A step's rails are not good within TMO and the power-up is abandoned. (R451) -/
  | powerGoodTimeout
  /-- POWER_DOWN_STEP: An enable falls STEP keeper cycles after the one before. (R452) -/
  | powerDownStep
  /-- BROWNOUT_RESTART: 32 keeper cycles after a brown-out with BORST a power-up starts. (R453) -/
  | brownoutRestart
  /-- DRAIN_COMPLETE: The writer's queue empties, the wake record is written and the rails fall. (R467) -/
  | drainComplete
  /-- DRAIN_TIMEOUT: The drain limit passes with the writer's queue not empty. (R467) -/
  | drainTimeout
  /-- RST_N: RST_N sampled low twice causes a hard reset. (R474) -/
  | rstN
  /-- HARD_RESET_END: The hard reset ends and a cold start follows. (R474) -/
  | hardResetEnd
  /-- READY_RISE: Every start step is complete with the TS locked and READY rises. (R472) -/
  | readyRise
  /-- NOLOCK_TIMEOUT: The TS is not locked 200 ms after release and READY rises without lock. (R472) -/
  | nolockTimeout
  /-- CRYSTAL_SWITCH: After 4,096 clean crystal cycles the keeper clock switches to the crystal. (R455) -/
  | crystalSwitch
  /-- CRYSTAL_FAIL: No crystal edge within 4 RC cycles returns the keeper clock to RC. (R455) -/
  | crystalFail
  /-- CRYSTAL_RETRY: Every 32,768 RC cycles the crystal is tried again. (R455) -/
  | crystalRetry
  /-- KEEPER_TIMER_EXPIRY: The keeper timer reaches 0, asserts its producer and reloads or stops. (R461) -/
  | keeperTimerExpiry
  /-- MIRROR_WRITE_APPLY: A mirror write applies at the second keeper-clock edge. (R550) -/
  | mirrorWriteApply
  /-- LBIST_SLICE_START: An eligible pending cluster starts an LBIST slice and leaves service. (R492) -/
  | lbistSliceStart
  /-- PURGE_START: The response leaves or 1 ms passes and the purge begins. (R482) -/
  | purgeStart
  /-- PURGE_DONE: The purge overwrite completes and its mark is cleared. (R480) -/
  | purgeDone
  /-- FUSE_BLOW_DONE: A fuse group is blown and read back; the state advances. (R481) -/
  | fuseBlowDone
  /-- ADC_FRAME_TIMER: The frame timer requests a start FSTART lane cycles after a tick. (R509) -/
  | adcFrameTimer
  /-- ADC_CONVERSION_START: A queued tenant conversion begins, after a start-up if needed. (R512) -/
  | adcConversionStart
  /-- FAULT_LOG_WRITE: A buffered fault-log entry is written to the retention RAM. (R527) -/
  | faultLogWrite
  /-- TMR_CORRECTION: A disagreement among TMR copies is corrected and counted. (R534) -/
  | tmrCorrection
  /-- COUNTER_CLEAR: A write of FL_CTR_CLR clears a counter two lane cycles later. (R541) -/
  | counterClear
  /-- JOURNAL_REPLAY_DONE: Replay of the valid journal half completes: REPLAYED is set, LAST is set from RESERVED, waiting commands are verified and the start-up digest computation begins. (R443) -/
  | journalReplayDone
  deriving DecidableEq, Repr

end Sys2Proof
end

