-- ==== Sys2Proof/Decode.lean ====
section
/-! DEFINITION. The command a table word spells. spec/opcode_table.json gives no row any bits (every row's list of fields
is empty): the rows are accesses and events, not encoded words, so that no word spells one. The words of the Enxia
sequencers, which the spec does encode (08_enxia_reference_core.md, 09_enxia_reference_timing.md), are decoded from
instruction memory by Machine/Operands.lean. -/
namespace Sys2Proof

/-- The command that `w`, of `nbits` bits, spells by the table's bits: none. -/
def decodeTableWord (_nbits _w : Nat) : Option Instr := none

end Sys2Proof
end

