-- ==== Sys2Proof/Config.lean ====
section
/-! DEFINITION. What one part fixes and the model does not know, and the values the spec leaves open: constants
without a body, so that nothing in Lean can evaluate them and every claim holds whatever they are (log entries 2, 6). -/
namespace Sys2Proof.Config

/-- The factory contents of OTP word a: die identifier, grade, delays of LN_CALPATH and SL_INPATH, analog trims, the
map of OTPRD (R126, R157, R551; log entry 2, DESIGN CHOICE; a free value). -/
opaque otpWord : Nat → W32

/-- A value the spec leaves open, one for each number the free-value counter of the state takes (log entry 6, DESIGN CHOICE). -/
opaque freeNat : Nat → Nat

/-- The length in flip-flops of scan chain c (Table 17-4; log entry 2, DESIGN CHOICE). -/
opaque chainLength : Nat → BitVec 24

end Sys2Proof.Config
end

