-- ==== Sys2Proof/Machine/StJr.lean ====
section
/-! DEFINITION. State of the journal store, its writer, and the configuration digest beside their registers
(15_journal_store.md). -/
namespace Sys2Proof.Machine

/-- A journal record (R421): type, issuing tenant, the frame of a scheduled one, its payload. `id` names it to the
command that waits for it, 0 for a record of the writer's own; `replay` marks a replay record of R580. -/
structure JRec where
  id : Nat
  type : Nat
  tenant : Nat
  sched : Option Nat
  payload : List W64
  replay : Bool
  deriving DecidableEq, Repr

/-- A committed record with its sequence number and the lane cycle of its commit word (R431). -/
structure JDone where
  seq : Nat
  r : JRec
  lc : Nat
  deriving DecidableEq, Repr

/-- The record in progress (R427): start address, sequence number, its words, the number written. -/
structure JWrite where
  start : Nat
  seq : Nat
  r : JRec
  words : List W64
  written : Nat
  deriving DecidableEq, Repr

/-- A compaction (R440, Table 15-7): S, the words of the free half still to write, its write position, whether the
records committed since S have been gathered (step 5), and the generation it makes. -/
structure Compaction where
  s : Nat
  words : List W64
  pos : Nat
  step5 : Bool
  moved : List (Nat × Nat)    -- suspects copied: SEQ, place in the free half
  gen : Nat
  deriving DecidableEq, Repr

/-- A suspect record (R444): sequence number, start and length in words, cause, and whether its type is known. -/
structure Suspect where
  seq : Nat
  start : Nat
  len : Nat
  cause : Nat
  known : Bool
  deriving DecidableEq, Repr

/-- An item of the canonical configuration (R436, R438): its last issuer and its value, as 32-bit words. Instruction and
data words are kept word by word; runs are formed when the byte string is. -/
structure CItem where
  tenant : Nat
  value : List W32
  deriving DecidableEq, Repr

/-- The digest in force: value, frame and size (R437). -/
structure Digest where
  value : List W32
  frame : Nat
  size : Nat
  deriving DecidableEq, Repr

/-- The journal store and its units. -/
structure Journal where
  halfA : Tbl W64
  halfB : Tbl W64
  bad : List Nat              -- words of the active half that read as failed (R419)
  activeB : Bool
  fill : Nat                  -- JR_FILL
  gen : Nat
  seq : Nat                   -- SEQ of the last record begun
  commitSeq : Nat             -- SEQ of the last committed record (JR_SEQ)
  nextId : Nat
  cmdQ : List JRec            -- records accepted, in the writer's four classes (R424)
  resQ : List JRec
  sysQ : List JRec
  cur : Option JWrite
  lastLc : Option Nat         -- lane cycle of the writer's last word
  compactTurn : Bool          -- the next word goes to compaction (R424)
  compact : Option Compaction
  done : List JDone           -- committed unscheduled records that have not applied (R431)
  sched : List JDone          -- pending scheduled records, at most 256 (R429)
  deferred : List JDone       -- CODE_WRITE and DATA_WRITE deferred by R217
  suspects : List Suspect     -- the suspect table, at most 16 (R444)
  unlisted : List Suspect     -- unresolved suspects beyond those of the table (R444)
  canon : Tbl CItem           -- canonical items by TYPE × 2^48 + KEY (R436)
  loc : Tbl W32               -- values of LOCAL items by register address (R423, R580)
  sys : List JRec             -- latest system record of each kind and object (R440)
  replayed : Bool
  busyTo : Option Nat         -- a digest computation runs until this lane cycle (R437)
  waiting : Option (List W32 × Nat × Nat)  -- a completed digest, its size, the lane cycle of its completion (R437)
  digest : Digest
  deriving DecidableEq, Repr

/-- The journal of a part as delivered: empty store (R442; log entry 1, DESIGN CHOICE). -/
def Journal.reset : Journal :=
  { halfA := [], halfB := [], bad := [], activeB := false, fill := 0, gen := 0, seq := 0, commitSeq := 0, nextId := 1,
    cmdQ := [], resQ := [], sysQ := [], cur := none, lastLc := none, compactTurn := false, compact := none, done := [],
    sched := [], deferred := [], suspects := [], unlisted := [], canon := [], loc := [], sys := [], replayed := false, busyTo := none,
    waiting := none, digest := { value := [0, 0, 0, 0, 0, 0, 0, 0], frame := 0, size := 0 } }

end Sys2Proof.Machine
end

