-- ==== Sys2Proof/Machine/StDev.lean ====
section
/-! DEFINITION. State of the Byre, of self-test and life cycle, of the housekeeping ADC and of the fault unit beside
their registers (16_power_byre_startup.md, 17_self_test_lifecycle.md, 18_housekeeping_adc.md,
19_faults_and_recovery.md). Times named kc are keeper-clock edges since the Byre's power-on reset. -/
namespace Sys2Proof.Machine

/-- The states of the Byre (Table 16-2). -/
inductive ByState where
  | sleep | powerup | start | run | drain | powerdown | reset
  deriving DecidableEq, Repr

/-- STATE as BY_STATUS shows it (Table 16-2). -/
def ByState.code : ByState → Nat
  | .sleep => 0 | .powerup => 1 | .start => 2 | .run => 3 | .drain => 4 | .powerdown => 5 | .reset => 6

/-- A keeper comparator pair (R457-R459): states, states last reported, setting in force, setting pending, edge at which
the latest blanking began and the edge at which blanking ends. -/
structure KComp where
  sA : Bool
  sB : Bool
  repA : Bool
  repB : Bool
  thr : W32
  pend : Bool
  blankFrom : Nat
  blankTo : Nat
  deriving DecidableEq, Repr

def KComp.reset : KComp :=
  { sA := false, sB := false, repA := false, repB := false, thr := 0, pend := false,
    blankFrom := 0, blankTo := 0 }

/-- What a held or taken wake carries: its cause (Table 16-5) and its CHMASK (R462, R464). -/
structure WakeHeld where
  cause : Nat
  mask : Nat
  edge : Nat
  deriving DecidableEq, Repr

/-- A write to a Byre register under way (R550): the keeper edge at which it applies, the address, the bits it writes and
their values. -/
structure ByWrite where
  due : Nat
  addr : Nat
  mask : W32
  value : W32
  deriving DecidableEq, Repr

/-- The Byre (16_power_byre_startup.md). -/
structure Byre where
  state : ByState
  kc : Nat
  pwren : BitVec 4          -- PWR_EN3-PWR_EN0
  rails : BitVec 6          -- rails good, in the order of BY_STATUS.RAILS
  stepAt : Nat              -- kc of the last enable edge (R450, R452)
  downFor : Option Nat      -- after the rails fall: a power-up with this cause follows (R453)
  restartAt : Option Nat    -- kc of a restart after a brown-out (R453)
  cause : Nat               -- cause of the present start (Table 16-5)
  ready : Bool              -- level of READY
  readyRisen : Bool         -- READY has risen in this start
  nolock : Bool
  warm : Bool               -- the start is warm (R468)
  steps : BitVec 7          -- PW_STEP
  checks : Bool             -- steps 5 to 7 of R469 have begun
  spots : W256              -- lanes whose spot check of this start is open (R132)
  tready : Nat              -- PW_TREADY
  safe : BitVec 7           -- causes of the safe state (Table 19-9)
  pinLow : Bool             -- SAFE_N sampled low
  wpend : Option WakeHeld
  wokeAt : Option Nat       -- edge of the last wake event (R462)
  passed : Nat × Nat        -- the edge of the latest passing keeper events, and their channels' mask (R464)
  decided : Nat × Nat       -- the edge of the latest request to the Byre, and its place in the order of R475
  sleepHeld : Bool          -- a SLEEP held until RUN (R466)
  drainAt : Nat
  drainSave : List W32      -- wake-record words 5 to 10, as they were when the drain began (R467)
  sleptAt : Nat             -- entry to SLEEP (R464)
  resetEnd : Option Nat     -- HRESET: edge at which the imitated RST_N is high again (R474)
  xk : Bool                 -- the crystal is in use
  xok : Bool
  xtry : Bool               -- the crystal oscillator is starting (R455)
  retryAt : Nat             -- edge of the next try after a failure
  ktLoad : Nat              -- the keeper timer's count when it was loaded, and the edge of that (R461)
  ktAt : Nat
  comps : Tbl KComp
  win : BitVec 4            -- levels of WAKE_IN
  rram : Tbl W32            -- retention RAM by word (R463)
  boot : Nat                -- BY_BOOT
  quar : W32                -- ST_QUAR (R497)
  mirror : List ByWrite     -- mirror writes under way, in order of acceptance (R550)
  deriving DecidableEq, Repr

/-- The Byre right after its power-on reset: SLEEP's register values, enables low, and the safe state of the reset
(R448, R449, R454; log entries 1, 10). -/
def Byre.reset : Byre :=
  { state := .powerup, kc := 0, pwren := 0, rails := 0, stepAt := 0, downFor := none, restartAt := none, cause := 1,
    ready := false, readyRisen := false, nolock := false, warm := false, steps := 0, checks := false, spots := 0, tready := 0, safe := 0,
    pinLow := false, wpend := none, wokeAt := none, passed := (0, 0), decided := (0, 7), sleepHeld := false, drainAt := 0, drainSave := [], sleptAt := 0,
    resetEnd := none, xk := false, xok := false, xtry := false, retryAt := 0, ktLoad := 0, ktAt := 0, comps := [], win := 0,
    rram := [(1, 0x10000000)], boot := 0, quar := 0, mirror := [] }

/-- A life-cycle transition under way (R480-R482): its target, and how far it is. -/
inductive Transition where
  | none
  | toPurge (target startLc : Nat)        -- answered; the purge begins when the response has left, or after 1 ms
  | purging (target doneLc : Nat)
  | blowing (target doneLc : Nat) (after : Bool)  -- `after`: a cold start follows (R481)
  deriving DecidableEq, Repr

/-- A slice of logic BIST in progress (R492, R493). -/
structure Slice where
  cluster : Nat
  start : Nat
  blocks : Nat
  restored : Bool
  failCause : Nat        -- 0 none, 2 SIGNATURE, 3 RESTORE (R495)
  deriving DecidableEq, Repr

/-- Self-test and life cycle. -/
structure SelfTest where
  lcState : Nat             -- life-cycle state in force (R478)
  fuses : Tbl (BitVec 16)   -- the five fuse groups (R478)
  compatFuses : Nat         -- LC_COMPAT fuses blown, 0-63
  compatDis : Bool
  compat : Bool
  compatPend : Bool         -- an accepted COMPAT_SCAN waits for its zeroisation (R486)
  purgeMark : Bool          -- purge-pending mark (R480)
  trans : Transition
  lbPend : W32
  lbRun : W32
  lbOk : W32
  slices : List Slice
  lastEnd : Tbl Nat         -- lane cycle after the end of each cluster's previous slice (R492)
  lastStart : Option Nat
  heldW : List (Nat × W32)  -- register writes that wait for a restore (R493)
  astSrc : Nat              -- ST_STATUS.SRC
  astTodo : List Nat        -- items still to run (R500)
  astPath : Option Path     -- path whose RECOVER waits for completion (R502)
  astLog : List W32         -- ST_AST_LOG
  deriving DecidableEq, Repr

/-- Self-test and life cycle after reset: a part as shipped, PROVISIONED (Table 17-1; log entry 11, PRESUMED). -/
def SelfTest.reset : SelfTest :=
  { lcState := 2, fuses := [(1, 0xFFFF), (2, 0xFFFF)], compatFuses := 0, compatDis := false, compat := false,
    compatPend := false, purgeMark := false, trans := .none, lbPend := 0, lbRun := 0, lbOk := 0, slices := [], lastEnd := [],
    lastStart := none, heldW := [], astSrc := 0, astTodo := [], astPath := none, astLog := [] }

/-- A started sequence of tenant conversions: requested start R (lane cycles), its source, the entries still to convert
(R509, R512). -/
structure AdcSeq where
  r : Nat
  ft : Bool
  entries : List Nat
  first : Bool           -- no conversion of it has begun
  deriving DecidableEq, Repr

/-- A conversion in progress: the entry and the fields used, C in sequencer cycles, flags (R508, R511, R517). -/
structure AdcConv where
  entry : Nat
  cfg : W32
  ft : Bool
  c : Nat
  woke : Bool
  settling : Bool
  deriving DecidableEq, Repr

/-- The housekeeping ADC. Times in sequencer cycles but where named lc. -/
structure Adc where
  seqs : List AdcSeq
  conv : Option AdcConv
  endAt : Nat            -- end of the last conversion
  powered : Bool
  range : Nat            -- range of the last conversion (R517)
  evBusy : Bool          -- the event consumer (R513)
  evHeld : Bool
  ftBusy : Bool          -- a frame-timer sequence has not written its last result
  sysEnd : Nat           -- end of the last system conversion
  test : Bool            -- the self-test holds the ADC (R514)
  lastEntry : Nat
  ftAt : Option Nat      -- lane cycle of the frame timer's next request (R509)
  deriving DecidableEq, Repr

def Adc.reset : Adc :=
  { seqs := [], conv := none, endAt := 0, powered := false, range := 0, evBusy := false, evHeld := false, ftBusy := false,
    sysEnd := 0, test := false, lastEntry := 0, ftAt := none }

/-- An entry of the fault log (Table 19-5). -/
structure LogEntry where
  seq : Nat
  code : Nat
  rep : Nat              -- REPEAT
  obj : Nat
  frame : Nat
  frozen : Bool
  epoch : W32
  time : Nat
  detail : W64
  deriving DecidableEq, Repr

/-- The flags of a counter (R540, R541). -/
structure OvfFlag where
  ovf : Bool
  lost : Bool
  frame : Nat
  deriving DecidableEq, Repr

def OvfFlag.reset : OvfFlag := { ovf := false, lost := false, frame := 0 }

/-- The fault unit. -/
structure FaultUnit where
  seq : Nat                       -- SEQ of the newest entry detected
  newest : Option LogEntry        -- the newest entry detected (R527)
  buf : List LogEntry             -- entries waiting to be written, oldest first, at most 16
  logDue : Nat                    -- lane cycle in which the oldest of them is in the log
  ecc : Tbl W32                   -- counters of R532: 3 × memory ID + 0 DATA, 1 CHECKBIT, 2 MULTI
  ovf : Tbl OvfFlag               -- by counter address
  ovfLog : List W32               -- FL_OVF_LOG, oldest first, at most 16
  clears : List (Nat × Nat)       -- counter clears under way: lane cycle of effect, address (R541)
  cleared : List (Nat × Nat × Nat)  -- clears of the latest lane cycle with any: lane cycle, address, count before
  deriving DecidableEq, Repr

def FaultUnit.reset : FaultUnit :=
  { seq := 0, newest := none, buf := [], logDue := 0, ecc := [], ovf := [], ovfLog := [], clears := [], cleared := [] }

/-- What the lane cycle `lc` has done to registers so far, for an access of that lane cycle (R15): W1C bits that hardware
set, by address; RC registers that hardware updated, with the value before and the value of the updates alone; RW registers
that were written, with the value before; counters that carried, that lost an increment, and that incremented, with the value
before (R540, R541). -/
structure SameCycle where
  lc : Nat
  sets : List (Nat × W32)
  rcs : List (Nat × W32 × W32)
  writes : List (Nat × W32)
  carries : List Nat
  losts : List Nat
  olds : List (Nat × W32)
  deriving DecidableEq, Repr

def SameCycle.reset : SameCycle := { lc := 0, sets := [], rcs := [], writes := [], carries := [], losts := [], olds := [] }

end Sys2Proof.Machine
end

