-- ==== Sys2Proof/Machine/State.lean ====
section
/-! DEFINITION. The state of the TQ-512 as plain data, the reasons a step can stop, and the state after reset.

Registers that are plain words (configuration, event, counter and latched registers) are kept in `regs` by address, an
unlisted one at its reset value (`regReset`); every other register is a view of the structures below, so that each datum
has one home. Numbered units (lanes, contexts, clusters, streams, tenants, ports) are tables whose unlisted cells are in
their reset state. -/
namespace Sys2Proof.Machine

/-- Faults: none. The spec gives the block no behaviour that stops it: what goes wrong is reported in registers, the log
and records (R522). No meaning raises the one name declared here. -/
inductive Fault where
  /-- Raised by no meaning (safe). -/
  | none
  deriving DecidableEq, Repr

/-- Refusals. -/
inductive Refusal where
  /-- Raised by an arm of Dispatch whose command has no meaning yet; the argument is its mnemonic (safe: it stops). -/
  | notModelled (mnemonic : String)
  /-- Raised by a meaning whose operand names a unit the device does not have: lane 256, cluster 32 (safe: such a command
  cannot be given to the device). -/
  | noSuchUnit
  deriving DecidableEq, Repr

/-- The state. -/
structure State where
  now : Nat               -- sequencer cycles since the release of the core; two in a lane cycle (R4, R31)
  released : Bool         -- the core is released from reset, and its clocks run (R450, R485)
  free : Nat              -- number of the next free value (log entry 6, DESIGN CHOICE; the model's own field)
  regs : Tbl W32          -- registers that are plain words, by address (chapter 20)
  otp : Tbl W32           -- OTP words written in service; others read as Config.otpWord (log entry 2, DESIGN CHOICE)
  shadow : Tbl W32        -- shadows of high words: path number × 2^32 + address (R539)
  busData : List W32      -- what the last register read returned (log entry 7, DESIGN CHOICE)
  busStatus : Nat         -- code of the last register write (log entry 7, DESIGN CHOICE)
  tb : Timebase
  syn : Synth
  fr : Frames
  pl : Tbl PulseLane      -- by lane 0-255
  sl : Tbl StampLane
  rg : Tbl Measure
  cl : Tbl Cluster        -- by cluster 0-31
  cx : Tbl Ctx            -- by device-wide context 0-2,047
  pb : Tbl Playback       -- by pulse lane
  sp : Sep
  ev : Ev
  tn : TenUnit
  pt : Tbl Port           -- P0, P1, P3
  ttc : Ttc
  mspi : Mspi
  jtag : Jtag
  jr : Journal
  byre : Byre
  st : SelfTest
  ad : Adc
  fl : FaultUnit
  acc : SameCycle         -- what the present lane cycle has done to registers (R15)
  pending : List Instr    -- commands waiting, first in, first out
  deriving DecidableEq, Repr

/-- What a meaning answers. -/
abbrev Res := Host.Outcome State Fault Refusal

/-- The device right after the Byre's power-on reset: the core is not released yet, every register has the value of its
field table (R449, R552), and no command waits. -/
def State.reset : State :=
  { now := 0, released := false, free := 0, regs := [], otp := [], shadow := [], busData := [], busStatus := 0,
    tb := Timebase.reset, syn := Synth.reset, fr := Frames.reset, pl := [], sl := [], rg := [], cl := [], cx := [],
    pb := [], sp := Sep.reset, ev := Ev.reset, tn := TenUnit.reset, pt := [], ttc := Ttc.reset, mspi := Mspi.reset,
    jtag := Jtag.reset, jr := Journal.reset, byre := Byre.reset, st := SelfTest.reset, ad := Adc.reset,
    fl := FaultUnit.reset, acc := SameCycle.reset, pending := [] }

end Sys2Proof.Machine
end

