-- ==== Sys2Proof/Machine/Ops.lean ====
section
/-! DEFINITION. The operations every meaning shares: time, registers, events, counters and their overflow flags, the fault
log and FAULT_N, fault records, ownership and rights of capability records, producers of events. -/
namespace Sys2Proof.Machine

/-! ### Answers -/

/-- The meaning's effect where its operand names a unit the device has; the refusal `noSuchUnit` otherwise. -/
def onUnit (ok : Bool) (t : State) : Res := if ok then .next t else .refused .noSuchUnit

/-- The effect where its condition holds; otherwise the event does not take place and nothing changes (log entry 3, DESIGN CHOICE). -/
def when (c : Bool) (f : State → State) (s : State) : State := if c then f s else s

/-- A number from the spec's open values: the free value of the present count, and the count advanced (log entry 6, DESIGN CHOICE). -/
def takeFree (s : State) : Nat × State := (Config.freeNat s.free, { s with free := s.free + 1 })

/-- Fold of a state over the numbers 0 to n - 1. -/
def forN : Nat → (Nat → State → State) → State → State
  | 0, _, s => s
  | n + 1, f, s => f n (forN n f s)

/-- Fold of a state over a list. -/
def forL {α : Type} (f : α → State → State) : List α → State → State
  | [], s => s
  | x :: t, s => forL f t (f x s)

/-! ### Time (R4-R6, R31) -/

/-- The lane cycle in progress, counted from the release of the core. -/
def lc (s : State) : Nat := s.now / 2

/-- Time passes to the sequencer cycle n; it never runs back (log entry 4, DESIGN CHOICE).
(log entry 70, DESIGN CHOICE) -/
def passTo (n : Nat) (s : State) : State := { s with now := max s.now n }

/-- Time passes to the start of lane cycle n. -/
def toLc (n : Nat) (s : State) : State := passTo (2 * n) s

/-- Absolute time at the start of lane cycle n: it advances by 16,384 drops in a lane cycle while it runs (R5, R53,
R60); the frozen value otherwise. -/
def absAt (s : State) (n : Nat) : W64 :=
  if s.fr.running then s.fr.base + BitVec.ofNat 64 n * 16384#64 - BitVec.ofNat 64 s.fr.baseLc * 16384#64 else s.fr.base

/-- Absolute time at the start of the present lane cycle (NOW, TB_TIME). -/
def absNow (s : State) : W64 := absAt s (lc s)

/-- Drops from the start of the frame in progress to the start of the present lane cycle; 0 while time is frozen. -/
def frameOff (s : State) : Nat := if s.fr.running then (absNow s - s.fr.start).toNat % 2 ^ 32 else 0

/-- What passes while no command waits: one lane cycle while the core runs, one keeper cycle while it is held in reset
(log entry 4, DESIGN CHOICE). (log entry 60, DESIGN CHOICE) -/
def idleStep (s : State) : State :=
  if s.released then { s with now := s.now + 2 } else { s with byre := { s.byre with kc := s.byre.kc + 1 } }

/-- Run time in drops: 16,384 for each lane cycle since the release. -/
def rdNow (s : State) : Nat := lc s * 16384

/-- The run time at which absolute time is, was or would have been T, by the time base in force (R5). -/
def rdOf (s : State) (t : W64) : Nat := ((s.fr.baseLc * 16384 : Nat) + (t - s.fr.base).toInt).toNat

/-- The lane cycle that contains absolute time T. -/
def lcOf (s : State) (t : W64) : Nat := rdOf s t / 16384

/-- A time difference read as signed is negative (R108). -/
def neg64 (x : W64) : Bool := decide (2 ^ 63 ≤ x.toNat)

/-- Time T lies in the frame in progress. -/
def inFrame (s : State) (t : W64) : Bool := s.fr.running && decide ((t - s.fr.start).toNat < s.fr.period * 16384)

/-! ### Registers -/

/-- A register that is a plain word. -/
def reg (s : State) (r : Reg) : W32 := tget (regReset r) (regAddr r) s.regs

/-- A register set. -/
def setReg (r : Reg) (v : W32) (s : State) : State := { s with regs := tset (regReset r) (regAddr r) v s.regs }

/-- A field of a register, as a number. -/
def rfld (s : State) (r : Reg) (lo n : Nat) : Nat := fld (reg s r) lo n

/-- A bit of a register. -/
def rbit (s : State) (r : Reg) (b : Nat) : Bool := rfld s r b 1 == 1

/-- A register with a field replaced. -/
def setRfld (r : Reg) (lo n v : Nat) (s : State) : State := setReg r (setFld (reg s r) lo n v) s

/-- What the present lane cycle has done to registers. -/
def accNow (s : State) : SameCycle := if s.acc.lc = lc s then s.acc else { SameCycle.reset with lc := lc s }

/-- The bits of the register at address a that hardware has set in the present lane cycle. -/
def setNow (s : State) (a : Nat) : W32 :=
  ((accNow s).sets.filter fun p => p.1 == a).foldl (fun w p => w ||| p.2) 0

/-- Hardware sets bits m of the register at address a in the present lane cycle. -/
def noteSet (a : Nat) (m : W32) (s : State) : SameCycle :=
  let c := accNow s
  if c.sets.contains (a, m) then c else { c with sets := c.sets ++ [(a, m)] }

/-- An event flag raised: bit b of an events register set (R15). -/
def raise (r : Reg) (b : Nat) (s : State) : State :=
  { setReg r (reg s r ||| at32 1 b) s with acc := noteSet (regAddr r) (at32 1 b) s }

/-- An event flag of a Byre register raised: writes of it that are under way no longer clear it (R15, R550). -/
def raiseBy (r : Reg) (b : Nat) (s : State) : State :=
  let s := raise r b s
  let a := regAddr r
  let spare (w : W32) : W32 := w &&& ~~~(at32 1 b)
  let mirror := s.byre.mirror.map fun m => if m.addr == a then { m with mask := spare m.mask } else m
  let wbuf := s.mspi.wbuf.map fun p => if 0x700000 + p.1 == a then (p.1, spare p.2) else p
  { s with byre := { s.byre with mirror := mirror }, mspi := { s.mspi with wbuf := wbuf } }

/-- The value of register r before the writes of the present lane cycle. -/
def regBefore (s : State) (r : Reg) : W32 :=
  match (accNow s).writes.find? fun p => p.1 == regAddr r with
  | some p => p.2
  | none => reg s r

/-- Register r has been written in the present lane cycle. -/
def writtenNow (s : State) (r : Reg) : Bool := (accNow s).writes.any fun p => p.1 == regAddr r

/-- A write of register r begins: its value before is kept for the lane cycle. -/
def noteWrite (r : Reg) (s : State) : State :=
  if writtenNow s r then s else { s with acc := { accNow s with writes := (accNow s).writes ++ [(regAddr r, reg s r)] } }

/-- The entry of an RC register that hardware has updated in the present lane cycle: its value before, and the value of the
updates alone. -/
def rcNow (s : State) (r : Reg) : Option (W32 × W32) :=
  ((accNow s).rcs.find? fun p => p.1 == regAddr r).map (·.2)

/-- What a read of RC register r returns: the value before an update of the same lane cycle (R15). -/
def rcValue (s : State) (r : Reg) : W32 := ((rcNow s r).map (·.1)).getD (reg s r)

/-- An RC register's entry of the present lane cycle replaced. -/
def setRc (r : Reg) (v : W32 × W32) (s : State) : State :=
  { s with acc := { accNow s with rcs := (accNow s).rcs.filter (fun p => p.1 != regAddr r) ++ [(regAddr r, v)] } }

/-- Hardware updates RC register r by f, where a read leaves it at `clear`. -/
def rcUpdate (r : Reg) (clear : W32) (f : W32 → W32) (s : State) : State :=
  let e := (rcNow s r).getD (reg s r, clear)
  setRc r (e.1, f e.2) (setReg r (f (reg s r)) s)

/-- RC register r is read and cleared: the updates of the same lane cycle are kept for the next read (R15). -/
def rcRead (r : Reg) (clear : W32) (s : State) : State :=
  match rcNow s r with
  | some e => setRc r (clear, e.2) (setReg r e.2 s)
  | none => setReg r clear s

/-- The RW fields of a register written, its other bits kept (R14). -/
def writeRw (r : Reg) (v : W32) (s : State) : State :=
  setReg r ((reg s r &&& ~~~ (regRwMask r)) ||| (v &&& regRwMask r)) s

/-- The W1C bits written as 1 cleared, but those that hardware has set in the same lane cycle (R15). -/
def writeW1c (r : Reg) (v : W32) (s : State) : State :=
  setReg r (reg s r &&& ~~~ (v &&& regW1cMask r &&& ~~~ setNow s (regAddr r))) s

/-! ### Units by number -/

def pulse (s : State) (k : Nat) : PulseLane := tget PulseLane.reset k s.pl
def setPulse (k : Nat) (l : PulseLane) (s : State) : State := { s with pl := tset PulseLane.reset k l s.pl }
def modPulse (k : Nat) (f : PulseLane → PulseLane) (s : State) : State := setPulse k (f (pulse s k)) s
def stamp (s : State) (k : Nat) : StampLane := tget StampLane.reset k s.sl
def setStamp (k : Nat) (l : StampLane) (s : State) : State := { s with sl := tset StampLane.reset k l s.sl }
def modStamp (k : Nat) (f : StampLane → StampLane) (s : State) : State := setStamp k (f (stamp s k)) s
def meas (s : State) (k : Nat) : Measure := tget Measure.reset k s.rg
def setMeas (k : Nat) (m : Measure) (s : State) : State := { s with rg := tset Measure.reset k m s.rg }
def modMeas (k : Nat) (f : Measure → Measure) (s : State) : State := setMeas k (f (meas s k)) s
def cluster (s : State) (c : Nat) : Cluster := tget Cluster.reset c s.cl
def setCluster (c : Nat) (u : Cluster) (s : State) : State := { s with cl := tset Cluster.reset c u s.cl }
def modCluster (c : Nat) (f : Cluster → Cluster) (s : State) : State := setCluster c (f (cluster s c)) s
def ctx (s : State) (x : Nat) : Ctx := tget Ctx.reset x s.cx
def setCtx (x : Nat) (u : Ctx) (s : State) : State := { s with cx := tset Ctx.reset x u s.cx }
def modCtx (x : Nat) (f : Ctx → Ctx) (s : State) : State := setCtx x (f (ctx s x)) s
def playback (s : State) (k : Nat) : Playback := tget Playback.reset k s.pb
def setPlayback (k : Nat) (u : Playback) (s : State) : State := { s with pb := tset Playback.reset k u s.pb }
def modPlayback (k : Nat) (f : Playback → Playback) (s : State) : State := setPlayback k (f (playback s k)) s
def stream (s : State) (m : Nat) : Stream := tget Stream.reset m s.sp.streams
def setStream (m : Nat) (u : Stream) (s : State) : State :=
  { s with sp := { s.sp with streams := tset Stream.reset m u s.sp.streams } }
def modStream (m : Nat) (f : Stream → Stream) (s : State) : State := setStream m (f (stream s m)) s
def tenant (s : State) (t : Nat) : Tenant := tget Tenant.reset t s.tn.tens
def setTenant (t : Nat) (u : Tenant) (s : State) : State :=
  { s with tn := { s.tn with tens := tset Tenant.reset t u s.tn.tens } }
def modTenant (t : Nat) (f : Tenant → Tenant) (s : State) : State := setTenant t (f (tenant s t)) s
def port (s : State) (p : Nat) : Port := tget Port.reset p s.pt
def setPort (p : Nat) (u : Port) (s : State) : State := { s with pt := tset Port.reset p u s.pt }
def modPort (p : Nat) (f : Port → Port) (s : State) : State := setPort p (f (port s p)) s

/-- The cluster of a pulse lane and of a stamp lane (R24, R25). -/
def pulseCl (k : Nat) : Nat := k / 16
def stampCl (k : Nat) : Nat := 16 + k / 16

/-! ### Counters (R540, R541) -/

/-- The flags of the counter at address a. -/
def ovfFlag (s : State) (a : Nat) : OvfFlag := tget OvfFlag.reset a s.fl.ovf

/-- A counter carries out of bit 31: its flag, frame, log entry and event (R540). -/
def carried (a : Nat) (s : State) : State :=
  let o := ovfFlag s a
  let o' := { o with ovf := true, frame := if o.ovf then o.frame else s.fr.count }
  let fl := { s.fl with
    ovf := tset OvfFlag.reset a o' s.fl.ovf
    ovfLog := if s.fl.ovfLog.length < 16 then s.fl.ovfLog ++ [BitVec.ofNat 32 a ||| 1#32] else s.fl.ovfLog }
  raise .flEvents 2 { s with fl := fl, acc := { accNow s with carries := (accNow s).carries ++ [a] } }

/-- A clear of the counter at address a falls in the present lane cycle: the count that it clears, where `v` is the count
now (R541). (log entry 68, DEDUCED) -/
def clearingNow (s : State) (a v : Nat) : Option Nat :=
  match s.fl.cleared.find? fun p => p.1 == lc s && p.2.1 == a with
  | some p => some p.2.2
  | none => if s.fl.clears.any fun p => p.1 == lc s && p.2 == a then some v else none

/-- The counter at address a, which holds v, increments in the present lane cycle: a read in it returns the first value
(R540). -/
def noteOld (a : Nat) (v : W32) (s : State) : SameCycle :=
  let c := accNow s
  if c.olds.any fun p => p.1 == a then c else { c with olds := c.olds ++ [(a, v)] }

/-- An increment is lost to a clear: LOST, and OVF where it would have carried (R541). -/
def incrementLost (a v : Nat) (s : State) : State :=
  let o := ovfFlag s a
  let s := { s with fl := { s.fl with ovf := tset OvfFlag.reset a { o with lost := true } s.fl.ovf },
                    acc := { accNow s with losts := (accNow s).losts ++ [a] } }
  if v < 2 ^ 32 then s else carried a s

/-- A cumulative counter of 32 bits increments by n. -/
def countN (r : Reg) (n : Nat) (s : State) : State :=
  let v := (reg s r).toNat + n
  match clearingNow s (regAddr r) (reg s r).toNat with
  | some b => incrementLost (regAddr r) (b + n) s
  | none =>
    let s' := { setReg r (BitVec.ofNat 32 v) s with acc := noteOld (regAddr r) (reg s r) s }
    if v < 2 ^ 32 then s' else carried (regAddr r) s'

/-- A cumulative counter of 32 bits increments. -/
def count (r : Reg) (s : State) : State := countN r 1 s

/-! ### The fault log, FAULT_N and fault records (R523-R528) -/

/-- The codes that drive FAULT_N at their detection (Table 19-2); TIMEBASE_LOSS except at R472. -/
def drivesFault (code : Nat) : Bool :=
  [0x09, 0x0D, 0x11, 0x13, 0x15, 0x17, 0x1A].contains code

/-- FL_FPEND bit n is set (R528). -/
def fpend (code : Nat) (s : State) : State := raise .flFpend code s

/-- The successor of a sequence number of the log (R527). -/
def logSucc (n : Nat) : Nat := if n = 0xFFFFFFC0 then 1 else n + 1

/-- An entry with one further occurrence folded in; REPEAT saturates (R527). -/
def bumpEntry (e : LogEntry) : LogEntry := { e with rep := min 255 (e.rep + 1) }

/-- The retention-RAM word of an entry that holds CODE, REPEAT and OBJECT (R526). -/
def logWord (seq : Nat) : Nat := 0x200 + 8 * ((seq - 1) % 64) + 1

/-- The retention RAM with the REPEAT of the written entry `seq` incremented. -/
def bumpWritten (seq : Nat) (rram : Tbl W32) : Tbl W32 :=
  let w : W32 := tget 0 (logWord seq) rram
  tset 0 (logWord seq) (setFld w 16 8 (min 255 (fld w 16 8 + 1))) rram

/-- A detection with its code, object and detail: folded into the newest entry where R527 says so, otherwise a new entry
in the write buffer, or dropped where that is full. (log entry 71, DEDUCED) -/
def logOnly (code obj : Nat) (detail : W64) (s : State) : State :=
  let same : Bool := match s.fl.newest with
    | some e => e.code == code && e.obj == obj && e.frame == s.fr.count && e.epoch == reg s .tbEpoch && e.frozen == !s.fr.running
    | none => false
  if same then
    let waits := s.fl.buf.any fun e => e.seq == s.fl.seq
    let buf := s.fl.buf.map fun e => if e.seq = s.fl.seq then bumpEntry e else e
    let rram := if waits then s.byre.rram else bumpWritten s.fl.seq s.byre.rram
    { s with fl := { s.fl with newest := s.fl.newest.map bumpEntry, buf := buf }, byre := { s.byre with rram := rram } }
  else if s.fl.buf.length < 16 then
    let n := logSucc s.fl.seq
    let e : LogEntry :=
      { seq := n, code := code, rep := 0, obj := obj, frame := s.fr.count, frozen := !s.fr.running,
        epoch := reg s .tbEpoch, time := frameOff s, detail := detail }
    let due := if s.fl.buf.isEmpty then lc s + 8 else s.fl.logDue
    { s with fl := { s.fl with seq := n, newest := some e, buf := s.fl.buf ++ [e], logDue := due } }
  else raise .flEvents 3 (count .flLogDropCnt s)

/-- A fault that the log and FAULT_N report (R523, R528). -/
def logFault (code obj : Nat) (detail : W64) (s : State) : State :=
  let s' := logOnly code obj detail s
  if drivesFault code then fpend code s' else s'

/-- A record on its way to the Separator (R308). -/
def emitRec (r : SpRec) (s : State) : State := { s with sp := { s.sp with inbound := s.sp.inbound ++ [r] } }

/-- This device's chain position (R23). -/
def chainPos (s : State) : Nat := rfld s .spChain 0 4

/-- A fault record with bits [59:32] `top`, to the home stream of tenant t (R524, R525). -/
def faultRec (t : Nat) (top : Nat) (s : State) : State :=
  let w (time : Nat) : W64 := at64 0x6 60 ||| at64 (top % 2 ^ 28) 32 ||| at64 time 0
  if s.fr.running then
    emitRec { tenant := t, stream := none, frame := s.fr.ticks, words := [w (frameOff s)], pos := chainPos s } s
  else
    { s with sp := { s.sp with later := s.sp.later ++
        [{ tenant := t, stream := none, frame := 0, words := [w 0], pos := chainPos s }] } }

/-- A fault record of the general form (Table 19-3). -/
def faultGen (t code obj : Nat) (s : State) : State := faultRec t (code * 2 ^ 16 + obj) s

/-! ### Flags of the present frame (Table 11-8) -/

def modFr (f : Frames → Frames) (s : State) : State := { s with fr := f s.fr }

def flagWrap : BitVec 8 := 2
def flagCold : BitVec 8 := 4
def flagDegraded : BitVec 8 := 16

/-- A flag of the header of every packet of the present frame is set. (log entry 69, DEDUCED) -/
def frameFlag (b : BitVec 8) (s : State) : State := modFr (fun f => { f with flags := f.flags ||| b }) s

/-! ### Memory errors (R532) -/

/-- The address of the counter of class cls: DATA 0, CHECKBIT 1, MULTI 2. -/
def eccCntAddr (cls : Nat) : Nat := regAddr .flEccDataCnt + 4 * cls

/-- An error of class cls met in memory mem counts (Table 19-7); the counters that FL_ECC_SEL shows can be cleared (R541). -/
def eccErr (mem cls : Nat) (s : State) : State :=
  let i := 3 * mem + cls
  let v := (tget (0 : W32) i s.fl.ecc).toNat
  let s := raise .flEvents (if cls = 2 then 1 else 0) s
  match if rfld s .flEccSel 0 4 = mem then clearingNow s (eccCntAddr cls) v else none with
  | some b => incrementLost (eccCntAddr cls) (b + 1) s
  | none =>
    let seen := rfld s .flEccSel 0 4 = mem
    let acc := if seen then noteOld (eccCntAddr cls) (BitVec.ofNat 32 v) s else s.acc
    let s' := { s with fl := { s.fl with ecc := tset 0 i (BitVec.ofNat 32 (v + 1)) s.fl.ecc }, acc := acc }
    if v + 1 < 2 ^ 32 then s' else carried (eccCntAddr cls) s'

/-- An uncorrectable word of memory mem is met: counted, latched and logged (R532, Table 19-6); `hi` is the part of
DETAIL that a context's read gives. -/
def eccMulti (mem cl word hi : Nat) (s : State) : State :=
  logFault 0x09 (mem * 2 ^ 12 + cl) (at64 hi 32 ||| at64 (word % 2 ^ 22) 0)
    (setReg .flEccLast (at32 1 31 ||| at32 mem 27 ||| at32 cl 22 ||| at32 (word % 2 ^ 22) 0) (eccErr mem 2 s))

/-! ### Memories of the clusters (R373, R548) -/

/-- Word k of a memory of cluster c is being cleared. -/
def beingCleared (s : State) (c : Nat) (data : Bool) (k : Nat) : Bool :=
  s.tn.clearing.any fun q => q.cluster == c && q.data == data && decide (q.first ≤ k) && decide (k < q.first + q.count)

/-- A word of instruction memory, of data memory, as any path reads it: 0 while it is being cleared. -/
def codeAt (s : State) (c k : Nat) : W32 := if beingCleared s c false k then 0 else tget 0 k (cluster s c).imem
def dataAt (s : State) (c k : Nat) : W64 := if beingCleared s c true k then 0 else tget 0 k (cluster s c).dmem

/-- The word is uncorrectable. -/
def codeBad (s : State) (c k : Nat) : Bool := !beingCleared s c false k && (cluster s c).imemBad.contains k
def dataBad (s : State) (c k : Nat) : Bool := !beingCleared s c true k && (cluster s c).dmemBad.contains k

/-- A write of word k of a memory of cluster c is wiped by a clearing that reaches the word no earlier, one word in a lane
cycle (R373; log entry 77, DESIGN CHOICE). -/
def wiped (s : State) (c : Nat) (data : Bool) (k : Nat) : Bool :=
  s.tn.clearing.any fun q => q.cluster == c && q.data == data && decide (q.first ≤ k) && decide (k < q.first + q.count) &&
    decide (lc s + q.count ≤ q.due + (k - q.first))

/-! ### Capability records (R356-R359) -/

/-- Word w of the record of tenant t, all 0 in ABSENT (R358); while a clearing runs, the previous grant (R373). -/
def capWord (s : State) (t w : Nat) : W32 :=
  let u := tenant s t
  if u.state = .absent then 0 else
    match u.held.find? (fun p => p.1 = w) with
    | some p => p.2
    | none => tget 0 w u.caps

/-- Bit j of a bitmap that begins at word w of the record of tenant t. -/
def capBit (s : State) (t w j : Nat) : Bool := fld (capWord s t (w + j / 32)) (j % 32) 1 == 1

/-- A service right of Table 13-4; the steward holds every right (R357). -/
def service (s : State) (t b : Nat) : Bool := t == 0 || capBit s t 0 b

/-- The tenants the device knows, by number. -/
def tenantNos (s : State) : List Nat := s.tn.tens.map (·.1)

/-- The owner of a pulse lane and of a stamp lane, as capability records grant them (R134, R361). -/
def pulseOwner (s : State) (k : Nat) : Option Nat := (tenantNos s).find? (fun t => capBit s t 1 k)
def stampOwner (s : State) (k : Nat) : Option Nat := (tenantNos s).find? (fun t => capBit s t 9 k)

/-- Whether tenant t owns the pulse lane, the stamp lane. -/
def ownsPulse (s : State) (t k : Nat) : Bool := capBit s t 1 k
def ownsStamp (s : State) (t k : Nat) : Bool := capBit s t 9 k

/-- Rights on channels (Table 12-4): word `w` is MCONS 17, MSIG 25 or MCTL 33 for a Milkline channel, and CCONS 3, CSIG 4
or CCTL 5 of the cluster block for a cluster channel. -/
def milkRight (s : State) (t w n : Nat) : Bool := t == 0 || capBit s t w n
def clusRight (s : State) (t c w n : Nat) : Bool := t == 0 || fld (capWord s t (64 + 8 * c + w)) n 1 == 1

/-- Control of a group. -/
def groupRight (s : State) (t g : Nat) : Bool := t == 0 || capBit s t 41 g

/-- The context's tenant, and whether its entry is valid (SQ_CTX_CFG, R188). -/
def ctxTenant (u : Ctx) : Nat := fld u.cfg 0 10
def ctxValid (u : Ctx) : Bool := fld u.cfg 31 1 == 1

/-- The tenants with a lane or a context in cluster c. -/
def clusterTenants (s : State) (c : Nat) : List Nat :=
  (tenantNos s).filter fun t =>
    (List.range 16).any (fun n => if c < 16 then ownsPulse s t (16 * c + n) else ownsStamp s t (16 * (c - 16) + n)) ||
    s.cx.any (fun p => p.1 / 64 == c && ctxValid p.2 && ctxTenant p.2 == t)

/-- The tenants that own a lane of cluster c. -/
def laneTenants (s : State) (c : Nat) : List Nat :=
  (tenantNos s).filter fun t =>
    (List.range 16).any (fun n => if c < 16 then ownsPulse s t (16 * c + n) else ownsStamp s t (16 * (c - 16) + n))

/-! ### Streams (R304, R305) -/

/-- Stream m is usable. -/
def streamOn (s : State) (m : Nat) : Bool := rbit s (.spSCfg m) 31

/-- The owner of stream m. -/
def streamOwner (s : State) (m : Nat) : Nat := rfld s (.spSCfg m) 0 10

/-- The streams with an entry that is not at its reset value, by number. -/
def streamNos (s : State) : List Nat :=
  (s.regs.filter fun p => 0x301000 ≤ p.1 && p.1 < 0x305000 && (p.1 - 0x301000) % 16 == 0).map
    fun p => (p.1 - 0x301000) / 16

/-- The home stream of tenant t (R305). -/
def homeOf (s : State) (t : Nat) : Option Nat :=
  (streamNos s).find? fun m => streamOn s m && rbit s (.spSCfg m) 30 && streamOwner s m == t

/-- n records of stream m are lost (R337). -/
def loseN (m n : Nat) (s : State) : State :=
  if n = 0 then s else
  countN (.spSLoss m) n (modStream m (fun u => { u with loss := min (2 ^ 32 - 1) (u.loss + n) }) s)

/-- A record of the home stream of tenant t is lost, if it has one (R164, R306). -/
def loseHome (t : Nat) (s : State) : State :=
  match homeOf s t with
  | some m => loseN m 1 s
  | none => s

/-! ### Clusters out of service (R491, R493, R496) -/

/-- Cluster c is in a slice of logic BIST. -/
def outOfService (s : State) (c : Nat) : Bool := fld s.st.lbRun c 1 == 1

/-- Cluster c is quarantined. -/
def quarantined (s : State) (c : Nat) : Bool := fld s.byre.quar c 1 == 1

/-- Cluster c is pending for logic BIST and held drained (R491). -/
def lbPending (s : State) (c : Nat) : Bool := fld s.st.lbPend c 1 == 1

/-- The restrictions of R491 on cluster c: none, or the code of the refusal (R491, R496). -/
def held (s : State) (c : Nat) : Option Nat :=
  if quarantined s c then some 0x11 else if lbPending s c then some 0x0A else none

/-! ### Producers (R342, R344, R345) -/

/-- The channels that list producer code `p` in a slot: Milkline channels 0-255, cluster channels 256 + 32c + n. -/
def channelsOf (s : State) (p : Nat) : List Nat :=
  s.regs.filterMap fun e =>
    let a := e.1
    let hit := fld e.2 0 12 == p || fld e.2 16 12 == p
    if !hit then none
    else if 0x100000 ≤ a && a < 0x102000 && 4 ≤ a % 0x20 && a % 0x20 < 0x14 then some ((a - 0x100000) / 0x20)
    else if 0x1000000 ≤ a && a < 0x3000000 && 0x400 ≤ a % 0x100000 && a % 0x100000 < 0x800 && 4 ≤ a % 0x20 && a % 0x20 < 0x14 then
      some (256 + 32 * ((a - 0x1000000) / 0x100000) + (a % 0x100000 - 0x400) / 0x20)
    else none

/-- The producer codes in the slots of channel ch. -/
def slotsOf (s : State) (ch : Nat) : List Nat :=
  (List.range 4).flatMap fun i =>
    let v := if ch < 256 then reg s (.evMcProd ch i) else reg s (.clCcProd ((ch - 256) / 32) ((ch - 256) % 32) i)
    [fld v 0 12, fld v 16 12]

/-- A channel's event that begins in lane cycle n: assertions within one lane cycle form one event (R344). -/
def beginEvent (n ch : Nat) (s : State) : State :=
  if s.ev.asserted.contains (n, ch) || tget 0 ch s.ev.lastEv == n + 1 then s
  else { s with ev := { s.ev with asserted := s.ev.asserted ++ [(n, ch)] } }

/-- The producers of a cluster out of service or quarantined are silent (R493, R496): kinds 1 to 4 of Table 12-1. -/
def producerSilent (s : State) (kind idx : Nat) : Bool :=
  let quiet (c : Nat) : Bool := outOfService s c || quarantined s c
  match kind with
  | 1 => quiet (pulseCl idx)
  | 2 => quiet (stampCl idx)
  | 3 => quiet (stampCl idx)
  | 4 => quiet idx
  | _ => false

/-- The event of an assertion begins on channel ch. -/
def Signal.begins (g : Signal) (ch : Nat) : Nat := if ch < 256 then g.lc else g.clusLc

/-- An assertion begins an event on each channel that lists its producer, and is kept while a new list could apply to it
(R344, R345, R355). -/
def signal (g : Signal) (s : State) : State :=
  let chs := (channelsOf s g.code).eraseDups.filter fun ch => g.only.all (· == ch)
  forL (fun ch => beginEvent (g.begins ch) ch) chs
    { s with ev := { s.ev with signals := s.ev.signals.filter (fun q => lc s ≤ q.lc) ++ [g] } }

/-- The producer of a kind and index asserts in lane cycle n: on Milkline channels the event begins there, on cluster
channels in the lane cycle after (R345). -/
def produce (kind idx n : Nat) (s : State) : State :=
  if producerSilent s kind idx then s else signal { lc := n, clusLc := n + 1, code := kind * 256 + idx, only := none } s

/-- The producer list of channel ch has changed in the present lane cycle: the new one applies to the assertions from it on
(R355). -/
def producersChanged (ch : Nat) (s : State) : State :=
  let gs := s.ev.signals.filter fun g => lc s ≤ g.lc
  let s := { s with ev := { s.ev with asserted := s.ev.asserted.filter fun p =>
    !(p.2 == ch && gs.any fun g => g.begins ch == p.1) } }
  forL (fun g s => if (slotsOf s ch).contains g.code && g.only.all (· == ch) then beginEvent (g.begins ch) ch s else s) gs s

/-! ### Journal records of the system (R423, R424, R581) -/

/-- A system record joins the writer's queue. -/
def sysRecord (type : Nat) (payload : List W64) (s : State) : State :=
  let r : JRec := { id := s.jr.nextId, type := type, tenant := 0, sched := none, payload := payload, replay := false }
  { s with jr := { s.jr with nextId := s.jr.nextId + 1, sysQ := s.jr.sysQ ++ [r] } }

/-! ### The safe state (R529, R531) -/

/-- The safe state is in force. -/
def safeOn (s : State) : Bool := s.byre.safe != 0

/-- In SCRAPPED the ports P0, P1 and P3 send nothing (R483). -/
def silent (s : State) : Bool := s.st.lcState == 5

/-- A cause of the safe state is set (Table 19-9). -/
def safeSet (b : Nat) (s : State) : State := { s with byre := { s.byre with safe := s.byre.safe ||| BitVec.ofNat 7 (2 ^ b) } }

end Sys2Proof.Machine
end

