-- ==== Sys2Proof/Machine/Segment.lean ====
section
/-! DEFINITION. Segment playback (10_segments.md): passes, boundaries, stops, fetch, presentation and jumps. -/
namespace Sys2Proof.Machine

/-- Descriptor d of cluster c is held for tenant t (R286). -/
def descHeld (s : State) (c d t : Nat) : Bool := rbit s (.sgDOwn c d) 31 && rfld s (.sgDOwn c d) 0 10 == t

/-- The playback of lane k with a pass of descriptor d and base b begun: the descriptor is read now (R291).
(log entry 38, DEDUCED) -/
def passOf (s : State) (k d : Nat) (b : W64) (p : Playback) : Playback :=
  let c := pulseCl k
  { p with
    desc := d, base := b, addr := rfld s (.sgDLoc c d) 0 11, cnt := rfld s (.sgDLoc c d) 16 12,
    len := rfld s (.sgDLen c d) 0 32,
    chain := if rbit s (.sgDSeq c d) 31 then some (rfld s (.sgDSeq c d) 16 6) else none,
    fetched := 0, taken := 0, buf := [] }

/-- The passes of the descriptor are counted afresh from the pass that begins (R290). (log entry 38, DEDUCED) -/
def passesAfresh (s : State) (k : Nat) (p : Playback) : Playback :=
  let n := rfld s (.sgDSeq (pulseCl k) p.desc) 0 16
  { p with left := n - 1, endless := n == 0 }

/-- The playback of lane k becomes idle in sequencer cycle i: buffer, pending jump and pending entry are discarded (R297,
R298). -/
def playIdle (k i : Nat) (s : State) : State :=
  modPulse k (fun l => { l with seg := none })
    (modPlayback k (fun p => { p with
      play := false, buf := [], jump := none, jumpAt := [], stopAt := none, bound := none, idleAt := i + 1 }) s)

/-- The playback of lane k ends in sequencer cycle i with event bit b of SG_Ln_EVENTS; an idle one does nothing more. -/
def playEnd (k b i : Nat) (s : State) : State :=
  if (playback s k).play then raise (.sgLEvents k) b (playIdle k i s) else s

/-- The playback of lane k stops in lane cycle n with the effects of R297, where `tb` for a cause of R299 (R297, R299). -/
def playStop (k n : Nat) (tb : Bool) (s : State) : State :=
  if (playback s k).play then
    let s := playEnd k 3 (2 * n) s
    if tb then raise (.sgLEvents k) 4 s else s
  else s

/-- A playback begins on lane k: descriptor d, base b, issued by context x of the cluster (R288). -/
def playStart (k d : Nat) (b : W64) (x : Nat) (s : State) : State :=
  let p := { Playback.reset with play := true, ctx := x }
  setPlayback k (passesAfresh s k (passOf s k d b p)) s

/-- The following pass uses a descriptor that is not held for the lane's tenant: the playback ends in lane cycle n (R291). -/
def descFail (k d n : Nat) (s : State) : State :=
  let s' := playEnd k 5 (2 * n) s
  match pulseOwner s k with
  | some t => faultGen t 0x04 (2 ^ 14 + k * 64 + d) s'
  | none => s'

/-- The pass that follows in lane cycle n uses descriptor d with the base of R289; a jump or a chain, whose event bit is named,
counts its passes afresh (Table 10-3). Where the descriptor is not held the playback ends instead (R291). -/
def passNext (k d n : Nat) (ev : Option Nat) (p : Playback) (s : State) : State :=
  let ok := match pulseOwner s k with
    | some t => descHeld s (pulseCl k) d t
    | none => false
  if ok then
    let q := passOf s k d (p.base + BitVec.ofNat 64 p.len) p
    match ev with
    | some b => raise (.sgLEvents k) b (setPlayback k (passesAfresh s k q) s)
    | none => setPlayback k q s
  else descFail k d n (setPlayback k p s)

/-- The decision at the boundary of a pass in lane cycle n (Table 10-3). -/
def passBoundary (k n : Nat) (s : State) : State :=
  let p := playback s k
  let s := count (.sgLPasses k) s
  match p.jump with
  | some d => passNext k d n (some 1) { p with jump := none } s
  | none =>
    if p.endless then passNext k p.desc n none p s
    else if p.left ≠ 0 then passNext k p.desc n none { p with left := p.left - 1 } s
    else match p.chain with
      | some d => passNext k d n (some 2) p s
      | none => playEnd k 0 (2 * n) s

/-- The jumps of lane k that are recorded by lane cycle n become pending, the last replacing the others (R296). -/
def recordJumps (k n : Nat) (s : State) : State :=
  modPlayback k (fun p =>
    match (p.jumpAt.filter fun j => j.1 ≤ n).getLast? with
    | some j => { p with jump := some j.2, jumpAt := p.jumpAt.filter fun j => n < j.1 }
    | none => p) s

/-- A requested stop of lane k takes effect if it is due by lane cycle n (R297). -/
def stopDue (k n : Nat) (s : State) : State :=
  match (playback s k).stopAt with
  | some d => if d ≤ n then playStop k d false s else s
  | none => s

/-- What touches the playback of lane k in lane cycle n when the port takes the entry that is the last of its pass:
a stop, the recording of a jump, the decision (R300). -/
def boundaryAt (k n : Nat) (s : State) : State :=
  let s := recordJumps k n (stopDue k n s)
  let s := modPlayback k (fun p => { p with bound := none }) s
  if (playback s k).play then passBoundary k n s else s

/-- The boundary of lane k whose lane cycle is at most n, with the last entry taken, has been decided (R290). -/
def boundaryDue (k n : Nat) (s : State) : State :=
  match (playback s k).bound with
  | some b => if b ≤ n then boundaryAt k b s else s
  | none => s

/-- The boundaries up to lane cycle n have been decided on every lane. -/
def boundariesDue (n : Nat) (s : State) : State := forL (fun k => boundaryDue k n) (s.pb.map (·.1)) s

/-- The lane's input port takes an entry of m words of the playback in lane cycle n; that of the last one is the boundary, and
the fall of a PULSE-PAIR is taken one lane cycle after its rise (R290). -/
def segTaken (k n m : Nat) (s : State) : State :=
  let s := modPlayback k (fun p => { p with taken := p.taken + 1 }) s
  let p := playback s k
  if p.taken < p.cnt then s
  else if m = 1 then boundaryAt k n s
  else modPlayback k (fun p => { p with bound := some (n + m - 1) }) s

/-- The stop of a playing lane is requested in lane cycle n: it takes effect at the start of the second after (R297). -/
def requestStop (k n : Nat) (s : State) : State :=
  modPlayback k (fun p => if p.play && p.stopAt.isNone then { p with stopAt := some (n + 2) } else p) s

/-- A jump to descriptor d is requested in lane cycle n: it is recorded at the start of the second after (R296). -/
def requestJump (k d n : Nat) (s : State) : State :=
  modPlayback k (fun p => { p with jumpAt := p.jumpAt ++ [(n + 2, d)] }) s

/-- An entry word of data memory as an edge entry of the playback (Table 10-1, R289). -/
def segEntry (w : W64) (b : W64) (x : Nat) : EdgeEntry :=
  { time := b + BitVec.ofNat 64 (fld w 0 32), width := fld w 32 24, kind := fld w 62 2, tag := fld w 56 6, ctx := x,
    source := .segment }

/-- A lane whose prefetch buffer can take an entry. -/
def wantsFetch (s : State) (k : Nat) : Bool :=
  let p := playback s k
  p.play && decide (p.buf.length < 4) && decide (p.fetched < p.cnt)

/-- The lane of cluster c the engine serves next, round-robin from the lane after the one last served (R292). -/
def fetchLane (s : State) (c : Nat) : Option Nat :=
  let l := (cluster s c).sgLast
  ((List.range 16).map fun i => 16 * c + (l + 1 + i) % 16).find? (wantsFetch s)

/-- What the engine of cluster c reads of word a of data memory in the present sequencer cycle, and whether it is
uncorrectable: the old word up to the cycle in which a TST writes it (R238). -/
def engineRead (s : State) (c a : Nat) : W64 × Bool :=
  let now : W64 × Bool := (dataAt s c a, dataBad s c a)
  match (cluster s c).stored with
  | some o => if o.word = a && decide (s.now ≤ o.cyc) then (o.value, o.bad) else now
  | none => now

/-- SEGMENT_FETCH: the engine reads the next entry of the lane whose turn it is (R292, R295). The log entry names the lane
(log entry 66, DESIGN CHOICE). -/
def segmentFetch (k : Nat) (s : State) : State :=
  let c := pulseCl k
  let s := passTo (cluster s c).sgAt s
  let p := playback s k
  let a := (p.addr + p.fetched) % 2048
  let s' := modCluster c (fun u => { u with sgLast := k % 16, sgAt := s.now + 1 }) s
  let r := engineRead s c a
  if r.2 then playEnd k 6 s.now (eccMulti 1 c a (k * 2 ^ 24) s')
  else
    let w : W64 := r.1
    setPlayback k { p with
      fetched := p.fetched + 1
      buf := p.buf ++ [{ idx := p.fetched, e := segEntry w p.base p.ctx, fromLc := lc s + 1 }] } s'

def execSegmentFetch (k : Nat) (s : State) : Res :=
  onUnit (k < 256) (when (s.released && fetchLane s (pulseCl k) == some k && !outOfService s (pulseCl k)) (segmentFetch k) s)

/-- The lookahead of the segment engine of lane k, in drops (R293). -/
def ahead (s : State) (k : Nat) : Nat := rfld s (.sgCfg (pulseCl k)) 0 12 * 16384

/-- The first lane cycle from n on in which an entry of time t lies within the lookahead (R293); none while time is frozen
short of it. -/
def presentLc (s : State) (k n : Nat) (t : W64) : Option Nat :=
  let d := t - absAt s n - BitVec.ofNat 64 (ahead s k)
  if neg64 d || d == 0 then some n
  else if s.fr.running then some (n + (d.toNat + 16383) / 16384) else none

/-- The stored entries of a lane that have not been loaded into a generator: LN_STATUS.QDEPTH. -/
def queuedCount (l : PulseLane) : Nat := l.queue.length + l.correct.length

/-- SEGMENT_PRESENT: the head of the lane's buffer becomes the pending entry of R107 (R293). -/
def segmentPresent (k : Nat) (s : State) : State :=
  let p := playback s k
  match p.buf, (pulse s k).seg with
  | h :: t, none =>
    if p.play && queuedCount (pulse s k) ≤ 61 then
      match presentLc s k (max (lc s) h.fromLc) h.e.time with
      | some m => modPulse k (fun l => { l with seg := some (m, h.e) }) (setPlayback k { p with buf := t } (toLc m s))
      | none => s
    else s
  | _, _ => s

def execSegmentPresent (k : Nat) (s : State) : Res := onUnit (k < 256) (when s.released (segmentPresent k) s)

/-- JUMP_RECORD: the oldest requested jump is recorded and is pending (R296). -/
def jumpRecord (k : Nat) (s : State) : State :=
  match (playback s k).jumpAt with
  | (n, _) :: _ =>
    let s := toLc n s
    recordJumps k (max n (lc s)) (boundaryDue k (max n (lc s) - 1) s)
  | [] => s

def execJumpRecord (k : Nat) (s : State) : Res := onUnit (k < 256) (when s.released (jumpRecord k) s)

end Sys2Proof.Machine
end

