-- ==== Sys2Proof/Machine/Pulse.lean ====
section
/-! DEFINITION. Pulse lanes (04_pulse_lanes.md): the input port, the edge queue and its checks, locked sets, firing, the
lane gate, flush, overcurrent, timebase gating and the safe state at the lane, and calibration. -/
namespace Sys2Proof.Machine

/-! ### Correction (R114) -/

/-- A value of n bits sign-extended to 64 bits. -/
def sext64 {n : Nat} (x : BitVec n) : W64 := x.signExtend 64

/-- The corrected time of an edge requested for time t under a calibration bank (R114). -/
def corrected (b : CalBank) (t : W64) : W64 :=
  let tofs := t + sext64 b.ofs
  tofs + sext64 (tget (0 : W8) (fld tofs 0 10) b.delta)

/-- The lane cycle in which the generator acts, as the coarse comparator matches it. -/
def coarse (tint : W64) : Nat := tint.toNat / 2 ^ 14

/-! ### Entries and their checks (R105, R108, R109) -/

/-- The kind an unpaired entry is stored with. -/
def storedKind (kind : Nat) : EdgeKind := match kind with
  | 0 => .rise
  | 1 => .fall
  | _ => .toggle

/-- The stored entries of an entry: one, or a RISE and a FALL for a PULSE-PAIR (R105). -/
def storedOf (e : EdgeEntry) : List Stored :=
  if e.kind = 3 then
    let fall := e.time + BitVec.ofNat 64 e.width
    [{ t := e.time, tint := 0, kind := .rise, tag := e.tag, ctx := e.ctx, source := e.source, pair := 1, mate := fall },
     { t := fall, tint := 0, kind := .fall, tag := e.tag, ctx := e.ctx, source := e.source, pair := 2, mate := e.time }]
  else
    [{ t := e.time, tint := 0, kind := storedKind e.kind, tag := e.tag, ctx := e.ctx, source := e.source, pair := 0, mate := 0 }]

/-- An edge for time t that reaches its queue in lane cycle n is late (R108). -/
def late (s : State) (n : Nat) (t : W64) : Bool := neg64 (t - (absAt s n + 65536#64))

/-- Two requested times lie less than 2,048 drops apart (R109). -/
def tooNear (a b : W64) : Bool := decide ((a - b).toNat < 2048) || decide ((b - a).toNat < 2048)

/-- The cause of Table 4-2 that a corrected entry meets in a lane, if any: no free entry 1, spacing 2, burst 3.
(log entry 35, DEDUCED) -/
def queueCheck (l : PulseLane) (e : Stored) : Option Nat :=
  let all := l.gens ++ l.queue
  if 64 ≤ l.queue.length then some 1
  else if all.any (fun x => tooNear x.t e.t) || l.lastT.any (fun t => tooNear t e.t) then some 2
  else if 4 ≤ (all.filter fun x => coarse x.tint = coarse e.tint).length then some 3
  else none

/-- The queue with an entry inserted in order of requested time (R115). -/
def insertEdge (e : Stored) : List Stored → List Stored
  | [] => [e]
  | x :: t => if neg64 (e.t - x.t) then e :: x :: t else x :: insertEdge e t

/-! ### Drops (R111, R135) -/

def EdgeSource.code : EdgeSource → Nat
  | .direct => 0
  | .locked => 1
  | .segment => 2

/-- The LN_DROP_LOG entry of a dropped edge: code, cause (0 late), whether with its set. -/
def dropWord (code cause : Nat) (set : Bool) (e : Stored) : W32 :=
  at32 1 31 ||| at32 (b2n set) 24 ||| at32 code 16 ||| at32 cause 14 ||| at32 e.source.code 12 ||| at32 (e.ctx % 64) 6 |||
    at32 (e.tag % 64) 0

/-- An edge of lane k is dropped and reported (R111): cause 0 is LATE_EDGE, 1 to 3 QUEUE_FULL. -/
def dropEdge (k cause : Nat) (set : Bool) (e : Stored) (s : State) : State :=
  let code := if cause = 0 then 1 else 2
  let s := raise (.lnEvents k) cause (count (if cause = 0 then .lnLateCnt k else .lnFullCnt k) s)
  let l := pulse s k
  let s := if l.dropLog.length < 8 then
      setPulse k { l with dropLog := l.dropLog ++ [dropWord code cause set e] } s else s
  match pulseOwner s k with
  | some t =>
    if l.recs < 4 then
      modPulse k (fun l => { l with recs := l.recs + 1 }) (faultGen t code (k * 256 + cause * 64 + e.tag % 64) s)
    else s
  | none => s

/-- n edges of lane k are consumed or removed (R117, R121, R124). -/
def discard (k n : Nat) (s : State) : State :=
  if n = 0 then s else raise (.lnEvents k) 4 (countN (.lnDiscCnt k) n s)

/-- Lane k is under timebase gating (R56). -/
def tbGated (s : State) (k : Nat) : Bool := fld s.tb.gated k 1 == 1

/-! ### The input port (R107, R108) -/

/-- The pending entry the port takes next: the one that has waited longest, the direct one on a tie (R107). -/
def portNext (l : PulseLane) : Option (Nat × EdgeEntry) :=
  match l.direct, l.seg with
  | some d, some g => if d.1 ≤ g.1 then some d else some g
  | some d, none => some d
  | none, g => g

/-- The lane with its pending entry e taken from its slot in lane cycle n. -/
def slotTaken (n : Nat) (e : EdgeEntry) (l : PulseLane) : PulseLane :=
  if e.source = .segment then { l with seg := none } else { l with direct := none, directFree := n }

/-- An entry reaches lane k in lane cycle n, where gating, an overcurrent disable and the horizon can end it (R56, R108,
R124). -/
def entryReaches (k n : Nat) (e : EdgeEntry) (s : State) : State :=
  let es := storedOf e
  if tbGated s k then countN .tbFlushEdge es.length s
  else if (pulse s k).ocDis then discard k es.length s
  else if late s n e.time then forL (dropEdge k 0 false) es s
  else modPulse k (fun l => { l with correct := l.correct ++ (es.zipIdx.map fun p => (n + 1 + p.2, p.1)) }) s

/-- The port of lane k takes its pending entry e in lane cycle n: for one lane cycle, or two for a PULSE-PAIR (R107). -/
def portTakes (k n : Nat) (e : EdgeEntry) (s : State) : State :=
  entryReaches k n e (modPulse k (fun l => { slotTaken n e l with portFree := n + (storedOf e).length }) s)

/-- EDGE_ENTRY_ACCEPT: the port takes the next pending entry (R107, R108, R290). -/
def edgeEntryAccept (k : Nat) (s : State) : State :=
  match portNext (pulse s k) with
  | none => s
  | some (w, e) =>
    let n := max (max (lc s) w) (pulse s k).portFree
    let s := portTakes k n e (toLc n s)
    if e.source = .segment then segTaken k n (storedOf e).length s else s

def execEdgeEntryAccept (k : Nat) (s : State) : Res := onUnit (k < 256) (when s.released (edgeEntryAccept k) s)

/-! ### The stop of a playback (R297, R299, R300) -/

/-- The playback of lane k stops in the present lane cycle, for timebase gating where `tb`: the boundaries before it are
decided, and an entry that the port takes in this lane cycle is still taken (R297, R299, R300). -/
def stopPlayback (k : Nat) (tb : Bool) (s : State) : State :=
  let n := lc s
  let s := boundaryDue k (n - 1) s
  let s := match portNext (pulse s k) with
    | some (w, e) => if e.source = .segment && max w (pulse s k).portFree ≤ n then portTakes k n e s else s
    | none => s
  playStop k n tb s

/-- PLAYBACK_STOP: a requested stop takes effect (R297). -/
def playbackStop (k : Nat) (s : State) : State :=
  match (playback s k).stopAt with
  | some n => stopPlayback k false (toLc n s)
  | none => s

def execPlaybackStop (k : Nat) (s : State) : Res := onUnit (k < 256) (when s.released (playbackStop k) s)

/-! ### The correction stage (R109, R114) -/

/-- The rise of the pair whose fall is e: the queued one of the pair's requested time, which no other edge of the lane has
(R109). -/
def riseOf (e : Stored) (l : PulseLane) : Option Stored := l.queue.find? fun x => x.pair == 1 && x.t == e.mate

/-- No entry of the lane can fire the trailing edge that keeps its pulse active. -/
def trailingLost (l : PulseLane) : Bool :=
  l.trailing.any fun t => (l.gens ++ l.queue ++ l.correct.map (·.2)).all fun e => e.t != t

/-- A pulse whose trailing edge the checks of R109 have dropped is truncated as one without it (R55, R119). -/
def cutIfLost (k : Nat) (s : State) : State :=
  let l := pulse s k
  if trailingLost l then
    setPulse k { l with trailing := none, cut := some { lc := lc s + 1, cause := if tbGated s k then .timebase else .gate } } s
  else s

/-- EDGE_CORRECT: the oldest uncorrected entry is corrected, checked and inserted, or dropped with the other half of its
pair (R109). (log entry 35, DEDUCED) -/
def edgeCorrect (k : Nat) (s : State) : State :=
  match (pulse s k).correct with
  | [] => s
  | (n, e0) :: rest =>
    let s := toLc n s
    let l := { pulse s k with correct := rest }
    let e := { e0 with tint := corrected l.bank e0.t }
    match queueCheck l e with
    | none => setPulse k { l with queue := insertEdge e l.queue } s
    | some cause => cutIfLost k <|
      if e.pair = 1 then
        let fall := (rest.head?).map (·.2)
        let s := dropEdge k cause false e (setPulse k { l with correct := rest.tail } s)
        match fall with
        | some f => dropEdge k cause false f s
        | none => s
      else if e.pair = 2 then
        match riseOf e l with
        | some r => dropEdge k cause false e (dropEdge k cause false r
            (setPulse k { l with queue := l.queue.filter fun x => x != r } s))
        | none => dropEdge k cause false e (setPulse k l s)
      else dropEdge k cause false e (setPulse k l s)

def execEdgeCorrect (k : Nat) (s : State) : Res := onUnit (k < 256) (when s.released (edgeCorrect k) s)

/-! ### Locked sets (R112) -/

/-- A staged entry e makes the checks of R109 on its own, behind the horizon check where `horizon`: the cause it fails with,
or the lane with it inserted (R112). -/
def stagedOne (s : State) (n : Nat) (pastCut horizon : Bool) (l : PulseLane) (e : Stored) : PulseLane × Option Nat :=
  let e := { e with tint := corrected l.bank e.t }
  let c : Option Nat := if pastCut then some 1 else if horizon && late s n e.t then some 0 else queueCheck l e
  (if c.isNone then { l with queue := insertEdge e l.queue } else l, c)

/-- The staged entries of a lane each with the cause it fails with on its own, in order of staging: 0 late, 1 to 3 as in
Table 4-2; and the lane with those that pass inserted. A PULSE-PAIR, whose fall follows its rise, passes or fails whole
(R108, R109; log entry 35, DEDUCED). -/
def stagedChecks (s : State) (n : Nat) (pastCut : Bool) (l : PulseLane) : List Stored → PulseLane × List (Stored × Option Nat)
  | [] => (l, [])
  | [e] =>
    let r := stagedOne s n pastCut true l e
    (r.1, [(e, r.2)])
  | e :: f :: rest =>
    let r := stagedOne s n pastCut true l e
    if e.pair = 1 then
      let q := stagedOne s n pastCut false r.1 f
      let c := if r.2.isSome then r.2 else q.2
      let t := stagedChecks s n pastCut (if c.isNone then q.1 else l) rest
      (t.1, (e, c) :: (f, c) :: t.2)
    else
      let t := stagedChecks s n pastCut r.1 (f :: rest)
      (t.1, (e, r.2) :: t.2)

/-- The failing entry of earliest requested time, those late before those that fail the checks of R109 (R112). -/
def firstFailure (cs : List (Stored × Option Nat)) : Option Nat :=
  let pick (f : Nat → Bool) : Option (Stored × Nat) := cs.foldl (fun a x =>
    match x.2 with
    | some c => if f c then (match a with
        | some (y, c') => if neg64 (x.1.t - y.t) then some (x.1, c) else some (y, c')
        | none => some (x.1, c)) else a
    | none => a) none
  match pick (fun c => c == 0) with
  | some p => some p.2
  | none => (pick fun _ => true).map (·.2)

/-- The lanes of cluster c that hold staged entries. -/
def stagedLanes (s : State) (c : Nat) : List Nat :=
  ((List.range 16).map fun i => 16 * c + i).filter fun k => !(pulse s k).staged.isEmpty

/-- The decision on a locked set takes the input port of a lane for lane cycle n: the fall of a PULSE-PAIR that would have
used it follows one lane cycle later (R107). -/
def takePort (n : Nat) (l : PulseLane) : PulseLane :=
  if n < l.portFree then
    { l with
      portFree := l.portFree + 1
      correct := l.correct.map fun p => if p.2.pair = 2 && p.1 = n + 1 then (n + 2, p.2) else p }
  else { l with portFree := n + 1 }

/-- The decision on the locked set of pulse cluster c in the present lane cycle: whether it passes, and the state after
it; a lane disabled for overcurrent consumes its entries of a set that passes (R112, R56, R107, R124). -/
def decideSet (c : Nat) (s : State) : Bool × State :=
  let n := lc s
  let lanes := stagedLanes s c
  let s := forL (fun k s => modPulse k (takePort n) s) lanes s
  let gated := lanes.filter (tbGated s)
  let s := forL (fun k s => modPulse k (fun l => { l with staged := [] }) (countN .tbFlushEdge (pulse s k).staged.length s)) gated s
  let free := lanes.filter fun k => !tbGated s k
  let res := free.map fun k =>
    let l := pulse s k
    (k, stagedChecks s n (decide (16 < l.staged.length)) { l with staged := [] } l.staged)
  match (res.filterMap fun r => firstFailure r.2.2).head? with
  | none => (true, forL (fun r s =>
      if r.2.1.ocDis then discard r.1 r.2.2.length (modPulse r.1 (fun l => { l with staged := [] }) s)
      else setPulse r.1 r.2.1 s) res s)
  | some cause =>
    (false, forL (fun r s =>
      forL (fun x s => dropEdge r.1 (match x.2 with
        | some c => c
        | none => cause) true x.1 s) r.2.2
        (modPulse r.1 (fun l => { l with staged := [] }) s)) res s)

/-- The staged entries of a broken lock are discarded; how many they were (R213). -/
def discardStaged (c : Nat) (s : State) : Nat × State :=
  let lanes := stagedLanes s c
  (lsum (lanes.map fun k => (pulse s k).staged.length), forL (fun k => modPulse k fun l => { l with staged := [] }) lanes s)

/-! ### The coarse comparator (Table 4-3) -/

/-- The lane cycle in which the comparator loads an entry of corrected time t. -/
def loadLc (s : State) (t : W64) : Nat := lcOf s (BitVec.ofNat 64 (coarse t * 2 ^ 14)) - 1

/-- The generators that are free for the lane cycle after m: those whose edge acts by the end of m are (R114, Table 4-3). -/
def freeGens (s : State) (l : PulseLane) (m : Nat) : Nat := 4 - (l.gens.filter fun e => m ≤ loadLc s e.tint).length

/-- EDGE_LOAD: the entries of the coming lane cycle are loaded into free generators (R114, Table 4-3); a calibration shot
waits where all four are needed (R125). -/
def edgeLoad (k : Nat) (s : State) : State :=
  let l := pulse s k
  match l.queue.map (fun e => loadLc s e.tint) with
  | [] => s
  | n :: ns =>
    let m := max (lc s) (ns.foldl min n)
    let go := (l.queue.filter fun e => loadLc s e.tint ≤ m).take (freeGens s l m)
    let l' := { l with queue := l.queue.filter (fun e => !go.contains e), gens := l.gens ++ go }
    let waits := if l.cal.busy && !go.isEmpty && freeGens s l' m = 0 then l.cal.waits + 1 else l.cal.waits
    setPulse k { l' with cal := { l'.cal with waits := waits } } (toLc m s)

def execEdgeLoad (k : Nat) (s : State) : Res := onUnit (k < 256) (when s.released (edgeLoad k) s)

/-! ### Output enable (R117-R120) -/

/-- The stored entries of a lane that have not been loaded, in order of requested time, corrected or not. -/
def unloaded (l : PulseLane) : List Stored := (l.correct.map (·.2)).foldr insertEdge l.queue

/-- The edge that would end an active pulse: the first queued or loaded edge that makes L inactive, if its pin time falls
within the frame in progress (R55, R119). (log entry 34, DEDUCED) -/
def trailingEdge (s : State) (l : PulseLane) : Option W64 :=
  match (l.gens ++ unloaded l).find? (fun e => e.kind != .rise) with
  | some e => if inFrame s e.t then some e.t else none
  | none => none

/-- A truncation of lane k that is due by lane cycle n: L is inactive, and the pulse counts (R55, R119). -/
def cutDue (k n : Nat) (s : State) : State :=
  let l := pulse s k
  match l.cut with
  | some c =>
    if c.lc ≤ n then
      let s := setPulse k { l with level := false, trailing := none, cut := none } s
      match c.cause with
      | .gate => raise (.lnEvents k) 5 (count (.lnTruncCnt k) s)
      | .timebase => count .tbTrunc s
      | .safe => s
    else s
  | none => s

/-- The pulse of a lane that closes in lane cycle n, by the lane gate or by timebase gating: its trailing edge may still
fire, or it is truncated at the next lane-cycle boundary; of both in one lane cycle timebase gating counts (R55, R119).
(log entry 34, DEDUCED) -/
def pulseCloses (n : Nat) (cause : CutBy) (s : State) (l : PulseLane) : PulseLane :=
  if !l.level || safeOn s then l
  else match l.cut with
    | some c => { l with cut := some { c with cause := if cause = .timebase then cause else c.cause } }
    | none =>
      if l.trailing.isSome then l
      else match trailingEdge s l with
        | some t => { l with trailing := some t }
        | none => { l with cut := some { lc := n + 1, cause := cause } }

/-- The lane gate of lane k closes in lane cycle n (R119). -/
def closeGate (k n : Nat) (s : State) : State :=
  let l := pulse s k
  let l' := if l.gateOpen then pulseCloses n .gate s l else l
  setPulse k { l' with gateOpen := false, closedLc := some n } s

/-- The lane gate of lane k opens in lane cycle n: where the safe state does not hold, and no close of that lane cycle has
acted. Its trailing edge is then an edge as any other, but under timebase gating (R35, R55, R118). -/
def openGate (k n : Nat) (s : State) : State :=
  if safeOn s then s
  else modPulse k (fun l =>
    if l.closedLc == some n then l
    else { l with gateOpen := true, trailing := if tbGated s k then l.trailing else none }) s

/-- A gate request acts in lane cycle n (R35, R118). (log entry 33, DEDUCED) -/
def gateActs (k n : Nat) (op : Bool) (s : State) : State :=
  let s := cutDue k n s
  if op then openGate k n s else closeGate k n s

/-- The gate requests of lane k due by run time x act in order; an open request gives way to a close request of the same
lane cycle (R35). (log entry 33, DEDUCED) -/
def gatesDue (k x : Nat) (s : State) : State :=
  let rs := (pulse s k).gateReqs
  let beaten (r : Nat × Bool) : Bool := r.2 && rs.any fun q => !q.2 && q.1 / 16384 == r.1 / 16384
  let due := rs.filter fun r => r.1 ≤ x
  let s := modPulse k (fun l => { l with gateReqs := rs.filter fun r => x < r.1 && !beaten r }) s
  forL (fun r s => gateActs k (r.1 / 16384) r.2 s) (due.filter fun r => !beaten r) s

/-- A gate request joins the requests of the lane, in order of their times. -/
def gateRequest (k due : Nat) (op : Bool) (s : State) : State :=
  modPulse k (fun l => { l with gateReqs :=
    (l.gateReqs.filter fun r => r.1 ≤ due) ++ (due, op) :: (l.gateReqs.filter fun r => due < r.1) }) s

/-- The request of an instruction or register write: at the start of the second lane cycle after (R118). -/
def gateRequest2 (k : Nat) (op : Bool) (s : State) : State := gateRequest k ((lc s + 2) * 16384) op s

/-- LANE_GATE_CHANGE: the earliest gate requests take effect (R118). -/
def laneGateChange (k : Nat) (s : State) : State :=
  match (pulse s k).gateReqs with
  | (x, _) :: _ => gatesDue k x (toLc (x / 16384) s)
  | [] => s

def execLaneGateChange (k : Nat) (s : State) : Res := onUnit (k < 256) (when s.released (laneGateChange k) s)

/-- The level an edge gives. -/
def levelAfter (kind : EdgeKind) (l : Bool) : Bool := match kind with
  | .rise => true
  | .fall => false
  | .toggle => !l

/-- An edge of lane k acts on the pin: it changes L, or is redundant (R106, R116). -/
def edgeActs (k : Nat) (e : Stored) (s : State) : State :=
  let l := pulse s k
  let v := levelAfter e.kind l.level
  if v == l.level then raise (.lnEvents k) 6 s
  else
    let s := setPulse k { l with level := v, fired := l.fired + 1 } s
    if fld (BitVec.ofNat 6 e.tag) 5 1 == 1 then produce 1 k (lcOf s e.t + 1) s else s

/-- EDGE_FIRE: the loaded edge of earliest requested time reaches it (R117): gate requests due by the start of its TS
cycle act first. -/
def edgeFire (k : Nat) (s : State) : State :=
  match (pulse s k).gens with
  | [] => s
  | e :: rest =>
    let s := toLc (lcOf s e.t) s
    let s := cutDue k (lc s) (gatesDue k (rdOf s (e.t &&& ~~~(1023#64))) s)
    let l := pulse s k
    let last := l.trailing == some e.t
    let s := setPulse k { l with gens := rest, lastT := some e.t, trailing := if last then none else l.trailing } s
    if !safeOn s && !l.ocDis && (last || (l.gateOpen && !tbGated s k)) then edgeActs k e s else discard k 1 s

def execEdgeFire (k : Nat) (s : State) : Res := onUnit (k < 256) (when s.released (edgeFire k) s)

/-! ### Timebase gating at the outputs (R54, R55, R77, R299) -/

/-- Timebase gating starts on lane k, which was not under it: its playback stops, and an active pulse keeps its trailing
edge or is truncated (R55, R299). -/
def gateLane (k : Nat) (s : State) : State :=
  let s := cutDue k (lc s) (stopPlayback k true s)
  modPulse k (pulseCloses (lc s) .timebase s) s

/-- The lanes that hold anything: those listed as a lane or a playback. -/
def liveLanes (s : State) : List Nat := (s.pl.map (·.1) ++ s.pb.map (·.1)).eraseDups

/-- The auxiliary synthesizer with a change. -/
def modSyn (f : Synth → Synth) (s : State) : State := { s with syn := f s.syn }

/-- CKO output n. -/
def cko (s : State) (n : Nat) : Cko := tget Cko.reset n s.syn.ckos

/-- CKO output n with a change. -/
def modCko (n : Nat) (f : Cko → Cko) (s : State) : State := modSyn (fun y => { y with ckos := tmod Cko.reset n f y.ckos }) s

/-- A CKO output runs at run time x: it started, and the half-period after which it stops has not ended (R76). -/
def Cko.runs (u : Cko) (x : Nat) : Bool := u.started && u.stopAt.all (fun t => decide (x < t))

/-- CKO output n runs. -/
def ckoRuns (s : State) (n : Nat) : Bool := (cko s n).runs (rdNow s)

/-- The end of the half-period in progress at run time x, in drops of run time: the period is DIV + 1 VCO cycles, and
16,384 drops are `ratio` × 2^-24 of them (R70, R74, R76). Before its first rising edge an output is at its inactive level. -/
def Cko.halfEnd (u : Cko) (x : Nat) : Nat :=
  if x ≤ u.first then x
  else
    let num := 16384 * (u.div + 1) * 2 ^ 24
    let j := (x - u.first) * (2 * u.ratio) / num
    u.first + ((j + 1) * num + (2 * u.ratio - 1)) / (2 * u.ratio)

/-- CKO output n stops after the half-period in progress; where `again`, it waits for its next start (R76). -/
def stopCko (again : Bool) (n : Nat) (s : State) : State :=
  modCko n (fun u =>
    if u.runs (rdNow s) && u.stopAt.isNone then
      { u with stopAt := some (u.halfEnd (rdNow s)), waiting := u.waiting || again }
    else u) s

/-- CKO output n under timebase gating: it stops, and starts again at a tick once gating is lifted (R74, R76). -/
def gateCko (n : Nat) (s : State) : State :=
  stopCko true n { s with tb := { s.tb with ckoGated := s.tb.ckoGated ||| BitVec.ofNat 8 (2 ^ n) } }

/-- Output n keeps running under a loss of TS lock or reference (R77). -/
def ckoHolds (s : State) (n : Nat) : Bool := ckoRuns s n && rbit s (.asCkoCfg n) 2

/-- The truncations due in the present lane cycle. -/
def cutsDue (s : State) : State := forL (fun k s => cutDue k (lc s) s) (liveLanes s) s

/-- Waiting UNGATEs whose scope gating touches are cancelled (R57). -/
def cancelUngates (lanes : W256) (cko : Bool) (s : State) : State :=
  let hit (u : Ungate) : Bool := u.lanes &&& lanes != 0 || (cko && u.cko)
  if s.tb.ungates.any hit then
    raise .tbEvents 11 { s with tb := { s.tb with ungates := s.tb.ungates.filter fun u => !hit u } }
  else s

/-- Timebase gating of the CKO outputs starts; with `hold`, not for those that R77 keeps running. -/
def gateCkos (hold : Bool) (s : State) : State :=
  forL (fun n s => if hold && ckoHolds s n then s else gateCko n s) (List.range 8) s

/-- Timebase gating starts on all pulse lanes and CKO outputs (R54). -/
def gateAllOutputs (hold : Bool) (s : State) : State :=
  let s := cancelUngates (BitVec.allOnes 256) true s
  let new := (liveLanes s).filter fun k => !tbGated s k
  gateCkos hold (forL gateLane new { s with tb := { s.tb with gated := BitVec.allOnes 256 } })

/-! ### Removal of queued edges (R58, R59, R121, R124) -/

/-- The lane with its queue emptied. -/
def emptyQueue (l : PulseLane) : PulseLane := { l with queue := [], correct := [] }

/-- The lane without its queue: a trailing edge that no generator holds can no longer end the pulse, so L is inactive. -/
def trailingGone (l : PulseLane) : PulseLane :=
  if l.trailing.any fun t => l.gens.all fun e => e.t != t then { l with level := false, trailing := none, cut := none } else l

/-- The queue of lane k, and its staged entries where `staged`, are flushed and counted in TB_FLUSH_EDGE (R58, R59). -/
def flushEdges (staged : Bool) (k : Nat) (s : State) : State :=
  let l := pulse s k
  let n := queuedCount l + (if staged then l.staged.length else 0)
  let l' := emptyQueue (trailingGone l)
  let s := setPulse k { l' with staged := if staged then [] else l.staged } s
  if n = 0 then s else countN .tbFlushEdge n s

/-- L is active once the edges already loaded have acted (R121). -/
def willBeActive (l : PulseLane) : Bool := l.gens.foldl (fun a e => levelAfter e.kind a) l.level

/-- The queued entry that a FLUSH keeps: the first that would make L inactive (R121), corrected or not.
(log entry 34, DEDUCED) -/
def flushKeeps (l : PulseLane) : Option Stored :=
  if willBeActive l then (unloaded l).find? fun e => e.kind != .rise else none

/-- LN_CTRL.FLUSH takes effect at the next lane cycle (R121). -/
def laneFlush (k : Nat) (s : State) : State :=
  let s := toLc (lc s + 1) s
  let s := cutDue k (lc s) s
  let l := pulse s k
  let keep (e : Stored) : Bool := flushKeeps l == some e
  let l' := { l with queue := l.queue.filter keep, correct := l.correct.filter fun p => keep p.2 }
  discard k (queuedCount l - queuedCount l') (setPulse k l' s)

/-- OVERCURRENT: the lane is disabled (R124, R563). -/
def overcurrent (k : Nat) (s : State) : State :=
  let s := cutDue k (lc s) s
  let l := pulse s k
  let s := setPulse k { emptyQueue l with
    gateOpen := false, closedLc := some (lc s), level := false, trailing := none, cut := none, ocDis := true } s
  let s := discard k (queuedCount l) s
  let s := if l.level then raise (.lnEvents k) 5 (count (.lnTruncCnt k) s) else s
  logFault 0x17 k 0 (count (.lnOcCnt k) (raise (.lnEvents k) 7 s))

def execOvercurrent (k : Nat) (s : State) : Res :=
  onUnit (k < 256) (when (s.released && (pulse s k).stdNow != 0 && !(pulse s k).ocDis) (overcurrent k) s)

/-! ### The safe state at the outputs (R120, R531) -/

/-- The safe state reaches the outputs: active pulses end and count, CKO outputs stop. -/
def safeReaches (s : State) : State :=
  let s := forL (fun k s =>
    let s := cutDue k (lc s) s
    let l := pulse s k
    let s := setPulse k { l with trailing := none, cut := l.cut.map fun c => { c with cause := .safe } } s
    if l.level then raise (.lnEvents k) 5 (count (.lnTruncCnt k) s) else s) (liveLanes s) s
  forL (fun n s => modCko n (fun u =>
    if u.runs (rdNow s) then { u with started := false, waiting := u.waiting || u.stopAt.isNone, stopAt := none } else u) s)
    (List.range 8) s

/-- The last cause of the safe state has cleared: L of every lane is inactive (R531). -/
def safeLeaves (s : State) : State := forL (fun k => modPulse k fun l => { l with level := false, trailing := none, cut := none }) (liveLanes s) s

/-- A cause of the safe state is set; where none was, the safe state starts (R529). -/
def safeStart (b : Nat) (s : State) : State := if safeOn s then safeSet b s else safeReaches (safeSet b s)

/-- The causes of the mask are cleared; where they were the last, the safe state ends (R530, R531). -/
def safeClear (mask : BitVec 7) (s : State) : State :=
  let s' := { s with byre := { s.byre with safe := s.byre.safe &&& ~~~mask } }
  if safeOn s && !safeOn s' then safeLeaves s' else s'

/-! ### Calibration (R125-R132) -/

/-- The temperature of a cluster as the calibrations read it, 1/16 degrees C. (log entry 31, DEDUCED) -/
def clTemp (s : State) (c : Nat) : Int := (cluster s c).temp

/-- How urgent a due lane is (R128, R132, R155). -/
def CalDue.rank : CalDue → Nat
  | .no => 0
  | .turn => 1
  | .temperature => 2
  | .now => 3
  | .spot => 4

/-- Of two lanes that are due, the first goes first: the more urgent; of two by CAL_NOW the later written, of two that failed
their spot check the earlier failure, and otherwise the lower lane number (R128, R132, R155). (log entry 37, DEDUCED) -/
def goesFirst (u : CalState) (k : Nat) (v : CalState) (j : Nat) : Bool :=
  if u.due.rank = v.due.rank then
    match u.due with
    | .now => decide (v.dueNo < u.dueNo) || (u.dueNo == v.dueNo && decide (k ≤ j))
    | .spot => decide (u.dueNo < v.dueNo) || (u.dueNo == v.dueNo && decide (k ≤ j))
    | _ => decide (k ≤ j)
  else decide (v.due.rank < u.due.rank)

/-- A lane becomes due for a reason, which a more urgent one keeps. -/
def CalState.becomesDue (d : CalDue) (u : CalState) : CalState := if u.due.rank < d.rank then { u with due := d } else u

/-- The number of the next request by CAL_NOW or a failed spot check. -/
def nextDueNo (s : State) : Nat :=
  lmax ((s.pl.map fun p => p.2.cal.dueNo) ++ (s.sl.map fun p => p.2.cal.dueNo)) + 1

/-- A lane becomes due by CAL_NOW or by a failed spot check: the request is numbered (R128, R132). -/
def CalState.requested (d : CalDue) (n : Nat) (u : CalState) : CalState :=
  if d.rank < u.due.rank then u else { u with due := d, dueNo := n }

/-- A cluster temperature more than 2 °C from that of a calibration: the lane is due at once, unless its calibration is
under way or waits for its tick (R128; log entry 37, DEDUCED). -/
def CalState.heated (now then_ : Int) (u : CalState) : CalState :=
  if 32 < (now - then_).natAbs && !u.busy && !u.swap then u.becomesDue .temperature else u

/-- A reading of a cluster's temperature makes its lanes due that it has moved away from: those of a pulse cluster by the
temperature of the bank in force, those of a stamp cluster by SL_CAL_INFO.TEMP (R128, R155). -/
def lanesHeated (c : Nat) (s : State) : State :=
  let now := clTemp s c
  forN 16 (fun i s =>
    if c < 16 then modPulse (16 * c + i) (fun l => { l with cal := l.cal.heated now l.bank.temp }) s
    else modStamp (16 * (c - 16) + i) (fun l => { l with cal := l.cal.heated now l.info.2 }) s) s

/-- The loopback pair of lanes k is free for calibration: neither cluster is pending, out of service or quarantined
(R491, R497). -/
def pairFree (s : State) (k : Nat) : Bool :=
  [pulseCl k, stampCl k].all fun c => !lbPending s c && !outOfService s c && !quarantined s c

/-- Lane k is the lane of its pulse cluster that is visited next (R128); a visit in turn comes after the passes that
temperature has made due in the paired stamp cluster (R155). (log entry 37, DEDUCED) -/
def nextVisit (s : State) (k : Nat) : Bool :=
  let lanes := ((List.range 16).map fun i => 16 * pulseCl k + i).filter (pairFree s)
  let u := (pulse s k).cal
  u.due != .no && lanes.contains k &&
    (u.due != .turn || lanes.all fun j => (stamp s j).cal.due != .temperature) &&
    lanes.all fun j =>
      let v := (pulse s j).cal
      !v.busy && (j == k || goesFirst u k v j)

/-- CAL_VISIT_START: the lane's visit begins, with a pass on the stamp lane of the pair, whose bins its shots wait for (R128,
R155). -/
def calVisitStart (k : Nat) (s : State) : State :=
  modStamp k (fun l => { l with cal := l.cal.becomesDue .turn })
    (modPulse k (fun l => { l with cal := { l.cal with busy := true, due := .no, awaits := true, startLc := lc s, waits := 0 } }) s)

def execCalVisitStart (k : Nat) (s : State) : Res :=
  onUnit (k < 256) (when (s.released && nextVisit s k) (calVisitStart k) s)

/-- Of the codes p - 129 to p + 128, whose measured positions in 1/16 drop stand in the list, the shift whose position is
nearest to that of p, and how far it is; of two as near the one of smaller magnitude, of these the negative one (R126;
log entry 73, DESIGN CHOICE). -/
def fitDelta (p : Nat) (near : List Int) : Int × Nat :=
  near.zipIdx.foldl (fun a q =>
    let d : Int := (q.2 : Int) - 129
    let r := (q.1 - 16 * (p : Int)).natAbs
    if r < a.2 || (r == a.2 && decide (d.natAbs < a.1.natAbs)) then (d, r) else a) (-129, (near.headD 0 - 16 * (p : Int)).natAbs)

/-- The shifts of positions p, p + 1, …, n of them, from the measured positions of code p - 129 onward. -/
def fitFrom : Nat → Nat → List Int → List (Int × Nat)
  | 0, _, _ => []
  | n + 1, p, ext => fitDelta p (ext.take 258) :: fitFrom n (p + 1) ext.tail

/-- The correction table of the measured positions of codes 0 to 1023, which repeat 1,024 drops on in the TS cycle before
and after, with the residual of each position (R126). -/
def fitTable (pos : List Int) : List (Int × Nat) :=
  fitFrom 1024 0 ((pos.drop 895).map (· - 16384) ++ pos ++ (pos.take 129).map (· + 16384))

/-- The fitted bank of a calibration of lane k, or none where a value is out of range (R126). With LN_CFG.STD at off the
delay to the ball is that of SLVS-400 (log entry 73, DESIGN CHOICE). -/
def fitBank (s : State) (k : Nat) (m : PulseCal) : Option CalBank :=
  let path := fld (tget (Config.otpWord (regAddr (.lnCalpath k))) (regAddr (.lnCalpath k)) s.otp)
    (if rfld s (.lnCfg k) 0 2 = 2 then 16 else 0) 16
  let ofs := -(m.delay + (path : Int))
  let ds := fitTable m.pos
  if ofs < -12288 || 0 < ofs || ds.any fun d => d.1 < -128 || 127 < d.1 then none
  else some {
    ofs := BitVec.ofInt 16 ofs
    delta := (ds.zipIdx.filterMap fun p => if p.1.1 = 0 then none else some (p.2, BitVec.ofInt 8 p.1.1))
    resid := lmax (ds.map (·.2))
    temp := clTemp s (pulseCl k) }

/-- The shots of a visit: 64 at each of 1,024 positions in a full calibration, otherwise 16 (R126). -/
def visitShots (u : CalState) : Nat := 1024 * (if u.full then 64 else 16)

/-- The lane cycle in which the last shot of the visit has been taken: one shot in a lane cycle, but for those that waited
for a generator (R125, R126). -/
def visitEnd (u : CalState) : Nat := u.startLc + visitShots u + u.waits

/-- The generator of the next shot, `n` lane cycles into a visit: the shots rotate through the four (R125). -/
def shotGen (u : CalState) (n : Nat) : Nat := (u.gen + min (visitShots u) (n - u.waits)) % 4

/-- The bank that comes into force is to be journaled (R131): after a full calibration, and otherwise once per 2^20
frames. -/
def saveDueNow (s : State) (u : CalState) : Bool :=
  u.full || (match u.saved with
    | none => true
    | some n => decide (n + 2 ^ 20 ≤ s.fr.ticks))

/-- A visit ends: where its rotation through the generators stands (R125). -/
def CalState.visited (n : Nat) (u : CalState) : CalState := { u with busy := false, gen := shotGen u (n - u.startLc) }

/-- CAL_VISIT_DONE: after the last shot the fit writes the shadow, which comes into force at the next tick, or fails (R126,
R127). -/
def calVisitDone (k : Nat) (m : PulseCal) (s : State) : State :=
  let s := toLc (visitEnd (pulse s k).cal) s
  let l := pulse s k
  let u := l.cal.visited (lc s)
  match fitBank s k m with
  | some b =>
    setPulse k { l with shadow := b, cal := { u with swap := true, fitted := true, saveDue := saveDueNow s u } } s
  | none => logFault 0x0A k 0 (setPulse k { l with cal := { u with full := false, stale := true } } s)

def execCalVisitDone (k : Nat) (meas : PulseCal) (s : State) : Res :=
  let u := (pulse s k).cal
  onUnit (k < 256) (when (s.released && u.busy && !u.awaits) (calVisitDone k meas) s)

/-- A steward write aborts a visit; the lane is due again after the steward's CAL_LOAD (R130). -/
def abortVisit (k : Nat) (s : State) : State :=
  modPulse k (fun l =>
    if l.cal.busy then { l with cal := { l.cal.visited (lc s) with full := false, dueAfterLoad := true, awaits := false } } else l) s

/-- The SYS_LNCAL payload of a bank (Table 15-11). -/
def lncalPayload (k : Nat) (b : CalBank) : List W64 :=
  let d (p : Nat) : Nat := (tget (0 : W8) p b.delta).toNat
  (at64 k 56 ||| at64 b.ofs.toNat 32 ||| at64 (b.resid % 65536) 16 ||| at64 ((b.temp % 65536).toNat) 0) ::
    (List.range 128).map fun i => (List.range 8).foldl (fun w j => w ||| at64 (d (8 * i + j)) (56 - 8 * j)) 0

/-- The bank in force of lane k is written to the journal (R131). -/
def saveLnCal (k : Nat) (s : State) : State :=
  let l := pulse s k
  sysRecord 0x0102 (lncalPayload k l.bank)
    (setPulse k { l with cal := { l.cal with saved := some s.fr.ticks, saveDue := false } } s)

/-- The shadow of lane k comes into force at a tick; that of a calibration ends CAL_STALE (R127, R130-R132). The shadow bank
keeps its contents (log entry 73, DESIGN CHOICE). -/
def swapLnCal (k : Nat) (s : State) : State :=
  let l := pulse s k
  if l.cal.swap then
    let s := raise (.lnEvents k) 9 (setPulse k { l with
      bank := l.shadow
      cal := { l.cal with
        swap := false, fitted := false, valid := true, stale := l.cal.stale && !l.cal.fitted, full := false, dueAfterLoad := false
        due := if l.cal.dueAfterLoad && l.cal.due == .no then .turn else l.cal.due } } s)
    if l.cal.saveDue then saveLnCal k s else s
  else s

/-- SPOT_CHECK_DONE: the warm-wake spot check of lane k gave this error, in 1/16 drop (R132). A start that went on without
lock shows the lane as stale until then (R472). -/
def spotCheckDone (k : Nat) (e : Int) (s : State) : State :=
  let s := { s with byre := { s.byre with spots := s.byre.spots &&& ~~~(BitVec.ofNat 256 (2 ^ k)) } }
  let s := setReg (.lnSpot k) (BitVec.ofNat 32 ((e % 65536).toNat)) s
  if e.natAbs ≤ 128 then
    let stale (b : Bool) : Bool := b && !s.byre.nolock
    modPulse k (fun l => { l with cal := { l.cal with stale := stale l.cal.stale } })
      (modStamp k (fun l => { l with cal := { l.cal with stale := stale l.cal.stale } }) s)
  else raise (.lnEvents k) 8 (modPulse k (fun l => { l with cal := { l.cal.requested .spot (nextDueNo s) with stale := true } })
    (modStamp k (fun l => { l with cal := { l.cal with stale := true } }) s))

def execSpotCheckDone (k : Nat) (meas : Int) (s : State) : Res :=
  onUnit (k < 256) (when (s.released && s.byre.warm && fld s.byre.spots k 1 == 1) (spotCheckDone k meas) s)

/-! ### Register writes of a lane (R121, R123, R124, R127-R131) -/

/-- A write of LN_CFG (R122, R123). (log entry 36, DEDUCED) -/
def lnCfgApply (k : Nat) (v : W32) (s : State) : State :=
  let s := setRfld (.lnCfg k) 2 1 (fld v 2 1) s
  let s := modPulse k (fun l => { l with cfgPend := true }) s
  if fld v 0 2 = 3 then raise (.lnEvents k) 10 s else setRfld (.lnCfg k) 0 2 (fld v 0 2) s

/-- A pending output standard and polarity come into force at a tick at which the gate is closed and L inactive (R123). -/
def lnCfgTick (k : Nat) (s : State) : State :=
  let l := pulse s k
  if l.cfgPend && !l.gateOpen && !l.level then
    setPulse k { l with cfgPend := false, stdNow := rfld s (.lnCfg k) 0 2, polNow := rbit s (.lnCfg k) 2 } s
  else s

/-- The bits of LN_CTRL that the owning tenant may write, and those of the steward only (R134). -/
def lnCtrlOwner : W32 := 0x07
def lnCtrlSteward : W32 := 0x70

/-- A write of LN_CTRL: each bit at 1 acts (R118, R121, R124, R127, R128, R131). -/
def lnCtrlApply (k : Nat) (v : W32) (s : State) : State :=
  let on (b : Nat) : Bool := fld v b 1 == 1
  let s := if on 0 then gateRequest2 k false s else s
  let s := if on 2 then modPulse k (fun l => { l with rearm := true }) s else s
  let s := if on 4 then modPulse k (fun l => { l with cal := { l.cal with swap := true } }) s else s
  let s := if on 5 then modPulse k (fun l => { l with cal := l.cal.requested .now (nextDueNo s) }) s else s
  let s := if on 6 then saveLnCal k s else s
  if on 1 then laneFlush k s else s

/-- A write of LN_SKEW_SH: in range it sets the shadow offset and aborts a visit (R130). -/
def lnSkewShApply (k : Nat) (v : W32) (s : State) : State :=
  let o := sgn 16 (fld v 0 16)
  if -12288 ≤ o && o ≤ 0 then
    abortVisit k (modPulse k (fun l => { l with shadow := { l.shadow with ofs := BitVec.ofNat 16 (fld v 0 16) } }) s)
  else raise (.lnEvents k) 10 s

/-- A write of LN_CTAB_DATA: the shadow entry IDX is set, IDX advances, and a visit is aborted (R130). -/
def lnCtabApply (k : Nat) (v : W32) (s : State) : State :=
  let i := rfld s (.lnCtabIdx k) 0 10
  let s := modPulse k (fun l =>
    { l with shadow := { l.shadow with delta := tset 0 i (BitVec.ofNat 8 (fld v 0 8)) l.shadow.delta } }) s
  abortVisit k (setRfld (.lnCtabIdx k) 0 10 (i + 1) s)

end Sys2Proof.Machine
end

