-- ==== Sys2Proof/Machine/Stamp.lean ====
section
/-! DEFINITION. Stamp lanes (05_stamp_lanes.md): crossings, latch, blanking, captures and hit times, pairing, the hit
queue, thresholds and bin calibration. -/
namespace Sys2Proof.Machine

/-! ### Configuration in force (SL_CFG) -/

/-- A field of SL_CFG in force. -/
def cfgFld (l : StampLane) (lo n : Nat) : Nat := fld l.cfg lo n
def cfgBit (l : StampLane) (b : Nat) : Bool := fld l.cfg b 1 == 1

/-- PRESC in force (R147). -/
def presc (l : StampLane) : Nat := cfgFld l 9 4

/-- SL_EVCFG in force in lane cycle n (R163). -/
def evcfgIn (l : StampLane) (n : Nat) : W32 := ((l.evcfgAt.filter fun p => p.1 ≤ n).getLast?.map (·.2)).getD l.evcfg

/-! ### Blanking (R142, R143) -/

/-- Blanking is in force at run time t. -/
def blankedAt (l : StampLane) (t : Nat) : Bool :=
  [l.laneBlank, l.frameBlank, l.oneShot, l.settling].any fun o => o.any fun b => decide (b.1 ≤ t) && decide (t < b.2)

/-- An interval of a source from lane cycle m to lane cycle n, joined with one of the same source that it meets. -/
def blankFrom (old : Option (Nat × Nat)) (m n : Nat) : Option (Nat × Nat) :=
  let a := m * 16384
  let b := n * 16384
  match old with
  | some p => if a ≤ p.2 then some (min p.1 a, max p.2 b) else some (a, b)
  | none => some (a, b)

/-- The ending crossing starts the lane timer at the next TS cycle (Table 5-3). -/
def startLaneTimer (level : Bool) (t : Nat) (l : StampLane) : StampLane :=
  let edges := cfgFld l 3 2
  let ends := if edges = 2 || edges = 3 then !level else edges = 1 && level
  let from_ := (t / 1024 + 1) * 1024
  if ends && fld l.blnk 24 8 ≠ 0 then { l with laneBlank := some (from_, from_ + fld l.blnk 24 8 * 1024) } else l

/-! ### Hit times (R150-R152) -/

/-- The lower edge of bin b in a bin table, in 1/16 drop: entry 0 is 0, entry 64 is 16,384. -/
def binEdge (tbl : Tbl (BitVec 14)) (b : Nat) : Nat := if b = 64 then 16384 else (tget (0 : BitVec 14) b tbl).toNat

/-- The bin centre in drops. -/
def binCentre (tbl : Tbl (BitVec 14)) (b : Nat) : Nat := (binEdge tbl b + binEdge tbl (b + 1) + 16) / 32

/-- SL_INPATH: the delay of the path in use. -/
def inpath (s : State) (k : Nat) (l : StampLane) : Nat :=
  fld (tget (Config.otpWord (regAddr (.slInpath k))) (regAddr (.slInpath k)) s.otp) (if presc l = 0 then 0 else 16) 16

/-- Cluster c is outside the gradient limits (R537). -/
def outOfLimits (s : State) (c : Nat) : Bool := rfld s .flGrad c 1 == 1

/-- A capture decoded: time and frame, flags (R150, R152). -/
def decodeStamp (s : State) (k : Nat) (c : Capture) : StampTime :=
  let l := stamp s k
  let raw := c.lc * 16384 + c.vc * 1024 + binCentre l.bins c.bin
  let t : Int := raw - inpath s k l - l.trim.toInt
  let tick : Int := c.t / 16384 * 16384 - c.lc * 16384
  let early := decide (t < 0) && !c.ovf
  { frame := if early then (c.frame + 2 ^ 48 - 1) % 2 ^ 48 else c.frame
    no := if early then c.no - 1 else c.no
    time := ((if early then t + c.prevLen * 16384 else t) % 2 ^ 32).toNat
    run := tick + t
    notWarm := if early then !c.prevWarm else !c.warm
    degraded := outOfLimits s (stampCl k)
    ovf := c.ovf }

/-- A capture as it is decoded: with the bank, the trim and the gradient state of the lane cycle after the crossing (R152,
R154; Table 5-4). -/
def decoded (s : State) (k : Nat) (c : Capture) : StampTime := c.dec.getD (decodeStamp s k c)

/-- The hit-queue entry of a stamp (Table 5-7). -/
def hitOf (k type : Nat) (pol : Bool) (aux : Nat) (d : StampTime) : Hit :=
  { frame := BitVec.ofNat 16 d.frame, no := d.no, inq := 0
    word := at64 type 60 ||| at64 k 52 ||| at64 (b2n pol) 51 ||| at64 (b2n d.degraded) 50 ||| at64 (b2n d.notWarm) 49 |||
      at64 (b2n d.ovf) 48 ||| at64 (aux % 65536) 32 ||| at64 d.time 0 }

/-! ### Losses and the hit queue (R149, R158-R164) -/

/-- A hit of lane k is lost: with DEST = 0 it counts in the owner's stream (R164). -/
def hitLost (k : Nat) (s : State) : State :=
  if cfgBit (stamp s k) 6 then s else match stampOwner s k with
    | some t => loseHome t s
    | none => s

/-- A selected crossing is lost at dead time or a full capture buffer (R149). -/
def deadLoss (k : Nat) (s : State) : State := hitLost k (raise (.slEvents k) 1 (count (.slDeadCnt k) s))

/-- The lane cycle that begins at or after run time x. -/
def lcFrom (x : Nat) : Nat := (x + 16383) / 16384

/-- An entry due at run time x enters the hit queue there, or 25 TS cycles after the one before it, or is lost (R160, R162,
R163). -/
def enqueueHit (k x : Nat) (h : Hit) (s : State) : State :=
  let l := stamp s k
  let x := max x l.enqFree
  if l.queue.length < 256 then
    let s := setStamp k { l with queue := l.queue ++ [{ h with inq := x }], hits := l.hits + 1, enqFree := x + 25 * 1024 } s
    if fld (evcfgIn l (lcFrom x)) 8 1 = 1 then produce 3 k (lcFrom x) s else s
  else hitLost k (raise (.slEvents k) 0 (count (.slQlossCnt k) s))

/-- The entries that are in the hit queue now (R162). -/
def inQueue (s : State) (l : StampLane) : List Hit := l.queue.takeWhile fun h => decide (h.inq ≤ rdNow s)

/-- A pair that cannot be measured yields its record, due at run time x (R159). -/
def unmeasured (k x : Nat) (d : StampTime) (s : State) : State :=
  enqueueHit k x (hitOf k 2 false 0xFFFF d)
    (raise (.slEvents k) 3 (count (.slToterrCnt k) (modStamp k (fun l => { l with pair := none }) s)))

/-- The pair waiting in the pairing register, if any, is written unmeasured. -/
def pairFails (k : Nat) (s : State) : State :=
  match (stamp s k).pair with
  | some d => unmeasured k (rdNow s) d s
  | none => s

/-! ### The measurement tap (R171, R172) -/

/-- The flags a tap entry carries, and whether the candidate is stamped. -/
def tapInto (stamped : Option StampTime) (g : Gate) : Gate :=
  let g' := { g with j := g.j + 1 }
  match stamped with
  | none => g'
  | some d =>
    let t := (d.run - g.start).toNat
    let ok := (match g.last with
      | none => true
      | some u => decide (u + g.space * 1048576 ≤ t)) && decide (g.accepted < 65536)
    if ok then
      { g' with
        accepted := g.accepted + 1
        last := some t
        tap := g.tap ++ [{ j := g.j, t := t, ovf := d.ovf, degraded := d.degraded }]
        cause := if d.ovf && g.cause = 0 then 1 else g.cause
        degraded := g.degraded || d.degraded }
    else g'

/-- A candidate of time `run` reaches the tap of lane k: it belongs to the running gate, or to the one just closed. -/
def tapCandidate (k : Nat) (run : Int) (stamped : Option StampTime) (s : State) : State :=
  modMeas k (fun m =>
    if m.state == .running && decide ((m.gate.start : Int) ≤ run) then { m with gate := tapInto stamped m.gate }
    else
      { m with finish := m.finish.map fun f =>
          if (f.1.start : Int) ≤ run && run < (f.2.1 * 16384 : Nat) then (tapInto stamped f.1, f.2) else f }) s

/-- The candidates of lane k whose decode falls in lane cycle n or before are decoded (R172, Table 5-4). -/
def tapDue (k n : Nat) (s : State) : State :=
  let due (c : Capture × Bool) : Bool := decide (c.1.t / 16384 < n)
  let cs := (meas s k).cands
  if cs.isEmpty then s
  else forL (fun c s =>
      let d := decodeStamp s k c.1
      tapCandidate k d.run (if c.2 then some d else none) s)
    (cs.filter due) (modMeas k (fun m => { m with cands := m.cands.filter fun c => !due c }) s)

/-- A candidate is counted by a lane that has a gate, or waits for one (R171). -/
def tapNotes (k : Nat) (c : Capture) (stamped : Bool) (s : State) : State :=
  modMeas k (fun m => if m.state == .idle && m.finish.isEmpty then m else { m with cands := m.cands ++ [(c, stamped)] })
    (tapDue k (c.t / 16384) s)

/-- What the conversion of captures depends on changes in lane cycle n: those decoded before it are converted (R152, R154). -/
def decodesBefore (k n : Nat) (s : State) : State :=
  let s := tapDue k (n - 1) s
  let convert (c : Capture) : Capture :=
    if c.dec.isNone && decide (c.t / 16384 + 1 < n) then { c with dec := some (decodeStamp s k c) } else c
  if (stamp s k).buf.isEmpty then s else modStamp k (fun l => { l with buf := l.buf.map convert }) s

/-! ### Crossings (R136-R149) -/

/-- Stamping stands still from t_F of a timebase loss to the first tick after relock (R146). -/
def frozenNow (s : State) : Bool := !s.fr.running && s.fr.ticks != 0

/-- Capture is enabled at run time t (R145). -/
def captureEnabled (l : StampLane) (t : Nat) : Bool :=
  !cfgBit l 7 || (l.windowOpen && decide (l.windowFrom ≤ t) && l.window.all fun e => decide (t < e))

/-- The conditions of R145 other than blanking. -/
def stampable (s : State) (l : StampLane) (t : Nat) : Bool :=
  cfgBit l 0 && captureEnabled l t && s.fr.running && !l.frozen

/-- The capture of a crossing at run time t in bin b. -/
def captureOf (s : State) (trail : Bool) (t b : Nat) : Capture :=
  let n := min 65535 (t / 16384 - s.fr.tickLc)
  { trail := trail, t := t, lc := n, vc := t / 1024 % 16, bin := b, frame := s.fr.count, no := s.fr.ticks, prevLen := s.fr.prevLen,
    warm := s.tb.frameWarm, prevWarm := s.tb.prevWarm, ovf := decide (s.fr.period ≤ n),
    lost := false, dec := none }

/-- The pair of lane k whose trailing crossing is lost, that of the leading crossing captured last, is not measured: its
record is written, now or when the capture leaves the buffer (R159). -/
def trailingMissed (k : Nat) (s : State) : State :=
  let l := stamp s k
  match l.buf.getLast? with
  | none => pairFails k s
  | some c => if c.trail then s else modStamp k (fun l => { l with buf := l.buf.dropLast ++ [{ c with lost := true }] }) s

/-- The dead time of a capture unit begins at run time t (R149). -/
def deadFrom (trail : Bool) (t : Nat) (l : StampLane) : StampLane :=
  if trail then { l with deadTrail := t + 8192 } else { l with deadLead := t + 8192 }

/-- A selected crossing at its capture unit: captured, ignored in its dead time, or captured and discarded at a full buffer;
whether it was stamped (R149, R159). -/
def captureUnit (k : Nat) (trail : Bool) (t b : Nat) (s : State) : Bool × State :=
  let l := stamp s k
  let dead := decide (t < if trail then l.deadTrail else l.deadLead)
  if dead || 4 ≤ l.buf.length then
    let s := deadLoss k (if dead then s else setStamp k (deadFrom trail t l) s)
    (false, if cfgBit l 5 && trail then trailingMissed k s else s)
  else (true, setStamp k { deadFrom trail t l with buf := l.buf ++ [captureOf s trail t b] } s)

/-- The stamping of a crossing of the comparator TSEL selects (R138, R145, R147): the state, and for a candidate of the
measurement tap whether it was stamped. -/
def stampCrossing (k : Nat) (level blanked : Bool) (t b : Nat) (s : State) : State :=
  let l := stamp s k
  let edges := cfgFld l 3 2
  let cand (ok : Bool) (s' : State) : State := tapNotes k (captureOf s false t b) ok s'
  if presc l ≠ 0 then
    if level then
      let n := l.presc + 1
      if n = 2 ^ presc l then
        let s1 := setStamp k { l with presc := 0 } s
        if stampable s l t && edges ≠ 0 then
          let (ok, s2) := captureUnit k false t b s1
          cand ok s2
        else cand false s1
      else setStamp k { l with presc := n } s
    else s
  else
    let sel := if level then edges % 2 = 1 else 2 ≤ edges
    let skip := cfgBit l 5 && !level && l.skipTrail
    let (ok, s') :=
      if sel && !blanked && stampable s l t && !skip then captureUnit k (!level) t b s
      else (false, if skip then setStamp k { l with skipTrail := false } s else s)
    if level then cand ok s' else s'

/-- THRESHOLD_CROSSING: comparator A or B of lane k changes state at run time t, in phase bin b (R136-R147, R163).
(log entry 39, DEDUCED) -/
def thresholdCrossing (k : Nat) (cmpB level : Bool) (t b : Nat) (s : State) : State :=
  let s := toLc (t / 16384) s
  let l := stamp s k
  let blanked := blankedAt l t
  let sel := cmpB == cfgBit l 1
  let l := if cmpB then { l with sB := level } else { l with sA := level }
  let s :=
    if blanked then count (.slBlankCnt k) (setStamp k l s)
    else
      let bit := (if cmpB then 2 else 0) + (if level then 0 else 1)
      let l := if cmpB then { l with repB := level } else { l with repA := level }
      let l := { l with latchPend := l.latchPend ++ [(t / 16384 + 1, bit)] }
      let l := if sel then startLaneTimer level t l else l
      let s := setStamp k l s
      if fld (evcfgIn l (lc s)) bit 1 = 1 then produce 2 k (lc s + 1) s else s
  if sel then stampCrossing k level blanked t b s else s

/-- The analog self-test has taken the comparators' inputs: items 3 and 4 of Table 17-7 (R502). -/
def comparatorsTaken (s : State) : Bool := s.st.astTodo.head? == some 3 || s.st.astTodo.head? == some 4

/-- A crossing, or, while the self-test has the inputs, a change that nothing sees. (log entry 39, DEDUCED) -/
def crossing (k : Nat) (cmpB level : Bool) (t b : Nat) (s : State) : State :=
  if comparatorsTaken s then
    modStamp k (fun l => if cmpB then { l with sB := level } else { l with sA := level }) (toLc (t / 16384) s)
  else thresholdCrossing k cmpB level t b s

/-- The state of the comparator that changes. -/
def cmpState (l : StampLane) (cmpB : Bool) : Bool := if cmpB then l.sB else l.sA

def execThresholdCrossing (k : Nat) (cmpB level : Bool) (t bin : Nat) (s : State) : Res :=
  onUnit (k < 256 && bin < 64) (when (s.released && cmpState (stamp s k) cmpB != level && decide (s.fr.tickLc ≤ t / 16384) && decide (lc s ≤ t / 16384 + 8))
    (crossing k cmpB level t bin) s)

/-! ### From capture to queue (R150, R151, R158-R160) -/

/-- A coarse overflow is counted and reported (R151). -/
def coarseOverflow (k : Nat) (s : State) : State :=
  let s := raise (.slEvents k) 2 (count (.slOvfCnt k) s)
  match stampOwner s k with
  | some t =>
    if (stamp s k).ovfSent then s
    else faultGen t 0x0C k (modStamp k (fun l => { l with ovfSent := true }) s)
  | none => s

/-- HIT_ENQUEUE: the oldest capture is decoded and enters the queue or the pairing register; a leading crossing that still
waits there is written unmeasured first (R150, R158, R159). (log entry 39, DEDUCED) -/
def hitEnqueue (k : Nat) (s : State) : State :=
  match (stamp s k).buf with
  | [] => s
  | c :: rest =>
    let s := toLc (c.t / 16384 + 1) s
    let d := decoded s k c
    let s := modStamp k (fun l => { l with buf := rest }) s
    let s := if c.ovf then coarseOverflow k s else s
    let l := stamp s k
    let x := (c.t / 16384 + 2) * 16384
    let paced (s : State) : State := toLc (lcFrom (max x (stamp s k).enqFree)) s
    if cfgBit l 5 then
      if c.trail then
        match l.pair with
        | some p =>
          let w := ((d.run - p.run).toNat + 8) / 16
          if 65534 < w then unmeasured k x p (paced s) else
          let flags := { p with notWarm := p.notWarm || d.notWarm, degraded := p.degraded || d.degraded, ovf := p.ovf || d.ovf }
          enqueueHit k x (hitOf k 2 false w flags) (modStamp k (fun l => { l with pair := none }) (paced s))
        | none => raise (.slEvents k) 3 (count (.slToterrCnt k) s)
      else if c.lost then unmeasured k x d (paced (pairFails k s))
      else modStamp k (fun l => { l with pair := some d }) (pairFails k s)
    else enqueueHit k x (hitOf k 1 c.trail 0 d) (paced s)

def execHitEnqueue (k : Nat) (s : State) : Res := onUnit (k < 256) (when s.released (hitEnqueue k) s)

/-- TOT_TIMEOUT: no trailing crossing by 204.795 ns after the leading one (R159). -/
def totTimeout (k : Nat) (s : State) : State :=
  let l := stamp s k
  match l.pair with
  | some d =>
    if l.buf.any (·.trail) then s
    else pairFails k (modStamp k (fun l => { l with skipTrail := cmpState l (cfgBit l 1) })
      (toLc (((d.run + 1048552).toNat + 16383) / 16384) s))
  | none => s

def execTotTimeout (k : Nat) (s : State) : Res := onUnit (k < 256) (when s.released (totTimeout k) s)

/-! ### Thresholds (R137, R139, R140) -/

/-- The threshold codes are in range (R137). -/
def thrInRange (v : W32) : Bool :=
  let ok (c : Nat) : Bool := (sgn 10 c).natAbs ≤ 500
  ok (fld v 0 10) && ok (fld v 16 10)

/-- A threshold setting becomes pending, in the place of one it replaces (R139); SL_THR reads it back. -/
def submitThr (k : Nat) (v : W32) (s : State) : State :=
  let w : W32 := v &&& 0xF3FF03FF
  modStamp k (fun l => { l with thrPend := some { thr := w, tickPassed := l.thrPend.any (·.tickPassed) } })
    (setReg (.slThr k) w s)

/-- A write of SL_THR (R137, R139); a THR of the same lane cycle comes after it (R277). -/
def slThrApply (k : Nat) (v : W32) (s : State) : State :=
  if !thrInRange v then raise (.slEvents k) 7 s
  else if (stamp s k).thrLc = some (lc s) then s
  else submitThr k v s

/-- S is 0 in every comparator whose threshold or hysteresis the pending setting changes (Table 5-2). -/
def thrClear (l : StampLane) (w : W32) : Bool :=
  let hyst := fld w 28 4 != fld l.thrNow 28 4
  !((hyst || fld w 0 10 != fld l.thrNow 0 10) && l.sA) && !((hyst || fld w 16 10 != fld l.thrNow 16 10) && l.sB)

/-- The pending setting is applied at lane cycle n, and settling blanking starts (R139, R140). -/
def applyThr (k n : Nat) (s : State) : State :=
  let l := stamp s k
  match l.thrPend with
  | some p => raise (.slEvents k) 5 (setStamp k { l with thrNow := p.thr, thrPend := none, settling := blankFrom l.settling n (n + 2) } s)
  | none => s

/-- THR_APPLY: at the next lane-clock edge, if blanking is in force there or the tick and the trailing crossings have
passed; an interval that begins at a lane-clock edge applies the setting there (Table 5-2). -/
def thrApply (k : Nat) (s : State) : State :=
  let n := lc s + 1
  let l := stamp s k
  match l.thrPend with
  | some p =>
    if blankedAt l (n * 16384) || (p.tickPassed && thrClear l p.thr) then applyThr k n (toLc n s) else s
  | none => s

def execThrApply (k : Nat) (s : State) : Res := onUnit (k < 256) (when s.released (thrApply k) s)

/-! ### Blanking intervals (R142, R143) -/

/-- A one-shot interval is requested in lane cycle n: it starts at the second lane cycle after (Table 5-3). -/
def requestOneShot (k n : Nat) (s : State) : State :=
  modStamp k (fun l => { l with oneShotAt := l.oneShotAt ++ [n + 2] }) s

/-- The lane cycle in which the next one-shot, or the frame timer's interval, of a lane starts. -/
def startOf (l : StampLane) (one : Bool) : Option Nat := if one then l.oneShotAt.head? else l.frameAt

/-- A one-shot or the frame timer's interval of lane k begins in lane cycle n, and applies a pending threshold setting
(Tables 5-2 and 5-3). -/
def startBlank (k n : Nat) (one : Bool) (s : State) : State :=
  let flen (l : StampLane) : Nat := fld l.blnk 16 8
  applyThr k n (modStamp k (fun l =>
    if one then { l with oneShotAt := l.oneShotAt.tail, oneShot := blankFrom l.oneShot n (n + max 1 (flen l)) }
    else { l with frameAt := none, frameBlank := some (n * 16384, (n + flen l) * 16384) }) s)

/-- The ends of the intervals in force or past whose end has not been acted on. -/
def blankEnds (l : StampLane) : List Nat :=
  ([l.laneBlank, l.frameBlank, l.oneShot, l.settling].filterMap id).map (·.2)

/-- The next one-shot and the frame timer's interval, where they start before the intervals in force have ended (R143). -/
def blankStarts (k : Nat) (s : State) : State :=
  let starts (one : Bool) (s : State) : State := match startOf (stamp s k) one with
    | some n => if n * 16384 ≤ lmax (blankEnds (stamp s k)) then startBlank k n one (toLc n s) else s
    | none => s
  starts false (starts true s)

/-- The intervals of lane k have ended, and no other is in force: a differing state is adopted (R143, R159). -/
def adoptStates (k : Nat) (s : State) : State :=
  let l := stamp s k
  let s := toLc (lmax (blankEnds l) / 16384) s
  let differs := l.sA != l.repA || l.sB != l.repB
  let lost := cfgBit l 5 && cmpState { l with sA := l.repA, sB := l.repB } (cfgBit l 1) && !cmpState l (cfgBit l 1)
  let s := setStamp k { l with
    laneBlank := none, frameBlank := none, oneShot := none, settling := none, repA := l.sA, repB := l.sB } s
  let s := if differs then raise (.slEvents k) 4 s else s
  if lost then trailingMissed k s else s

/-- BLANKING_START: a one-shot or the frame timer's interval begins; intervals that ended before it have had their end. -/
def blankingStart (k : Nat) (one : Bool) (s : State) : State :=
  match startOf (stamp s k) one with
  | none => s
  | some n =>
    let es := blankEnds (stamp s k)
    startBlank k n one (toLc n (if !es.isEmpty && decide (lmax es < n * 16384) then adoptStates k s else s))

def execBlankingStart (k : Nat) (oneShot : Bool) (s : State) : Res :=
  onUnit (k < 256) (when s.released (blankingStart k oneShot) s)

/-- BLANKING_END: the first edge at which no source is in force (R143, R159). -/
def blankingEnd (k : Nat) (s : State) : State :=
  if (blankEnds (stamp s k)).isEmpty then s
  else adoptStates k (forN ((stamp s k).oneShotAt.length + 1) (fun _ => blankStarts k) s)

def execBlankingEnd (k : Nat) (s : State) : Res := onUnit (k < 256) (when s.released (blankingEnd k) s)

/-! ### Capture windows (R145) -/

/-- A capture window opens at run time t. -/
def openWindow (k t : Nat) (s : State) : State :=
  let len := rfld s (.slCapwin k) 0 16
  modStamp k (fun l => { l with
    windowOpen := true, windowFrom := t, window := if len = 0 then none else some (t + len * 16384) }) s

/-- The open window closes at run time t; an event held under ONCE opens a new one (R145). -/
def closeWindow (k t : Nat) (s : State) : State :=
  let held := (stamp s k).held
  let s := modStamp k (fun l => { l with windowOpen := false, window := none, held := false }) s
  if held then openWindow k ((t + 16383) / 16384 * 16384) s else s

/-- CAPTURE_WINDOW_CLOSE: the window has reached its length. -/
def captureWindowClose (k : Nat) (s : State) : State :=
  match (stamp s k).window with
  | some e => closeWindow k e (toLc (e / 16384) s)
  | none => s

def execCaptureWindowClose (k : Nat) (s : State) : Res := onUnit (k < 256) (when s.released (captureWindowClose k) s)

/-! ### Flush and register writes (R141, R163, R165, R167) -/

/-- SL_CTRL.FLUSH takes effect at the next lane cycle (R165). -/
def stampFlush (k : Nat) (s : State) : State :=
  let s := toLc (lc s + 1) s
  let l := stamp s k
  let n := l.queue.length + l.buf.length
  let s := setStamp k { l with queue := [], buf := [], pair := none } s
  if n = 0 then s else countN (.slFlushCnt k) n s

/-- An SL_CFG value that R167 refuses. -/
def slCfgBad (v : W32) : Bool :=
  let p := fld v 9 4
  let tot := fld v 5 1 == 1
  10 < p || (tot && (fld v 3 2 != 3 || p != 0)) || (p != 0 && fld v 3 2 == 2)

/-- A write of SL_CFG (R167). -/
def slCfgApply (k : Nat) (v : W32) (s : State) : State :=
  if slCfgBad v then raise (.slEvents k) 7 s
  else modStamp k (fun l => { l with cfgPend := true }) (writeRw (.slCfg k) v s)

/-- A write of SL_EVCFG (R163): it takes effect at the second lane cycle after. -/
def slEvcfgApply (k : Nat) (v : W32) (s : State) : State :=
  let s := writeRw (.slEvcfg k) v s
  modStamp k (fun l => { l with
    evcfg := evcfgIn l (lc s), evcfgAt := (l.evcfgAt.filter fun p => lc s < p.1) ++ [(lc s + 2, reg s (.slEvcfg k))] }) s

/-- The latch as it reads in the present lane cycle (R141). -/
def latchNow (s : State) (k : Nat) : W32 :=
  (stamp s k).latchPend.foldl (fun w p => if p.1 ≤ lc s then w ||| at32 1 p.2 else w) (reg s (.slLatch k))

/-- A write of SL_LATCH clears bits; those that are set in the present lane cycle or later stay to be set (R141, R15). -/
def slLatchClear (k : Nat) (v : W32) (s : State) : State :=
  let w := (stamp s k).latchPend.foldl (fun w p => if p.1 < lc s then w ||| at32 1 p.2 else w) (reg s (.slLatch k))
  modStamp k (fun l => { l with latchPend := l.latchPend.filter fun p => lc s ≤ p.1 })
    (setReg (.slLatch k) (w &&& ~~~(v &&& 0xF)) s)

/-! ### Bin calibration (R153-R157) -/

/-- Lane k is the lane of its stamp cluster whose pass comes next; its last table is in force (R155).
(log entry 37, DEDUCED) -/
def nextPass (s : State) (k : Nat) : Bool :=
  let lanes := ((List.range 16).map fun i => 16 * (k / 16) + i).filter (pairFree s)
  let u := (stamp s k).cal
  u.due != .no && !u.swap && lanes.contains k && lanes.all fun j =>
    let v := (stamp s j).cal
    !v.busy && (j == k || v.swap || goesFirst u k v j)

/-- CODE_DENSITY_PASS_START (R155): a lane that CAL_NOW or a cold start made due runs a full pass. -/
def codeDensityStart (k : Nat) (s : State) : State :=
  let p := (pulse s k).cal
  modStamp k (fun l => { l with cal := { l.cal with
    busy := true, full := l.cal.due == .now, due := .no, startLc := lc s, awaits := p.busy && p.awaits } }) s

def execCodeDensityPassStart (k : Nat) (s : State) : Res :=
  onUnit (k < 256) (when (s.released && nextPass s k) (codeDensityStart k) s)

/-- The lower edges of bins 0 to 63 from the counts (R153). -/
def binEdges (counts : List Nat) : List Nat :=
  let n := lsum counts
  (List.range 64).map fun b => (16384 * lsum (counts.take b) + n / 2) / n

/-- Every width lies from 64 to 448 (R153). -/
def widthsOk (edges : List Nat) : Bool :=
  ((edges ++ [16384]).zip (edges.drop 1 ++ [16384])).take 64 |>.all fun p => p.1 + 64 ≤ p.2 && p.2 ≤ p.1 + 448

/-- A list of edges as a bin table. -/
def binTable (edges : List Nat) : Tbl (BitVec 14) :=
  edges.zipIdx.foldl (fun t p => tset 0 p.2 (BitVec.ofNat 14 p.1) t) []

/-- The edges of a bin table. -/
def edgesOf (t : Tbl (BitVec 14)) : List Nat := (List.range 64).map (binEdge t)

/-- A visit whose pass was rejected or aborted ends; the pair is due again in turn (R155). -/
def visitEnds (k : Nat) (s : State) : State :=
  modPulse k (fun l =>
    if l.cal.busy then { l with cal := { l.cal with busy := false, full := false, due := .turn, awaits := false } } else l) s

/-- The samples of a pass, one in a lane cycle (R153). -/
def passSamples (u : CalState) : Nat := if u.full then 1048576 else 65536

/-- CODE_DENSITY_PASS_DONE: after the last sample the table is accepted into the shadow, or rejected (R153, R155, R157). -/
def codeDensityDone (k : Nat) (counts : List Nat) (s : State) : State :=
  let l := stamp s k
  let s := toLc (l.cal.startLc + passSamples l.cal) s
  let es := binEdges counts
  if widthsOk es then
    setStamp k { l with
      binsSh := binTable es
      infoSh := (lsum counts / 1024, clTemp s (stampCl k))
      cal := { l.cal with busy := false, swap := true, fitted := true, saveDue := saveDueNow s l.cal } } s
  else
    visitEnds k (logFault 0x0A (0x100 + k) 0
      (setStamp k { l with cal := { l.cal with busy := false, full := false, stale := true, awaits := false } } s))

/-- The counts of a pass are those of 64 bins, and as many as it takes samples (R153). -/
def execCodeDensityPassDone (k : Nat) (meas : StampCal) (s : State) : Res :=
  let u := (stamp s k).cal
  onUnit (k < 256) (when (s.released && u.busy && meas.counts.length == 64 && lsum meas.counts == passSamples u)
    (codeDensityDone k meas.counts) s)

/-- The SYS_SLCAL payload of the bank in force (Table 15-11). -/
def slcalPayload (k : Nat) (l : StampLane) : List W64 :=
  (at64 k 56 ||| at64 (l.info.1 % 65536) 32 ||| at64 ((l.info.2 % 65536).toNat) 0) ::
    (List.range 16).map fun i => (List.range 4).foldl (fun w b => w ||| at64 (binEdge l.bins (4 * i + b)) (48 - 16 * b)) 0

/-- The bin table in force of lane k is written to the journal (R157). -/
def saveSlCal (k : Nat) (s : State) : State :=
  let l := stamp s k
  sysRecord 0x0103 (slcalPayload k l)
    (setStamp k { l with cal := { l.cal with saved := some s.fr.ticks, saveDue := false } } s)

/-- The bins of a visit's pass are in force: its shots begin (R126, R155). -/
def shotsBegin (k : Nat) (s : State) : State :=
  modPulse k (fun l => if l.cal.busy && l.cal.awaits then { l with cal := { l.cal with awaits := false, startLc := lc s, waits := 0 } } else l) s

/-- The shadow of lane k comes into force at a tick (R154). -/
def swapSlCal (k : Nat) (s : State) : State :=
  let l := stamp s k
  if l.cal.swap then
    let s := raise (.slEvents k) 6 (setStamp k { l with
      bins := l.binsSh, info := l.infoSh
      cal := { l.cal with swap := false, fitted := false, valid := true, stale := false, awaits := l.cal.awaits && l.cal.busy } } s)
    let s := if l.cal.fitted && l.cal.awaits then shotsBegin k s else s
    if l.cal.saveDue then saveSlCal k s else s
  else s

/-- A pass in progress is aborted by a steward write (R154). -/
def abortPass (k : Nat) (s : State) : State :=
  if (stamp s k).cal.busy then
    visitEnds k (modStamp k (fun l => { l with cal := { l.cal with busy := false, full := false, awaits := false } }) s)
  else s

/-- A write of SL_TRIM (R154). -/
def slTrimApply (k : Nat) (v : W32) (s : State) : State :=
  let t := sgn 16 (fld v 0 16)
  if -4096 ≤ t && t ≤ 4095 then abortPass k (writeRw (.slTrim k) v s) else raise (.slEvents k) 7 s

/-- A write of SL_BIN_DATA (R154): entry 0 ignores writes; IDX advances. -/
def slBinApply (k : Nat) (v : W32) (s : State) : State :=
  let i := rfld s (.slBinIdx k) 0 6
  let s := if i = 0 then s else
    modStamp k (fun l => { l with binsSh := tset 0 i (BitVec.ofNat 14 (fld v 0 14)) l.binsSh }) s
  abortPass k (setRfld (.slBinIdx k) 0 6 (i + 1) s)

/-- SL_CTRL.CAL_LOAD: the shadow is checked, and comes into force at the next tick; one that fails does not (R154). -/
def slCalLoad (k : Nat) (s : State) : State :=
  let ok := widthsOk (edgesOf (stamp s k).binsSh)
  let s := modStamp k (fun l => { l with cal := { l.cal with swap := ok } }) s
  if ok then s else raise (.slEvents k) 7 s

/-- The bits of SL_CTRL that the owning tenant may write, and those of the steward only (R168). -/
def slCtrlSteward : W32 := 0x70

/-- A write of SL_CTRL (R142, R154, R155, R157, R165). -/
def slCtrlApply (k : Nat) (v : W32) (s : State) : State :=
  let on (b : Nat) : Bool := fld v b 1 == 1
  let s := if on 1 then requestOneShot k (lc s) s else s
  let s := if on 4 then slCalLoad k s else s
  let s := if on 5 then modStamp k (fun l => { l with cal := l.cal.requested .now (nextDueNo s) }) s else s
  let s := if on 6 then saveSlCal k s else s
  if on 0 then stampFlush k s else s

/-! ### The stamp lane at a tick -/

/-- The latch is cleared at a tick with LCLR in force before it, with every crossing on its way from before it (R141). -/
def latchTick (k : Nat) (s : State) : State :=
  let w := (stamp s k).latchPend.foldl (fun w p => w ||| at32 1 p.2) (reg s (.slLatch k))
  let s := modStamp k (fun l => { l with latchPend := [] }) s
  setReg (.slLatch k) (if cfgBit (stamp s k) 8 then 0 else w) s

/-- A pending threshold setting at a tick (Table 5-2). -/
def thrTick (k : Nat) (s : State) : State :=
  let l := stamp s k
  match l.thrPend with
  | some p =>
    if blankedAt { l with frameBlank := none } (rdNow s) || thrClear l p.thr then applyThr k (lc s) s
    else setStamp k { l with thrPend := some { p with tickPassed := true } } s
  | none => s

/-- A pending SL_CFG comes into force; whether it changes what restarts a gate (R148, R167, R178). -/
def slCfgTick (k : Nat) (s : State) : Bool × State :=
  let l := stamp s k
  if l.cfgPend then
    let c := reg s (.slCfg k)
    let differ (lo n : Nat) : Bool := fld c lo n != cfgFld l lo n
    let s := if cfgBit l 5 && fld c 5 1 == 0 then pairFails k s else s
    let l := stamp s k
    let l := { l with
      cfg := c, cfgPend := false, presc := if differ 9 4 then 0 else l.presc
      skipTrail := l.skipTrail && fld c 5 1 == 1 && !differ 1 1 }
    let l := if differ 1 1 || differ 2 1 then { l with settling := blankFrom l.settling (lc s) (lc s + 2) } else l
    (differ 9 4 || differ 1 1 || differ 2 1 || differ 0 1, setStamp k l s)
  else (false, s)

/-- SL_BLNK and SL_TRIM come into force at a tick, and the frame timer is set; whether TRIM changed (R144, R154, R178). -/
def slTick2 (k : Nat) (s : State) : Bool × State :=
  let l := stamp s k
  let trim := BitVec.ofNat 16 (rfld s (.slTrim k) 0 16)
  let b := reg s (.slBlnk k)
  let start := fld b 0 15
  (trim != l.trim, setStamp k { l with
    trim := trim
    blnk := b
    frameBlank := l.frameBlank.map fun b => (b.1, min b.2 (rdNow s))
    frameAt := if fld b 16 8 ≠ 0 && start < s.fr.period then some (lc s + start) else none
    frozen := false
    ovfSent := false } s)

/-- The stamp lane's part of a tick; whether a running gate restarts. -/
def stampTick (k : Nat) (s : State) : Bool × State :=
  let s := thrTick k (latchTick k (decodesBefore k (lc s) s))
  let (a, s) := slCfgTick k s
  let (b, s) := slTick2 k s
  let s := swapSlCal k s
  let l := stamp s k
  let s := if l.windowOpen && l.window.isNone then closeWindow k (rdNow s) s else s
  (a || b, s)

/-- At t_F the hit queue, the capture buffer and the pairing register are flushed, and stamping stops (R59, R146, R159). -/
def stampFreeze (k : Nat) (s : State) : State :=
  let l := stamp s k
  let s := if l.pair.isSome then raise (.slEvents k) 3 (count (.slToterrCnt k) s) else s
  let n := l.queue.length + l.buf.length + l.pair.toList.length
  let s := setStamp k { l with queue := [], buf := [], pair := none, frozen := true } s
  if n = 0 then s else countN .tbFlushHit n s

end Sys2Proof.Machine
end

