-- ==== Sys2Proof/Machine/Gradient.lean ====
section
/-! DEFINITION. The gradient check (R536, R537): the comparison of the clusters after a reading of the monitors or of the system
scan, and what becoming out of limits does. -/
namespace Sys2Proof.Machine

/-- The clusters compared: in service, and with a reading since reset. (log entry 67, DEDUCED) -/
def gradClusters (s : State) : List Nat :=
  (List.range 32).filter fun c => ((cluster s c).graded || rbit s (.adSys c) 31) && !quarantined s c && !outOfService s c

/-- The differences of a pair: temperature in 1/16 °C, VDD_LANE in mV, phase in drops, each where both have been read. -/
def gradDiff (s : State) (a b : Nat) : Nat × Nat × Nat :=
  let u := cluster s a
  let v := cluster s b
  let t := rbit s (.adSys a) 31 && rbit s (.adSys b) 31
  let m := u.graded && v.graded
  (if t then (u.temp - v.temp).natAbs else 0, if m then (u.vdd - v.vdd).natAbs else 0, if m then (u.phase - v.phase).natAbs else 0)

/-- A pair beyond the limits 20 °C, 25 mV and 256 drops. -/
def beyond (d : Nat × Nat × Nat) : Bool := decide (320 < d.1) || decide (25 < d.2.1) || decide (256 < d.2.2)

/-- A pair within the limits less the hysteresis. -/
def wellWithin (d : Nat × Nat × Nat) : Bool := decide (d.1 ≤ 288) && decide (d.2.1 ≤ 22) && decide (d.2.2 ≤ 224)

/-- FL_GRAD_MAX over the clusters compared. -/
def gradMax (s : State) : W32 :=
  let ds := (gradClusters s).flatMap fun a => (gradClusters s).map (gradDiff s a)
  at32 (min 4095 (lmax (ds.map (·.1)))) 20 ||| at32 (min 1023 (lmax (ds.map (·.2.1)))) 10 |||
    at32 (min 1023 (lmax (ds.map (·.2.2)))) 0

/-- The gradient state of cluster c changes in the present lane cycle; stamps decoded before it carry the state before (R152). -/
def gradSet (c v : Nat) (s : State) : State :=
  setRfld .flGrad c 1 v (if c < 16 then s else forN 16 (fun i => decodesBefore (16 * (c - 16) + i) (lc s)) s)

/-- Cluster c becomes out of limits (R537). -/
def gradOut (c : Nat) (s : State) : State :=
  let s := gradSet c 1 s
  let s := count .flGradCnt (logFault 0x0D c (at64 (reg s .flGradMax).toNat 0) s)
  raise .flEvents 4 (forL (fun t => faultGen t 0x0D c) (clusterTenants s c) (frameFlag flagDegraded s))

/-- The gradient state of cluster c after a reading. (log entry 67, DEDUCED) -/
def gradJudge (all : List Nat) (c : Nat) (s : State) : State :=
  let ds := (all.filter fun d => d != c).map (gradDiff s c)
  if fld (reg s .flGrad) c 1 = 1 then
    if ds.all wellWithin then raise .flEvents 4 (gradSet c 0 s) else s
  else if ds.any beyond then gradOut c s else s

/-- The included clusters are compared after a reading (R537). -/
def gradCheck (s : State) : State :=
  let all := gradClusters s
  let s := setReg .flGradMax (gradMax s) s
  forL (gradJudge all) all s

end Sys2Proof.Machine
end

