-- ==== Sys2Proof/Machine/Adc.lean ====
section
/-! DEFINITION. The housekeeping ADC (18_housekeeping_adc.md): system windows, sequences, conversions, records. Instants are
sequencer cycles since the release: a conversion takes 625 of them, the start-up 1,250 (R508, R511). -/
namespace Sys2Proof.Machine

def modAd (f : Adc → Adc) (s : State) : State := { s with ad := f s.ad }

/-- AD_CFG.EN, AWAKE, EVDLY. -/
def adEn (s : State) : Bool := rbit s .adCfg 31
def adAwake (s : State) : Bool := rbit s .adCfg 30
def evDelay (s : State) : Nat := rfld s .adCfg 0 16

/-- The range a channel uses (R507, Table 18-1). -/
def rangeUsed (cfg : W32) : Nat :=
  let c := fld cfg 21 6
  if c < 8 || c = 9 then fld cfg 27 2
  else if c = 0x12 then 2
  else if c = 0x11 || 0x20 ≤ c then 0
  else 3

/-- The channel gives a temperature. -/
def isTemp (chan : Nat) : Bool := chan == 0x11 || decide (0x20 ≤ chan)

/-- A reading as the 16-bit VALUE, saturated, with CLIP for a code (R507). -/
def saturated (temp : Bool) (v : Int) : Nat × Bool :=
  let c := if v < -32768 then -32768 else if 32767 < v then 32767 else v
  ((c % 65536).toNat, !temp && c != v)

/-! ### Sequences (R509, R512, R513) -/

/-- The enabled entries of a source, in increasing number: none while AD_CFG.EN is 0. -/
def entriesOf (s : State) (ft : Bool) : List Nat :=
  if adEn s then (List.range 16).filter fun i => rbit s (.adECfg i) 31 && rbit s (.adECfg i) 30 != ft else []

/-- A sequence takes its place by R, the frame timer's first at equal R, behind one that has begun (R512). -/
def insertSeq (q : AdcSeq) : List AdcSeq → List AdcSeq
  | [] => [q]
  | x :: t => if x.first && (q.r < x.r || (q.r == x.r && q.ft && !x.ft)) then q :: x :: t else x :: insertSeq q t

/-- An event acts on the free ADC start consumer in lane cycle n (R509, R513). -/
def evStart (n : Nat) (s : State) : State :=
  match entriesOf s false with
  | [] => s
  | l => modAd (fun a => { a with
      seqs := insertSeq { r := n + evDelay s, ft := false, entries := l, first := true } a.seqs, evBusy := true }) s

/-- An event reaches the ADC start consumer in lane cycle n (R349, R513, R514). -/
def adcEvent (n : Nat) (s : State) : State :=
  if !(s.ad.evBusy || s.ad.test) then evStart n s
  else if rbit s .evAdcSel 30 && !s.ad.evHeld then modAd (fun a => { a with evHeld := true }) s
  else raise .evEvents 1 (count .evAdcOvrCnt s)

/-- The consumer becomes free in lane cycle n: a held event acts (R349). -/
def evFree (n : Nat) (s : State) : State :=
  let held := s.ad.evHeld
  let s := modAd (fun a => { a with evBusy := false, evHeld := false }) s
  if held then evStart n s else s

/-- A sequence has written its last result, or has none, in lane cycle n. -/
def seqDone (ft : Bool) (n : Nat) (s : State) : State :=
  if ft then modAd (fun a => { a with ftBusy := false }) s else evFree n s

/-- ADC_FRAME_TIMER: the frame timer's request of the present frame falls (R509, R513, R514). -/
def frameTimer (s : State) : State :=
  match s.ad.ftAt with
  | none => s
  | some n =>
    let s := modAd (fun a => { a with ftAt := none }) (toLc n s)
    if s.ad.ftBusy || s.ad.test then raise .adEvents 3 (count .adFtOvrCnt s)
    else match entriesOf s true with
      | [] => s
      | l => modAd (fun a => { a with
          seqs := insertSeq { r := n, ft := true, entries := l, first := true } a.seqs, ftBusy := true }) s

def execAdcFrameTimer (s : State) : Res := .next (when s.released frameTimer s)

/-- The frame timer at a tick: the request of the frame that begins, if any (R509). -/
def adcTick (s : State) : State :=
  let div := max 1 (rfld s .adFt 16 12)
  let start := rfld s .adFt 0 15
  let on := rbit s .adFt 31 && s.fr.count % div == 0 && decide (start < s.fr.period)
  modAd (fun a => { a with ftAt := if on then some (lc s + start) else none }) s

/-! ### The reserved intervals and the system scan (R510, R514, R520) -/

/-- The first instant from b on at which a tenant conversion may begin (R510). (log entry 65, DEDUCED) -/
def unreserved (b : Nat) : Nat :=
  let r := b % 32768
  if r < 2048 then b - r + 2048 else if 32768 < r + 625 then b - r + 32768 + 2048 else b

/-- The channel of window j (Table 18-3), none for 41 to 63. -/
def scanChan (j : Nat) : Option Nat :=
  if j < 32 then some (0x20 + j)
  else if j = 32 then some 0x11
  else if j < 40 then some (0x0A + (j - 33))
  else if j = 40 then some 0x08
  else none

/-- The converter stays powered at the end, at instant e, of a conversion (R511). -/
def staysOn (s : State) (e : Nat) : Bool := adAwake s || s.ad.seqs.any fun q => decide (q.r ≤ e / 2)

/-- The start of the system window in progress, or of the next one where its conversion is over (lane cycles). -/
def windowLc (s : State) : Nat :=
  let w := lc s / 16384 * 16384
  if s.now ≤ 2 * w + 1875 && (s.ad.sysEnd < 2 * w + 1) then w else w + 16384

/-- A system reading is kept: AD_SYSn, and the temperature that a cluster's calibration and REQ TEMP use (R510, R520). -/
def sysReading (j : Nat) (v : Nat) (s : State) : State :=
  let s := setReg (.adSys j) (at32 1 31 ||| at32 v 0) s
  if j < 32 then lanesHeated j (modCluster j (fun c => { c with temp := sgn 16 v }) s) else s

/-- ADC_SYSTEM_WINDOW: the system scan's conversion of a window; the clusters are compared in the lane cycle after the reading of
one (R537). -/
def systemWindow (value : Int) (s : State) : State :=
  let w := windowLc s
  let j := w / 16384 % 64
  match scanChan j with
  | none => modAd (fun a => { a with sysEnd := max a.sysEnd (2 * w + 1) }) (toLc w s)
  | some chan =>
    let e := 2 * w + 625 + (if s.ad.powered then 0 else 1250)
    let s := passTo e s
    let s := modAd (fun a => { a with
      sysEnd := e, endAt := max a.endAt e, powered := staysOn s e, range := if isTemp chan then 0 else 3 }) s
    let s := sysReading j (saturated (isTemp chan) value).1 s
    if j < 32 then gradCheck (toLc (e / 2 + 1) s) else s

def execAdcSystemWindow (value : Int) (s : State) : Res :=
  .next (when (s.released && !s.ad.test && s.ad.conv.isNone) (systemWindow value) s)

/-! ### Tenant conversions (R508, R511, R512, R516-R519) -/

/-- The converter is powered for a start with requested start r (R511). -/
def poweredFor (s : State) (r : Nat) : Bool := s.ad.powered || r == s.ad.endAt / 2

/-- A conversion of entry i of the sequence begins. -/
def beginConv (q : AdcSeq) (i : Nat) (s : State) : State :=
  let b := unreserved (max s.now (max (2 * q.r) s.ad.endAt))
  let on := poweredFor s q.r || !q.first
  let c := if on then b else unreserved (b + 1250)
  let cfg := reg s (.adECfg i)
  let rg := rangeUsed cfg
  modAd (fun a => { a with
    conv := some { entry := i, cfg := cfg, ft := q.ft, c := c, woke := !on, settling := on && rg != a.range }
    powered := true, range := rg, lastEntry := i
    seqs := lmod 0 (fun x => { x with first := false }) a.seqs }) (passTo c s)

/-- ADC_CONVERSION_START: the next conversion of the sequence at the head of the queue; a sequence whose entries are no
longer enabled is over. (log entry 65, DEDUCED) -/
def conversionStart (s : State) : State :=
  match s.ad.seqs with
  | [] => s
  | q :: rest =>
    match q.entries.filter (entriesOf s q.ft).contains with
    | [] => seqDone q.ft (max (lc s) q.r) (modAd (fun a => { a with seqs := rest }) (toLc q.r s))
    | i :: l =>
      let q := { q with entries := i :: l }
      beginConv q i (modAd (fun a => { a with seqs := q :: rest }) s)

def execAdcConversionStart (s : State) : Res :=
  .next (when (s.released && s.ad.conv.isNone && !s.ad.test && adEn s) conversionStart s)

/-- The frame and the TIME of a sampling instant: frame in ticks since the release, offset in drops (R518). -/
def sampleFrame (s : State) (i : Nat) : Nat × Nat :=
  let t : W64 := absAt s (i / 2) + BitVec.ofNat 64 (i % 2 * 8192)
  match s.sp.frames.reverse.find? fun f => !neg64 (t - f.start) && (f.closed.isNone || neg64 (t - f.stop)) with
  | some f => (f.no, (t - f.start).toNat % 2 ^ 32)
  | none => (s.fr.ticks, (t - s.fr.start).toNat % 2 ^ 32)

/-- The record of a conversion (Table 18-4). -/
def adcWord (v : AdcConv) (value : Nat) (clip : Bool) (time : Nat) : W64 :=
  at64 0x5 60 ||| at64 (fld v.cfg 21 6) 54 ||| at64 (rangeUsed v.cfg) 52 ||| at64 (b2n v.settling) 51 |||
    at64 (b2n v.woke) 50 ||| at64 (b2n clip) 49 ||| at64 value 32 ||| at64 time 0

/-- The result of a conversion is written (R515, R518, R519). -/
def writeResult (v : AdcConv) (value : Int) (s : State) : State :=
  let (code, clip) := saturated (isTemp (fld v.cfg 21 6)) value
  let (frame, time) := if s.fr.running then sampleFrame s (v.c + 160) else (0, 0)
  let w := adcWord v code clip time
  let s := setReg (.adEResHi v.entry) (hi32 w) (setReg (.adEResLo v.entry) (lo32 w) s)
  let s := if fld v.cfg 29 1 = 1 && s.fr.running then
    emitRec { tenant := fld v.cfg 0 10, stream := none, frame := frame, words := [w], pos := chainPos s } s else s
  let s := if v.settling then raise .adEvents 1 s else s
  let s := if clip then raise .adEvents 2 s else s
  produce 8 0 ((v.c + 625) / 2 + 1) (raise .adEvents 0 (count .adConvCnt (count (.adECnt v.entry) s)))

/-- The conversion's sequence goes on, or is over. -/
def seqAdvance (v : AdcConv) (s : State) : State :=
  match s.ad.seqs with
  | q :: rest =>
    match q.entries.drop 1 with
    | [] => seqDone v.ft ((v.c + 625) / 2) (modAd (fun a => { a with seqs := rest }) s)
    | l => modAd (fun a => { a with seqs := { q with entries := l } :: rest }) s
  | [] => s

/-- ADC_CONVERSION_DONE: 312.5 lane cycles after its beginning the conversion's result is written. -/
def conversionDone (value : Int) (s : State) : State :=
  match s.ad.conv with
  | none => s
  | some v =>
    let e := v.c + 625
    let s := writeResult v value (passTo e s)
    let s := seqAdvance v (modAd (fun a => { a with conv := none, endAt := e }) s)
    modAd (fun a => { a with powered := staysOn s e }) s

def execAdcConversionDone (value : Int) (s : State) : Res := .next (when s.released (conversionDone value) s)

end Sys2Proof.Machine
end

