-- ==== Sys2Proof/Machine/Flags.lean ====
section
/-! DEFINITION. Results and flags of the computing instructions (08_enxia_reference_core.md: R230-R236) and the conditions
of Table 8-7. -/
namespace Sys2Proof.Machine

/-- Bit n of a word. -/
def bitAt {w : Nat} (x : BitVec w) (n : Nat) : Bool := fld x n 1 == 1

/-- The integer instructions of Table 8-4. -/
inductive IntOp where
  | add | sub | and | or | xor | shl | shr | sra | mul | min | max | cmp | li | lui
  deriving DecidableEq, Repr

/-- Z and N of a result, C and V as given. -/
def flagsOf {w : Nat} (r : BitVec w) (c v : Bool) : Flags := { z := r == 0, n := r.msb, c := c, v := v }

/-- The sum of two words with carry and signed overflow (R230, R234). -/
def addOf {w : Nat} (a b : BitVec w) : BitVec w × Flags :=
  let r := a + b
  (r, flagsOf r (decide (2 ^ w ≤ a.toNat + b.toNat)) (a.msb == b.msb && r.msb != a.msb))

/-- The difference of two words with borrow and signed overflow (R230, R234). -/
def subOf {w : Nat} (a b : BitVec w) : BitVec w × Flags :=
  let r := a - b
  (r, flagsOf r (decide (a.toNat < b.toNat)) (a.msb != b.msb && r.msb != a.msb))

/-- SHL, SHR and SRA by an amount of any size (R231). -/
def shlOf (a : W32) (n : Nat) : W32 × Bool :=
  (if n < 32 then a <<< n else 0, decide (1 ≤ n) && decide (n ≤ 32) && bitAt a (32 - n))
def shrOf (a : W32) (n : Nat) : W32 × Bool :=
  (if n < 32 then a >>> n else 0, decide (1 ≤ n) && decide (n ≤ 32) && bitAt a (n - 1))
def sraOf (a : W32) (n : Nat) : W32 × Bool :=
  (a.sshiftRight (min n 32), if n = 0 then false else if n ≤ 32 then bitAt a (n - 1) else a.msb)

/-- The result and the flags of an integer instruction from its operands and the flags before (R230-R232, Table 8-5). -/
def intResult (o : IntOp) (a b : W32) (f : Flags) : W32 × Flags :=
  let logic (r : W32) : W32 × Flags := (r, flagsOf r false false)
  let shift (p : W32 × Bool) : W32 × Flags := (p.1, flagsOf p.1 p.2 false)
  let keep (r : W32) : W32 × Flags := (r, flagsOf r f.c f.v)
  match o with
  | .add => addOf a b
  | .sub => subOf a b
  | .cmp => subOf a b
  | .and => logic (a &&& b)
  | .or => logic (a ||| b)
  | .xor => logic (a ^^^ b)
  | .shl => shift (shlOf a b.toNat)
  | .shr => shift (shrOf a b.toNat)
  | .sra => shift (sraOf a b.toNat)
  | .mul =>
    let p := a.toInt * b.toInt
    let r := BitVec.ofInt 32 p
    (r, flagsOf r false (decide (p < -2147483648) || decide (2147483647 < p)))
  | .min => keep (if a.toInt < b.toInt then a else b)
  | .max => keep (if b.toInt < a.toInt then a else b)
  | .li => (b, f)
  | .lui => (b, f)

/-- TSCL with m = 0: the scaled time and its flags (R236). -/
def scaled (t : W64) (g : W32) (sh : Nat) : W64 × Flags :=
  let p := t.toNat * g.toNat / 2 ^ sh
  let r := BitVec.ofNat 64 p
  (r, flagsOf r false (decide (2 ^ 64 ≤ p)))

/-- TSCL with m = 1: the extracted word and its flags (R236). -/
def extracted (t : W64) (sh : Nat) : W32 × Flags :=
  let q := t.toNat / 2 ^ sh
  let r := BitVec.ofNat 32 q
  (r, flagsOf r (decide (2 ^ 32 ≤ q)) false)

/-- The condition of code n holds (Table 8-7); e is whether an event is pending. -/
def condHolds (n : Nat) (f : Flags) (e : Bool) : Bool :=
  match n with
  | 0 => f.z
  | 1 => !f.z
  | 2 => f.c
  | 3 => !f.c
  | 4 => f.n
  | 5 => !f.n
  | 6 => f.v
  | 7 => !f.v
  | 8 => !f.c && !f.z
  | 9 => f.c || f.z
  | 10 => f.n == f.v
  | 11 => f.n != f.v
  | 12 => !f.z && f.n == f.v
  | 13 => f.z || f.n != f.v
  | 14 => e
  | _ => true

end Sys2Proof.Machine
end

