-- ==== Sys2Proof/Machine/Operands.lean ====
section
/-! DEFINITION. Enxia instruction words: fields of the formats of Tables 8-1, 9-2 and 9-3, the instruction a word is, whether
its encoding is defined (R225-R227, R252, R284), and its worst-case count (R228, Table 9-1). -/
namespace Sys2Proof.Machine

/-! ### Fields -/

def opc (w : W32) : Nat := fld w 26 6
/-- Fields of formats A, I and S: [25:21], [20:16], [15:11]. -/
def fA (w : W32) : Nat := fld w 21 5
def fB (w : W32) : Nat := fld w 16 5
def fC (w : W32) : Nat := fld w 11 5
def fImm (w : W32) : BitVec 16 := w.setWidth 16
/-- Fields of formats T.a and E: td or ta in [25:23], ta in [22:20], sel, x. -/
def fTd (w : W32) : Nat := fld w 23 3
def fTa (w : W32) : Nat := fld w 20 3
def fSel (w : W32) : Nat := fld w 18 2
/-- Fields of format E: kind, ls, lane, tag, gw. -/
def fKind (w : W32) : Nat := fld w 21 2
def fLs (w : W32) : Nat := fld w 19 2
def fLane (w : W32) : Nat := fld w 11 8
def fTag (w : W32) : Nat := fld w 5 6
def fGw (w : W32) : Nat := fld w 0 5
/-- The event name of format W. -/
def fName (w : W32) : Nat := fld w 0 10
/-- Sub-operation and lane offset of the format-I stamp instructions (R273). -/
def fSub (w : W32) : Nat := fld w 8 8

/-! ### Which instruction a word is -/

/-- The instructions, as the rows of the command table divide them. -/
inductive Mnemonic where
  | int (o : IntOp)
  | tadd | tsub | tcmp | tscl | tld | tst | tnow | tfrm
  | bcond | j | call | loop | ret | yield | halt | lock | unlock | bud
  | reqPing | reqPubstat | reqDigest | reqTemp | reqUngate | reqPost | reqCollect
  | emit | emitp | gateOpen | gateClose | splayStart | splayStop | sjump
  | sig | wait | poll | arm | disarm
  | hpop | hcnt | thr | blnkOne | blnkSet | measStart | measStop | mrd | record
  | reserved
  deriving DecidableEq, Repr

/-- The integer instruction of register-form fn n (Table 8-4). -/
def intFn (n : Nat) : Mnemonic :=
  match n with
  | 0 => .int .add
  | 1 => .int .sub
  | 2 => .int .and
  | 3 => .int .or
  | 4 => .int .xor
  | 5 => .int .shl
  | 6 => .int .shr
  | 7 => .int .sra
  | 8 => .int .mul
  | 9 => .int .min
  | 10 => .int .max
  | 11 => .int .cmp
  | _ => .reserved

/-- The service of a REQ code (Table 8-9). -/
def reqOf (k : Nat) : Mnemonic :=
  match k with
  | 0x00 => .reqPing
  | 0x01 => .reqPubstat
  | 0x02 => .reqDigest
  | 0x03 => .reqTemp
  | 0x10 => .reqUngate
  | 0x20 => .reqPost
  | 0x21 => .reqCollect
  | _ => .reserved

/-- The instruction of word w (Table 8-2); words that name no instruction are the reserved ones. -/
def mnemonicOf (w : W32) : Mnemonic :=
  match opc w with
  | 0x01 => intFn (fld w 0 4)
  | 0x02 => .int .add
  | 0x03 => .int .sub
  | 0x04 => .int .and
  | 0x05 => .int .or
  | 0x06 => .int .xor
  | 0x07 => (match fld w 5 2 with
    | 0 => .int .shl
    | 1 => .int .shr
    | 2 => .int .sra
    | _ => .reserved)
  | 0x08 => .int .mul
  | 0x09 => .int .min
  | 0x0A => .int .max
  | 0x0B => .int .cmp
  | 0x0C => .int .li
  | 0x0D => .int .lui
  | 0x10 => .tadd
  | 0x11 => .tsub
  | 0x12 => .tcmp
  | 0x13 => .tscl
  | 0x14 => .tld
  | 0x15 => .tst
  | 0x16 => .tnow
  | 0x17 => .tfrm
  | 0x18 => .bcond
  | 0x19 => .j
  | 0x1A => .call
  | 0x1B => (match fld w 0 4 with
    | 0 => .j
    | 1 => .call
    | _ => .reserved)
  | 0x1C => .loop
  | 0x1D => .ret
  | 0x1E => .yield
  | 0x1F => .halt
  | 0x20 => .lock
  | 0x21 => .unlock
  | 0x22 => .bud
  | 0x23 => reqOf (fld w 0 8)
  | 0x28 => .emit
  | 0x29 => .emitp
  | 0x2A => (match fKind w with
    | 0 => .gateClose
    | 1 => .gateOpen
    | _ => .reserved)
  | 0x2B => (match fKind w with
    | 0 => .splayStart
    | 1 => .splayStop
    | _ => .reserved)
  | 0x2C => .sjump
  | 0x30 => .sig
  | 0x31 => .wait
  | 0x32 => .poll
  | 0x33 => .arm
  | 0x34 => .disarm
  | 0x38 => .hpop
  | 0x39 => .hcnt
  | 0x3A => .thr
  | 0x3B => (match fSub w with
    | 0 => .blnkOne
    | 1 => .blnkSet
    | _ => .reserved)
  | 0x3C => (match fSub w with
    | 1 => .measStart
    | 2 => .measStop
    | _ => .reserved)
  | 0x3D => .mrd
  | 0x3E => .record
  | _ => .reserved

/-! ### Defined encodings (R252, R284) -/

/-- No bit of w is 1 under the mask. -/
def zeros (w mask : W32) : Bool := w &&& mask == 0

/-- sel and x of a second time operand (R233). -/
def yDefined (w : W32) : Bool :=
  match fSel w with
  | 0 => zeros w 0x3FFF8
  | 1 => zeros w 0x3FFE0
  | 2 => zeros w 0x3FFE0
  | _ => true

/-- ls and lane of format E; the fan form where `fan` allows it (R255, R264). -/
def lsDefined (w : W32) (fan : Bool) : Bool :=
  match fLs w with
  | 0 => true
  | 1 => fld w 16 3 == 0
  | 2 => fan && fld w 16 3 == 0
  | _ => false

/-- The lane selection of HPOP and MRD (R274). -/
def selLaneDefined (w : W32) : Bool :=
  fTa w == 0 && (fSel w == 0 || (fSel w == 1 && fld w 5 3 == 0))

/-- A channel name (Table 9-4). -/
def isChannel (n : Nat) : Bool := decide (n < 0x20) || (decide (0x100 ≤ n) && decide (n < 0x200))

/-- Format W of an instruction that allows the name where `ok`; d may be any time register where `d`, and gt, ge any where
so marked (R256, R267, R271, R272). -/
def wDefined (w : W32) (ok d gt ge : Bool) : Bool :=
  ok && zeros w 0x400 && (if d then fld w 24 2 == 0 else fA w == 0) && (gt || fB w == 0) && (ge || fC w == 0)

/-- The encoding of word w is defined, for the instruction it is. -/
def encodingDefined (w : W32) : Bool :=
  match mnemonicOf w with
  | .int o =>
    match opc w with
    | 0x01 => zeros w 0x7F0 && (o != .cmp || fA w == 0)
    | 0x07 => zeros w 0xFF80
    | 0x0B => fA w == 0
    | 0x0C => fB w == 0
    | 0x0D => fB w == 0
    | _ => true
  | .tadd => yDefined w
  | .tsub => yDefined w
  | .tcmp => yDefined w && fTd w == 0
  | .tscl => zeros w 0x3F && (if fld w 17 1 = 0 then fld w 24 2 == 0 else fld w 12 5 == 0)
  | .tld => true
  | .tst => true
  | .tnow => yDefined w && fTa w == 0
  | .tfrm => zeros w 0x7FFFFC && fld w 0 2 != 3
  | .bcond => zeros w 0x021F0000
  | .j => if opc w = 0x19 then zeros w 0x03FF0000 else zeros w 0x03E0FFF0
  | .call => if opc w = 0x1A then zeros w 0x03FF0000 else zeros w 0x03E0FFF0
  | .loop => zeros w 0x001F0000 && fA w != 0
  | .ret => zeros w 0x03FFFFFF
  | .yield => zeros w 0x03FFFFFF
  | .halt => zeros w 0x03FFFFFF
  | .lock => zeros w 0x03FFFFC0
  | .unlock => zeros w 0x03FFFFFF
  | .bud => zeros w 0x001FFFFF
  | .reqPing => zeros w 0xFF00
  | .reqPubstat => zeros w 0xFF00
  | .reqDigest => zeros w 0xFF00
  | .reqTemp => zeros w 0xFF00
  | .reqUngate => zeros w 0xFF00
  | .reqPost => zeros w 0xFF00
  | .reqCollect => zeros w 0xFF00
  | .emit => lsDefined w true && fKind w != 3 && fGw w == 0
  | .emitp => lsDefined w true && fKind w == 0
  | .gateOpen => lsDefined w true && fTd w == 0 && fTag w == 0 && fGw w == 0
  | .gateClose => lsDefined w true && fTd w == 0 && fTag w == 0 && fGw w == 0
  | .splayStart => lsDefined w false && fTag w == 0
  | .splayStop => lsDefined w false && fTag w == 0 && fTd w == 0 && fGw w == 0
  | .sjump => lsDefined w false && fTag w == 0 && fTd w == 0 && fKind w == 0
  | .sig => wDefined w (isChannel (fName w)) false false false
  | .wait => wDefined w (isChannel (fName w) || fName w == 0x3FF) true true (fName w == 0x3FF)
  | .poll => wDefined w (isChannel (fName w) || fName w == 0x3FF) true false (fName w == 0x3FF)
  | .arm => wDefined w (isChannel (fName w) || (decide (0x200 ≤ fName w) && decide (fName w < 0x240))) false false false
  | .disarm => wDefined w (isChannel (fName w) || (decide (0x200 ≤ fName w) && decide (fName w < 0x240))) false false false
  | .hpop => selLaneDefined w && fld w 8 5 == 0
  | .hcnt => fSub w == 0
  | .thr => fSub w == 0
  | .blnkOne => fA w == 0
  | .blnkSet => true
  | .measStart => fA w == 0
  | .measStop => fA w == 0
  | .mrd => selLaneDefined w && decide (fld w 8 3 ≤ 4) && fld w 11 7 == 0
  | .record => fTd w == 0 && decide (fSel w ≤ 1) && fld w 12 1 == 0
  | .reserved => false

/-- The worst-case count of a defined word (Tables 8-4, 8-6, 8-8, 9-1; R245-R248); of an undefined one 1 (Table 8-3). -/
def worstOf (w : W32) : Nat :=
  if !encodingDefined w then 1 else
  match mnemonicOf w with
  | .int o => if o = .mul then 3 else 1
  | .tadd => 2
  | .tsub => 2
  | .tcmp => 2
  | .tscl => if fld w 17 1 = 0 then 4 else 1
  | .tld => 3
  | .tst => 2
  | .tnow => 2
  | .tfrm => 1
  | .bcond => 2
  | .j => 2
  | .call => 2
  | .loop => 2
  | .ret => 2
  | .yield => 1
  | .halt => 1
  | .lock => 1
  | .unlock => 4
  | .bud => 1
  | .reqPing => 8
  | .reqPubstat => 8
  | .reqDigest => 8
  | .reqTemp => 8
  | .reqUngate => 8
  | .reqPost => 8
  | .reqCollect => 8
  | .emit => 2
  | .emitp => 2
  | .gateOpen => 1
  | .gateClose => 1
  | .splayStart => 2
  | .splayStop => 2
  | .sjump => 2
  | .sig => 1
  | .wait => 2
  | .poll => 2
  | .arm => 1
  | .disarm => 1
  | .hpop => 3
  | .hcnt => 2
  | .thr => 2
  | .blnkOne => 2
  | .blnkSet => 2
  | .measStart => 2
  | .measStop => 2
  | .mrd => 3
  | .record => 3
  | .reserved => 1

/-- Word w may execute inside a locked sequence, but for the target of a branch (R209). -/
def lockAllows (w : W32) : Bool :=
  match mnemonicOf w with
  | .int _ => true
  | .tadd => true
  | .tsub => true
  | .tcmp => true
  | .tscl => true
  | .tnow => true
  | .tfrm => true
  | .bcond => true
  | .bud => true
  | .emit => true
  | .emitp => true
  | .unlock => true
  | _ => false

end Sys2Proof.Machine
end

