-- ==== Sys2Proof/Machine/Regress.lean ====
section
/-! DEFINITION. Frequency measurement by regression (06_frequency_measurement.md): slots, gates, the fit and its result. -/
namespace Sys2Proof.Machine

/-! ### Slots (R169, R170) -/

/-- The lane-cycle number of absolute time in lane cycle n; while time is frozen it counts on with the lane clock. -/
def absLane (s : State) (n : Nat) : Nat := s.fr.base.toNat / 16384 + (n - s.fr.baseLc)

/-- The slot in progress (RG_SLOT). -/
def rgSlotNow (s : State) : Nat := absLane s (lc s) / 16 % 64

/-- The first lane cycle from n on that begins a slot of stamp lane k. (log entry 41, DEDUCED) -/
def slotStart (s : State) (k n : Nat) : Nat := n + (16 * (k % 64) + 1024 - absLane s n % 1024) % 1024

/-- The first lane cycle from n on that lies in a slot of lane k. -/
def inSlot (s : State) (k n : Nat) : Nat := if absLane s n / 16 % 64 = k % 64 then n else slotStart s k n

/-- A tap entry taken into the sums: the index counts 2^k input cycles for each candidate (R173, R179). -/
def intoSums (g : Gate) (e : TapEntry) : Gate :=
  let n := e.j * 2 ^ g.k
  { g with
    s0 := g.s0 + 1, s1 := g.s1 + n, s2 := g.s2 + n * n, st := g.st + e.t, snt := g.snt + n * e.t, stt := g.stt + e.t * e.t }

/-- Up to c entries of a gate's tap are taken. -/
def takeTap (c : Nat) (g : Gate) : Gate := { (g.tap.take c).foldl intoSums g with tap := g.tap.drop c }

/-- Up to c entries of the taps of closed gates are taken, those of the gate that closed first before the others; how many
may still be taken. -/
def takeClosed (c : Nat) : List (Gate × Nat × Nat) → Nat × List (Gate × Nat × Nat)
  | [] => (c, [])
  | (g, r) :: rest =>
    let p := takeClosed (c - g.tap.length) rest
    (p.1, (takeTap c g, r) :: p.2)

/-- Up to two entries in a lane cycle, oldest first: those of the gates being finished, then those of the running one. -/
def takeTwo (m : Measure) : Measure :=
  let p := takeClosed 2 m.finish
  { m with finish := p.2, gate := takeTap p.1 m.gate }

/-- REGRESSION_SLOT: the engine takes up to two entries in the next lane cycle of the lane's slot (R170).
(log entry 41, DEDUCED) -/
def regressionSlot (k : Nat) (s : State) : State :=
  let n := inSlot s k (max (lc s) (meas s k).slotAt)
  modMeas k (fun m => { takeTwo m with slotAt := n + 1 }) (tapDue k n (toLc n s))

def execRegressionSlot (k : Nat) (s : State) : Res := onUnit (k < 256) (when s.released (regressionSlot k) s)

/-! ### The fit (R179) -/

/-- The integer square root, by halving: the largest r with r² ≤ n, for n below 4^fuel. -/
def isqrtGo : Nat → Nat → Nat
  | 0, _ => 0
  | fuel + 1, n =>
    let r := 2 * isqrtGo fuel (n / 4)
    if (r + 1) * (r + 1) ≤ n then r + 1 else r
def isqrt (n : Nat) : Nat := isqrtGo 128 n

/-- A fraction rounded to the nearest integer, halves away from zero (R179). -/
def roundDiv (num : Int) (den : Nat) : Int :=
  let q : Nat := (2 * num.natAbs + den) / (2 * den)
  if num < 0 then -(q : Int) else q

/-- Period in 2^-48 drop, phase and residual in 1/16 drop, of the sums of a gate with at least two distinct indices. -/
def fit (g : Gate) : Int × Int × Nat :=
  let s0 : Int := g.s0
  let s1 : Int := g.s1
  let st : Int := g.st
  let d : Int := s0 * g.s2 - s1 * s1
  let b : Int := s0 * g.snt - s1 * st
  let rr : Int := g.stt * s0 * d - (st * d - b * s1) * st - b * g.snt * s0
  (roundDiv (b * 2 ^ 48) d.toNat, roundDiv ((st * d - b * s1) * 16) (s0 * d).toNat,
    min (2 ^ 32 - 1) ((isqrt (1024 * rr.toNat / (s0 * s0 * d).toNat) + 1) / 2))

/-- The cause of an invalid result; FEW is decided last (Table 6-1). -/
def resultCause (g : Gate) : Nat := if g.cause ≠ 0 then g.cause else if g.accepted < 3 then 3 else 0

/-- The five words of a result of lane k (Table 6-3). -/
def resultWords (k seq time : Nat) (g : Gate) : List W64 :=
  let cause := resultCause g
  let bad := cause ≠ 0
  let (p, ph, r) := if bad then (0, 0, 0) else fit g
  let pw := (p % 2 ^ 96).toNat
  let w (i : Nat) (v : W64) : W64 := at64 4 60 ||| at64 i 57 ||| v
  [w 0 (at64 k 49 ||| at64 (b2n bad) 48 ||| at64 (b2n g.notWarm) 47 ||| at64 (b2n g.degraded) 46 ||| at64 (b2n g.slew) 45 |||
      at64 g.k 41 ||| at64 cause 39 ||| at64 seq 32 ||| at64 (time % 2 ^ 32) 0),
   w 1 (at64 (pw / 2 ^ 48) 0), w 2 (at64 (pw % 2 ^ 48) 0), w 3 (at64 ((ph % 2 ^ 52).toNat) 0),
   w 4 (at64 g.accepted 40 ||| at64 r 0)]

/-! ### Gates (R174-R178, R182) -/

/-- TB_STATUS.SLEWING (R69). -/
def slewing (s : State) : Bool := reg s .tbFofsNow != reg s .tbFofs

/-- A gate of lane k starts at the tick in the present lane cycle, with RG_CFG and RG_GATE as they are; a reserved MODE leaves
the one in use (R174, R178; log entry 41, DEDUCED). TB_STATUS.SLEWING was 1 as the tick came where `slew`. -/
def gateStart (k : Nat) (slew : Bool) (s : State) : State :=
  let g : Gate := { Gate.empty with
    start := rdNow s, startLc := lc s, k := presc (stamp s k), notWarm := !s.tb.frameWarm,
    slew := slew || slewing s, dest := rbit s (.rgCfg k) 11, space := rfld s (.rgCfg k) 16 16 }
  let n := rfld s (.rgGate k) 0 20 + 1
  let mode := rfld s (.rgCfg k) 12 2
  modMeas k (fun m =>
    let m := if mode = 3 then m else { m with mode := mode, again := mode != 0 }
    { m with state := .running, frames := n, left := n, gate := g }) s

/-- The lane cycle in which the result of a gate closed in lane cycle n is ready (R180). -/
def readyLc (s : State) (k n : Nat) : Nat := slotStart s k (n + 1) + 1024 + 16

/-- The running gate of lane k closes in the present lane cycle with a first cause, if any (R176, R180). -/
def gateCloses (k cause : Nat) (s : State) : State :=
  let n := lc s
  modMeas k (fun m =>
    let g := { m.gate with cause := if m.gate.cause = 0 then cause else m.gate.cause }
    { m with state := .idle, finish := m.finish ++ [(g, n, readyLc s k n)], gate := Gate.empty }) s

/-- G × P is long enough for CONTINUOUS gates (R177). -/
def continuousOk (s : State) (k : Nat) : Bool := decide (2112 ≤ (rfld s (.rgGate k) 0 20 + 1) * s.fr.period)

/-- What follows a gate that has closed at a tick (R174, R175, R177). -/
def afterClose (k : Nat) (slew : Bool) (s : State) : State :=
  let m := meas s k
  if !m.again then s
  else if m.mode = 2 then
    if continuousOk s k then gateStart k slew s
    else raise (.rgLevents k) 2 (setMeas k { m with again := false } s)
  else if m.held then gateStart k slew (setMeas k { m with held := false } s)
  else setMeas k { m with state := .waitEvent } s

/-- The measurement of lane k at a tick: closing, restart, the flags of a gate that goes on, and the start of a waiting
one (R174, R176, R178, R181, R183). TB_STATUS.SLEWING was 1 as the tick came where `slew`. -/
def rgTick (k : Nat) (restart epoch slew : Bool) (s : State) : State :=
  let m := meas s k
  match m.state with
  | .running =>
    if m.left ≤ 1 then afterClose k slew (gateCloses k 0 s)
    else if restart then
      raise (.rgLevents k) 3 (modMeas k (fun m' => { m' with
        mode := m.mode, again := m.again, frames := m.frames, left := m.frames
        gate := { m'.gate with dest := m.gate.dest, space := m.gate.space } }) (gateStart k slew s))
    else
      setMeas k { m with
        left := m.left - 1
        gate := { m.gate with
          cause := if epoch && m.gate.cause = 0 then 2 else m.gate.cause
          notWarm := m.gate.notWarm || !s.tb.frameWarm
          slew := m.gate.slew || slew || slewing s } } s
  | .waitTick => if m.waitFrom ≤ lc s then gateStart k slew s else s
  | _ => s

/-- The measurement of lane k at t_F of a timebase loss (R182). -/
def rgFreeze (k : Nat) (s : State) : State :=
  let m := meas s k
  if m.state == .running then
    modMeas k (fun m' =>
      if !m.again then m' else if m.mode = 2 then { m' with state := .waitTick, waitFrom := 0 }
      else { m' with state := .waitEvent, held := false }) (gateCloses k 2 s)
  else s

/-- The epoch changes outside a tick while a gate is being finished or runs: nothing, the gates closed at t_F (R181). -/
def rgBusy (m : Measure) : Bool := m.state != .idle

/-- A START on lane k is refused (R174, R177). -/
def rgRefuses (s : State) (k : Nat) : Bool :=
  let mode := rfld s (.rgCfg k) 12 2
  rgBusy (meas s k) || mode == 3 || (mode == 2 && !continuousOk s k)

/-- A START (R174). -/
def rgStart (k : Nat) (s : State) : State :=
  if rgRefuses s k then raise (.rgLevents k) 2 s
  else
    let mode := rfld s (.rgCfg k) 12 2
    modMeas k (fun m => { m with
      state := if mode = 1 then .waitEvent else .waitTick
      mode := mode, again := mode != 0, held := false, waitFrom := 0 }) s

/-- A STOP (R176). -/
def rgStop (k : Nat) (s : State) : State :=
  modMeas k (fun m => match m.state with
    | .running => { m with left := 1, again := false, held := false }
    | .waitTick => { m with state := .idle, again := false, held := false }
    | .waitEvent => { m with state := .idle, again := false, held := false }
    | .idle => m) s

/-- A write of RG_CFG: SPACE of 0 is stored as 1. -/
def rgCfgApply (k : Nat) (v : W32) (s : State) : State :=
  setRfld (.rgCfg k) 16 16 (max 1 (fld v 16 16)) (writeRw (.rgCfg k) v s)

/-- RESULT_READY: the result of the oldest closed gate of lane k is ready (R180-R184). -/
def resultReady (k : Nat) (s : State) : State :=
  match (meas s k).finish with
  | [] => s
  | (_, _, ready) :: _ =>
    let s := tapDue k ready (toLc ready s)
    let g := ((meas s k).finish.map (·.1)).headD Gate.empty
    let g := takeTap g.tap.length g
    let seq := ((meas s k).seq + 1) % 128
    let ws := resultWords k seq (if s.fr.running then (lc s - s.fr.tickLc) * 16384 else 0) g
    let s := modMeas k (fun m => { m with finish := m.finish.tail, seq := seq, words := ws }) s
    let s := raise (.rgLevents k) 0 (raise (.rgDone (k / 32)) (k % 32) s)
    let s := if resultCause g ≠ 0 then raise (.rgLevents k) 1 s else s
    match stampOwner s k with
    | some t =>
      if g.dest then
        let r : SpRec := { tenant := t, stream := none, frame := s.fr.ticks, words := ws, pos := chainPos s }
        if s.fr.running then emitRec r s else { s with sp := { s.sp with later := s.sp.later ++ [r] } }
      else s
    | none => s

def execResultReady (k : Nat) (s : State) : Res := onUnit (k < 256) (when s.released (resultReady k) s)

end Sys2Proof.Machine
end

