-- ==== Sys2Proof/Machine/Switch.lean ====
section
/-! DEFINITION. The sequencers (07_enxia_programming_model.md; R93-R100), first part: the rights and the registers of a
context, budgets, leaving the sequencer, locked sequences and their breaking, faults, the choice at a switch point, and
instructions held to an interruption point. -/
namespace Sys2Proof.Machine

/-! ### Rights of a context (R207, R257) -/

/-- The tenant of context x. -/
def tenantOf (s : State) (x : Nat) : Nat := ctxTenant (ctx s x)

/-- Word w of the capability record under which context x runs: that of its tenant, or the one before a change that waits for
its lock to end (R207). -/
def ctxCap (s : State) (x w : Nat) : W32 :=
  match (ctx s x).keep with
  | some k => tget 0 w k.caps
  | none => capWord s (tenantOf s x) w

/-- Bit j of a bitmap that begins at word w of the record under which context x runs. -/
def ctxBit (s : State) (x w j : Nat) : Bool := fld (ctxCap s x (w + j / 32)) (j % 32) 1 == 1

/-- Context x may use pulse lane k, and stamp lane k. -/
def mayUse (s : State) (x k : Nat) : Bool := ctxBit s x 1 k
def mayStamp (s : State) (x k : Nat) : Bool := ctxBit s x 9 k

/-- Context x has a service right of Table 13-4. -/
def mayServe (s : State) (x b : Nat) : Bool := tenantOf s x == 0 || ctxBit s x 0 b

/-- Context x may name stream m (Table 13-2). -/
def mayRecord (s : State) (x m : Nat) : Bool :=
  (List.range 8).any fun i =>
    let w := ctxCap s x (43 + i)
    (fld w 15 1 == 1 && fld w 0 10 == m) || (fld w 31 1 == 1 && fld w 16 10 == m)

/-- Descriptor d of its cluster is held for context x (R286). -/
def mayPlay (s : State) (x d : Nat) : Bool :=
  match (ctx s x).keep with
  | some k => k.descs.contains d
  | none => descHeld s (x / 64) d (tenantOf s x)

/-! ### Budgets (R94-R99) -/

def shareOf (u : Ctx) : Nat := fld u.cfg 20 8
/-- SQ_CTX_CFG.RESP of a valid context: the cluster's responder (R203). -/
def isResp (u : Ctx) : Bool := ctxValid u && fld u.cfg 30 1 == 1

/-- The contexts of cluster c that are not in their reset state, device-wide. -/
def ctxsOf (s : State) (c : Nat) : List Nat := (s.cx.map (·.1)).filter fun x => x / 64 == c

/-- The cycles remaining in the budget of context x, or in its share pool (R94, R99). -/
def left (s : State) (x : Nat) : Nat :=
  let u := ctx s x
  if shareOf u = 0 then u.rem else tget 0 (shareOf u) (cluster s (x / 64)).pools

/-- The sum of the admitted budgets of the share group g of cluster c, cycles (R99). -/
def poolOf (s : State) (c g : Nat) : Nat :=
  lsum ((ctxsOf s c).map fun y => if ctxValid (ctx s y) && shareOf (ctx s y) == g then 4 * (ctx s y).bud else 0)

/-- The admitted budget of context x, or its pool's admitted total, cycles (R208). -/
def admitted (s : State) (x : Nat) : Nat :=
  let u := ctx s x
  if shareOf u = 0 then 4 * u.bud else poolOf s (x / 64) (shareOf u)

/-- Context x is charged n cycles in which it holds the sequencer (R95, R99). -/
def charge (x n : Nat) (s : State) : State :=
  let u := ctx s x
  let c := x / 64
  let s := modCluster c (fun k => { k with held := k.held + n }) s
  if shareOf u = 0 then setCtx x { u with rem := u.rem - n } s
  else modCluster c (fun k => { k with pools := tmod 0 (shareOf u) (fun p => p - n) k.pools }) s

/-! ### Leaving the sequencer (R189, R200, R201) -/

/-- Context x no longer holds the sequencer of its cluster. -/
def release (x : Nat) (s : State) : State :=
  modCluster (x / 64) (fun k => if k.run = some (x % 64) then { k with run := none, hold := none } else k) s

/-- Context x enters a state; it holds the sequencer no more. -/
def enter (x : Nat) (st : CtxState) (s : State) : State := modCtx x (fun u => { u with state := st }) (release x s)

/-- A ready context is preempted, with its class kept (R97, R201, R208). (log entry 27, DEDUCED) -/
def preempt (x : Nat) (s : State) : State :=
  let c := x / 64
  let s := if (ctx s x).exhausted then s else count (.ctxExh x) s
  let s := modCtx x (fun u => { u with exhausted := true }) s
  raise (.clBudStatus c) 1 (count (.clBudExh c) (enter x .preempted s))

/-- Context x is halted: by a halt, at a breakpoint, at the end of a step (R219-R222). -/
def haltCtx (x : Nat) (bp step : Bool) (s : State) : State :=
  modCtx x (fun u => { u with
    bpHit := u.bpHit || bp, stepped := u.stepped || step, stepping := false, haltPend := false, bpPend := false })
    (enter x .halted s)

/-! ### Locked sequences (R204, R208-R213) -/

/-- The lock of cluster c ends in sequencer cycle n: a responder that waits behind it switches in 9 cycles later (R204).
(log entry 30, DEDUCED) -/
def lockEnds (c n : Nat) (s : State) : State :=
  forL (fun x s => modCtx x (fun u =>
    if u.state = .ready ∧ u.cls = 0 ∧ u.readyAt ≠ 0 then { u with readyAt := n + 13 } else u) s)
    (ctxsOf s c) (modCluster c (fun k => { k with lock := none }) s)

/-- The lock that context x holds is undone: staged entries discarded, the checkpoint restored, L := 0 (R213). The number
of discarded entries is answered. (log entry 30, DEDUCED) -/
def unwind (x : Nat) (s : State) : Nat × State :=
  let c := x / 64
  match (cluster s c).lock with
  | none => (0, s)
  | some k =>
    let d := discardStaged c s
    let s := modCtx x (fun u => { u with l := false, r := k.saved, pc := k.pc }) d.2
    (d.1, raise (.sqEvents c) 1 (lockEnds c s.now s))

/-- The lock of context x is broken without a fault: cause 1 a forced debug break, 2 t_F (R213, Table 19-3). A STOP or HALT
that waits for its UNLOCK, and a step on its LOCK, wait on; the forced break is the halt (log entry 30, DEDUCED). -/
def breakLock (x cause : Nat) (st : CtxState) (s : State) : State :=
  let d := unwind x s
  let s := modCtx x (fun u =>
    let v := { u with lockBrk := true }
    if cause = 1 then { v with stepping := false, haltPend := false, bpPend := false } else v) (enter x st d.2)
  faultRec (ctxTenant (ctx s x)) (2 ^ 24 + x * 2 ^ 13 + min d.1 511 * 2 ^ 4 + cause) s

/-! ### Faults (R214, R215) -/

/-- Context x faults with a code; fpc is the address of the faulting instruction. -/
def ctxFault (x code : Nat) (fpc : BitVec 13) (s : State) : State :=
  let inl := (ctx s x).l
  let s := if inl then (unwind x s).2 else s
  let s := enter x .faulted s
  let s := modCtx x (fun u => { u with
    fault := at32 code 24 ||| at32 (b2n inl) 16 ||| at32 fpc.toNat 0
    post := if u.stopPend then none else u.post
    stepping := false, stopPend := false, haltPend := false, bpPend := false }) s
  faultRec (ctxTenant (ctx s x)) (code * 2 ^ 24 + x * 2 ^ 13 + fpc.toNat) (raise (.sqEvents (x / 64)) 0 s)

/-- The faulting instruction at the PC of context x is charged 1 cycle from cycle i (R229). -/
def faultAt (x i code : Nat) (s : State) : State :=
  let fpc := (ctx s x).pc
  ctxFault x code fpc (modCluster (x / 64) (fun k => { k with next := i + 1 }) (charge x 1 s))

/-- An uncorrectable word of memory mem, met by context x (R199). -/
def faultEcc (x i mem word : Nat) (s : State) : State :=
  faultAt x i 0x09 (eccMulti mem (x / 64) word (x * 2 ^ 13 + (ctx s x).pc.toNat) s)

/-! ### Memories and windows (R196, R197, R237) -/

def iBase (u : Ctx) : Nat := 64 * fld u.iwin 0 7
def iEnd (u : Ctx) : Nat := iBase u + 64 * fld u.iwin 16 8
def dBase (u : Ctx) : Nat := 8 * fld u.dwin 0 8
/-- The bytes of the data window. -/
def dLen (u : Ctx) : Nat := 64 * fld u.dwin 16 9

/-- The PC lies in the code window. -/
def inCode (u : Ctx) : Bool := decide (iBase u ≤ u.pc.toNat) && decide (u.pc.toNat < iEnd u)

/-- The word at the PC. -/
def wordAt (s : State) (x : Nat) : W32 := codeAt s (x / 64) (ctx s x).pc.toNat

/-- The cycles the next instruction of context x needs to issue: a fetch that fails its window check costs 1 (R229). -/
def nextWorst (s : State) (x : Nat) : Nat := if inCode (ctx s x) then worstOf (wordAt s x) else 1

/-! ### The choice at a switch point (Table 7-5) -/

/-- The ready contexts of cluster c. -/
def readyOf (s : State) (c : Nat) : List Nat := (ctxsOf s c).filter fun x => (ctx s x).state == .ready

/-- The earlier of two class-1 contexts: by the cycle of the wake, then by number. -/
def earlier (s : State) (x y : Nat) : Bool :=
  let a := (ctx s x).metAt
  let b := (ctx s y).metAt
  decide (a < b) || (a == b && decide (x < y))

/-- The context to hold the sequencer among some, if any: class 0, then class 1 in the order of the wakes, then class 2
in turn. -/
def pick (s : State) (c : Nat) (xs : List Nat) : Option Nat :=
  match xs.find? (fun x => (ctx s x).cls == 0) with
  | some x => some x
  | none =>
    match xs.filter fun x => (ctx s x).cls == 1 with
    | x :: t => some (t.foldl (fun a y => if earlier s y a then y else a) x)
    | [] =>
      let k := (cluster s c).last2
      ((List.range 64).map fun i => 64 * c + (k + 1 + i) % 64).find? fun x => xs.contains x

/-- SQ_CFG.QUANTUM of cluster c. -/
def quantum (s : State) (c : Nat) : Nat := rfld s (.sqCfg c) 0 11

/-- The quantum of running context x is over at cycle i (R202). -/
def quantumOver (s : State) (x i : Nat) : Bool := decide (quantum s (x / 64) ≤ i - (ctx s x).qStart)

/-- A switch falls due for running context x at cycle i (R201): never inside a lock. -/
def switchDue (s : State) (x i : Nat) : Bool :=
  let u := ctx s x
  let rs := readyOf s (x / 64)
  !u.l && ((quantumOver s x i && !rs.isEmpty) || rs.any fun y => decide ((ctx s y).cls < u.cls))

/-- Context x enters class 2 while it is served. -/
def toClass2 (x : Nat) (s : State) : State :=
  modCluster (x / 64) (fun k => { k with last2 := x % 64 }) (modCtx x (fun u => { u with cls := 2 }) s)

/-- At a boundary at cycle i the quantum of a running class-1 context ends its class (Table 7-5). -/
def quantumEnds (x i : Nat) (s : State) : State :=
  if quantumOver s x i && (ctx s x).cls == 1 && !(ctx s x).l then toClass2 x s else s

/-- Running context x leaves at a switch point, if its cluster has another context to choose; otherwise it keeps the
sequencer, for a new quantum (R201, R242). -/
def switchOut (x i : Nat) (s : State) : State :=
  if pick s (x / 64) (x :: readyOf s (x / 64)) = some x then modCtx x (fun u => { u with qStart := i }) s
  else enter x .ready s

/-- At a boundary at cycle i: running context x keeps the sequencer or leaves it. -/
def boundary (x i : Nat) (s : State) : State :=
  let s := quantumEnds x i s
  if switchDue s x i then switchOut x i s else s

/-- The first context of those ready in cluster c whose budget allows it is switched in; the others are preempted
(R200-R205). -/
def chooseIn (c : Nat) : Nat → State → State
  | 0, s => s
  | n + 1, s =>
    match pick s c (readyOf s c) with
    | none => s
    | some x =>
      let u := ctx s x
      let i := max (max s.now (cluster s c).next) (u.readyAt - 4)
      if left s x < 4 + nextWorst s x then chooseIn c n (preempt x s)
      else
        let s := charge x 4 (passTo i s)
        let s := modCtx x (fun u => { u with state := .running, qStart := i, readyAt := 0 }) s
        modCluster c (fun k => { k with
          run := some (x % 64), next := i + 4, last2 := if u.cls = 2 then x % 64 else k.last2 }) s

/-- BPADDR is the PC of context x, and it has not just been halted there (R222). -/
def atBreak (u : Ctx) : Bool := fld u.dbg 31 1 == 1 && fld u.dbg 0 13 == u.pc.toNat && !u.bpSkip

/-! ### The registers of a context -/

def setG (x i : Nat) (v : W32) (s : State) : State :=
  if i = 0 then s else modCtx x (fun u => { u with r := { u.r with g := tset 0 i v u.r.g } }) s
def setT (x i : Nat) (v : W64) (s : State) : State := modCtx x (fun u => { u with r := { u.r with t := tset 0 i v u.r.t } }) s
def setFlags (x : Nat) (f : Flags) (s : State) : State := modCtx x (fun u => { u with r := { u.r with flags := f } }) s
/-- A general register and a time register of context x; g0 is never listed (R192). -/
def gOf (s : State) (x i : Nat) : W32 := tget 0 i (ctx s x).r.g
def tOf (s : State) (x i : Nat) : W64 := tget 0 i (ctx s x).r.t
def flagsNow (s : State) (x : Nat) : Flags := (ctx s x).r.flags
def setZ (x : Nat) (z : Bool) (s : State) : State := setFlags x { flagsNow s x with z := z } s
def setZC (x : Nat) (z c : Bool) (s : State) : State := setFlags x { flagsNow s x with z := z, c := c } s

/-! ### Held instructions (R202, R248, R259) -/

/-- The numbers of the set bits of the low 16 bits of a word, lowest first. -/
def bitsSet (m : W32) : List Nat := (List.range 16).filter fun n => fld m n 1 == 1

/-- The pulse lanes a format-E word names, with the multiple of the stagger each receives, and the stagger (R255). -/
def lanesNamed (s : State) (x : Nat) (w : W32) : List (Nat × W64) :=
  let g := gOf s x (fLane w % 32)
  match fLs w with
  | 0 => [(fLane w, 0)]
  | 1 => [(g.toNat, 0)]
  | _ => (bitsSet g).zipIdx.map fun p => (16 * (x / 64) + p.1, BitVec.ofNat 64 (p.2 * fld g 16 16))

/-- The lane cycle in which the port of lane k takes its next pending entry (R107). -/
def acceptLc (s : State) (l : PulseLane) : Option Nat := (portNext l).map fun p => max (max (lc s) p.1) l.portFree

/-- The lane cycle from which the direct slot of lane k is free: the one in which the port takes, or took, its entry (R107,
R260). -/
def slotFreeLc (s : State) (k : Nat) : Nat :=
  let l := pulse s k
  match l.direct, portNext l with
  | some (w, _), some (w', e') =>
    let n := max (max (lc s) w') l.portFree
    if e'.source = .segment then max w (n + (storedOf e').length) else n
  | _, _ => l.directFree

/-- The service lane cycle of cluster c for a REQ issued in cycle i: the first that begins after i with the lane-cycle
count congruent to c modulo 32 (R248). (log entry 31, DEDUCED) -/
def serviceLc (c i : Nat) : Nat :=
  let n := i / 2 + 1
  n + (c + 32 - n % 32) % 32

/-- The instructions that can be held, by the cycles before their first interruption point (R248, R259). -/
def holdFirst (m : Mnemonic) : Option Nat :=
  match m with
  | .emit | .emitp => some 2
  | .reqPing | .reqPubstat | .reqDigest | .reqTemp | .reqUngate | .reqPost | .reqCollect => some 8
  | _ => none

/-- The cycle in which an EMIT or EMITP of context x, issued in cycle i, finds every slot that it names free (R259). -/
def emitAt (s : State) (x : Nat) (w : W32) (i : Nat) : Nat :=
  max (i + 1) (2 * lmax ((lanesNamed s x w).map fun p => slotFreeLc s p.1))

/-- The first cycle that is no interruption point any more of an instruction with `first` cycles before its first one, issued
by context x in cycle i, and its last cycle. -/
def holdEnds (s : State) (x : Nat) (w : W32) (first i : Nat) : Nat × Nat :=
  if first = 2 then (emitAt s x w i + 1, emitAt s x w i)
  else (2 * serviceLc (x / 64) i, 2 * serviceLc (x / 64) i + 3)

/-- The cycle in which the next instruction of cluster c issues: the later of the present cycle and the first in which it may,
and of an instruction that is held, and has not ended before the present cycle, the first in which it may.
(log entry 28, DESIGN CHOICE) -/
def issueCycle (s : State) (c : Nat) : Nat :=
  let u := cluster s c
  match u.run, u.hold with
  | _, some h => h.1
  | some n, none =>
    let x := 64 * c + n
    match holdFirst (mnemonicOf (wordAt s x)) with
    | some f => if !(ctx s x).l && s.now ≤ (holdEnds s x (wordAt s x) f u.next).2 then u.next else max s.now u.next
    | none => max s.now u.next
  | none, none => max s.now u.next

/-- The cycle up to which an instruction issued in cycle i is charged. -/
def paidTo (s : State) (c i : Nat) : Nat := match (cluster s c).hold with
  | some h => h.2
  | none => i

/-- The first interruption point among cycles a, a + 1, ... (n of them) at which context x, charged up to cycle j, leaves: its
budget is spent (true) or a switch falls due. -/
def interruptAt (s : State) (x j : Nat) : Nat → Nat → Option (Nat × Bool)
  | 0, _ => none
  | n + 1, a =>
    if left s x ≤ a - j then some (a, true)
    else if switchDue (quantumEnds x a s) x a && pick s (x / 64) (x :: readyOf s (x / 64)) != some x then some (a, false)
    else interruptAt s x j n (a + 1)

/-- Context x, charged up to cycle j, leaves at interruption point p with its PC on the held instruction (R202). -/
def leaveAt (x j : Nat) (p : Nat × Bool) (s : State) : State :=
  let s := modCluster (x / 64) (fun k => { k with next := p.1, hold := none }) (charge x (p.1 - j) s)
  if p.2 then preempt x s else enter x .ready (quantumEnds x p.1 s)

/-- The held instruction of context x, issued in cycle i and charged up to cycle j, meets its interruption points before
cycle n: its context leaves at one, or it is held on. -/
def holdOn (x first i j n : Nat) (w : W32) (s : State) : State :=
  let a := max j (i + first)
  match interruptAt s x j (min n (holdEnds s x w first i).1 - a) a with
  | some p => leaveAt x j p s
  | none => modCluster (x / 64) (fun k => { k with hold := some (i, max j n) }) (charge x (n - j) s)

/-- What is about to happen in cycle n finds the instruction in progress in cluster c held up to there (R202; log
entry 29, DEDUCED). -/
def heldTo (c n : Nat) (s : State) : State :=
  match (cluster s c).run with
  | none => s
  | some y =>
    let x := 64 * c + y
    let w := wordAt s x
    let u := ctx s x
    match holdFirst (mnemonicOf w) with
    | none => s
    | some f =>
      let i := issueCycle s c
      if u.state == .running && !u.l && inCode u && encodingDefined w && !atBreak u && decide (i < n) &&
          decide (n ≤ (holdEnds s x w f i).2) then holdOn x f i (paidTo s c i) n w s
      else s

/-- The cycle at which the held instruction of running context x gives way to a STOP or a HALT in cycle n: its next
interruption point, if it has one (R190, R219). -/
def givesWay (x n : Nat) (s : State) : Option Nat :=
  match (cluster s (x / 64)).hold, holdFirst (mnemonicOf (wordAt s x)) with
  | some h, some f =>
    let a := max n (max h.2 (h.1 + f))
    if a < (holdEnds s x (wordAt s x) f h.1).1 then some a else none
  | _, _ => none

end Sys2Proof.Machine
end

