-- ==== Sys2Proof/Machine/Sequencer.lean ====
section
/-! DEFINITION. The sequencers, second part: wakes, the WAIT consumer, issue and retirement, run control, switch-in. -/
namespace Sys2Proof.Machine

/-! ### Wakes and the WAIT consumer (R204, R205, R266-R269) -/

/-- A waiting context becomes READY in sequencer cycle n, in class 0 for the responder's trigger and in class 1 otherwise;
in a step it halts (R204, R205, R221). What its cluster holds has been held up to there. -/
def wakeCtx (x n : Nat) (resp : Bool) (s : State) : State :=
  let s := heldTo (x / 64) n s
  let s := modCtx x (fun u => { u with
    state := .ready, cls := if resp then 0 else 1, metAt := n, readyAt := n + 12, wait := none }) s
  if (ctx s x).stepping then haltCtx x false true s else s

/-- A delivery is written (R268): the time to t[d], the code of a trigger to g[ge]. -/
def deliver (x d ge : Nat) (e : Delivery) (s : State) : State :=
  let s := setT x d e.time s
  match e.code with
  | some v => setG x ge (v.setWidth 32) s
  | none => s

/-- An event dropped at the WAIT consumer of a context: its overrun flag and its counter (R349). -/
def waitOverrun (x : Nat) (s : State) : State :=
  count (.clWovr (x / 64) (x % 64)) (modCtx x (fun u => { u with con := { u.con with overrun := true } }) s)

/-- An event on the subject of context x reaches its consumer in lane cycle n (R266-R268). -/
def waitEvent (x n : Nat) (e : Delivery) (s : State) : State :=
  let u := ctx s x
  match u.state, u.wait with
  | .waiting, some w =>
    let s := setZC x true w.c (deliver x w.d w.ge e s)
    wakeCtx x (2 * n) e.code.isSome s
  | _, _ =>
    if fld u.cfg 28 1 = 1 && u.con.pending.isNone then setCtx x { u with con := { u.con with pending := some e } } s
    else waitOverrun x s

/-- The contexts of cluster c whose consumer is attached to a name. -/
def attached (s : State) (c name : Nat) : List Nat :=
  (ctxsOf s c).filter fun x => ctxValid (ctx s x) && (ctx s x).con.subject == some name

/-- The trigger broadcast meets the WAITs of the responders in lane cycle n (R36, R203, R268). -/
def trigBroadcast (n : Nat) (time : W64) (code : BitVec 16) (s : State) : State :=
  forN 32 (fun c s => if outOfService s c then s
    else forL (fun x => waitEvent x n { time := time, code := some code }) (attached s c 0x3FF) s) s

/-- The broadcasts that meet a WAIT by lane cycle n have met it. -/
def broadcastsDue (n : Nat) (s : State) : State :=
  let due := s.ttc.bcast.filter fun b => b.1 ≤ n
  forL (fun b => trigBroadcast b.1 b.2.1 b.2.2) due { s with ttc := { s.ttc with bcast := s.ttc.bcast.filter fun b => n < b.1 } }

/-- WAIT_TIMEOUT: the timeout of a waiting context expires (R269). -/
def waitTimeout (x : Nat) (s : State) : State :=
  match (ctx s x).wait with
  | some w =>
    match w.timeout with
    | some n =>
      let s := toLc n s
      let s := broadcastsDue (lc s) s
      if (ctx s x).wait == some w then wakeCtx x (2 * lc s) false (setZC x false w.c s) else s
    | none => s
  | none => s

def execWaitTimeout (x : Nat) (s : State) : Res :=
  onUnit (x < 2048) (when (s.released && (ctx s x).state == .waiting && !outOfService s (x / 64)) (waitTimeout x) s)

/-! ### STOP and HALT that wait (R190, R219, R222) -/

/-- The context's post slot and consumer at a START, a STOP and a change of tenant (R251, R266). -/
def freePost (u : Ctx) : Ctx := { u with post := none }

/-- A STOP acts on context x outside a lock (R190). (log entry 29, DEDUCED) -/
def stopNow (x : Nat) (s : State) : State :=
  modCtx x (fun u => freePost { u with
    wait := none, startPend := false, autoStart := false, stopPend := false, stepping := false, haltPend := false
    bpHit := false, stepped := false, bpSkip := false, suspHalt := false }) (enter x .stopped s)

/-- A STOP or a HALT that context x waits with, and that no lock holds back, acts (R190, R219). -/
def waitedAct (x : Nat) (s : State) : State :=
  let u := ctx s x
  if u.l then s
  else if u.stopPend then stopNow x s
  else if u.haltPend || u.bpPend then haltCtx x u.bpPend u.stepping s
  else s

/-! ### Issue and retirement (R96, R228, R229) -/

/-- How an issued instruction ends: it retires after n cycles, leaves with its context switched out and charged, or faults at
steps 8 and 9 of Table 8-3. -/
inductive Ends where
  | retires (n : Nat) (s : State)
  | leaves (s : State)
  | faults (code : Nat)
  | faultsEcc (mem word : Nat)

/-- The next instruction of context x. -/
def advance (x : Nat) (s : State) : State := modCtx x (fun u => { u with pc := u.pc + 1 }) s

/-- What follows the retirement of an instruction of context x that issued at address `pc`, inside a lock where `inl`: the
limit of R212, a STOP or HALT that waited for it, and the end of a step (R190, R219, R221). -/
def afterRetire (x : Nat) (pc : BitVec 13) (inl : Bool) (s : State) : State :=
  let c := x / 64
  let s := modCtx x (fun u => { u with bpSkip := false, ret := u.ret + 1 }) s
  match inl, (ctx s x).l, (cluster s c).lock with
  | true, true, some k =>
    let s := modCluster c (fun u => { u with lock := some { k with count := k.count + 1 } }) s
    if k.n ≤ k.count + 1 then ctxFault x 0x07 pc s else s
  | _, _, _ =>
    let u := ctx s x
    if u.stopPend || u.haltPend then waitedAct x s
    else if u.stepping && !u.l && (u.state == .running || u.state == .ready) then haltCtx x false true s else s

/-- An instruction of context x issued in cycle i retires after n cycles; those it was held for are charged already. -/
def retire (x i n : Nat) (pc : BitVec 13) (inl : Bool) (s : State) : State :=
  afterRetire x pc inl (modCluster (x / 64) (fun k => { k with next := i + n, hold := none })
    (charge x (i + n - paidTo s (x / 64) i) s))

/-- The position check of a branch inside a locked sequence (R243). -/
def branchAllowed (u : Ctx) (k : LockInfo) (w : W32) : Bool :=
  let t : BitVec 13 := u.pc + 1 + (fImm w).setWidth 13
  let pb := (u.pc - k.pc).toNat
  let pt := (t - k.pc).toNat
  decide (pb < pt) && decide (pt ≤ k.n)

/-- Step 5 of Table 8-3: the instruction is admissible at this point (R209, R243, R245, R246). -/
def admissible (s : State) (x : Nat) (w : W32) : Bool :=
  let u := ctx s x
  if u.l then
    lockAllows w && match mnemonicOf w, (cluster s (x / 64)).lock with
      | .bcond, some k => branchAllowed u k w
      | _, _ => true
  else mnemonicOf w != .unlock

/-- What an instruction of context x, issued in cycle i, comes to. -/
def ends (x i : Nat) (s : State) (e : Ends) : State :=
  match e with
  | .retires n s' => retire x i n (ctx s x).pc (ctx s x).l s'
  | .leaves s' => s'
  | .faults code => faultAt x i code s
  | .faultsEcc mem word => faultEcc x i mem word s

/-- An instruction that can be held, of context x, issued in cycle i: broadcasts meet their WAITs and its context may leave at
its interruption points; where it does not, `f` is its effect (R202). -/
def heldRun (x i : Nat) (w : W32) (s : State) (f : State → Ends) : Ends :=
  let first := (holdFirst (mnemonicOf w)).getD 2
  let s := broadcastsDue ((holdEnds s x w first i).2 / 2) s
  if (ctx s x).state != .running then .leaves s
  else
    let j := paidTo s (x / 64) i
    let a := max j (i + first)
    match interruptAt s x j ((holdEnds s x w first i).1 - a) a with
    | some p => .leaves (leaveAt x j p s)
    | none => f s

/-- The checks of Table 8-3 from step 1 on, in order, for context x at cycle i; then the instruction's effect. -/
def issueWord (x i : Nat) (w : W32) (chk : State → Option Nat) (run : State → Ends) (s : State) : State :=
  let u := ctx s x
  let a := u.pc.toNat
  if !inCode u then faultAt x i 0x04 s
  else if codeBad s (x / 64) a then faultEcc x i 0 a s
  else if !u.l && left s x < worstOf w then preempt x s
  else if !encodingDefined w || !admissible s x w then faultAt x i 0x05 s
  else match chk s with
    | some code => faultAt x i code s
    | none => ends x i s (run s)

/-- The row of an instruction on cluster c: where the running context's next word is that instruction and the context keeps
the sequencer, the word issues, or goes on where it is held. `chk` makes the checks of steps 6 and 7, `run` the effect from the issue cycle on.
(log entry 28, DESIGN CHOICE) -/
def issue (c : Nat) (m : Mnemonic) (chk : Nat → W32 → State → Option Nat) (run : Nat → Nat → W32 → State → Ends) (s : State) :
    State :=
  match (cluster s c).run with
  | none => s
  | some n =>
    let x := 64 * c + n
    let w := wordAt s x
    let i := issueCycle s c
    if mnemonicOf w != m then s
    else if (cluster s c).hold.isSome then ends x i s (run x i w s)
    else
      let s := boundary x i (broadcastsDue (i / 2) s)
      if (ctx s x).state != .running then s
      else
        let s := passTo i s
        if atBreak (ctx s x) && !(ctx s x).l then haltCtx x true false s
        else
          let s := if atBreak (ctx s x) then modCtx x (fun u => { u with haltPend := true, bpPend := true }) s else s
          issueWord x i w (chk x w) (run x i w) s

/-- The row of an instruction as a meaning. (log entry 28, DESIGN CHOICE) -/
def instr (c : Nat) (m : Mnemonic) (chk : Nat → W32 → State → Option Nat) (run : Nat → Nat → W32 → State → Ends) (s : State) :
    Res :=
  onUnit (c < 32) (when (s.released && !outOfService s c) (issue c m chk run) s)

/-- The lane cycle in which an instruction of n cycles issued in cycle i retires (R228). -/
def retireLc (i n : Nat) : Nat := (i + n - 1) / 2

/-- No check beyond those of every instruction. -/
def noCheck (_ : Nat) (_ : W32) (_ : State) : Option Nat := none

/-! ### Run control (R190, R219-R221) -/

/-- A START is accepted: it takes effect at the next tick (R190). -/
def startOk (u : Ctx) : Bool := u.state == .stopped || u.state == .ended || u.state == .faulted

/-- A waiting START of context x takes effect (R190). -/
def startCtx (x : Nat) (s : State) : State :=
  modCtx x (fun u => freePost { u with
    state := .ready, cls := 2, readyAt := 0, metAt := 0, startPend := false, autoStart := false, stepping := false, bpSkip := false
    pc := u.entry.setWidth 13, r := { u.r with flags := Flags.clear, rstk := [] }, fault := 0, lockBrk := false
    con := { subject := none, pending := none, overrun := false } }) s

/-- Running context x gives way to a STOP or a HALT at interruption point a (R190, R219). -/
def giveWay (x a : Nat) (s : State) : State :=
  modCluster (x / 64) (fun k => { k with next := a, hold := none }) (charge x (a - paidTo s (x / 64) a) s)

/-- A STOP or a HALT of context x: it acts now by `f`, at the next interruption point of a held instruction, or where the
instruction can no longer give way, at its end (R190, R202, R219). -/
def atPoint (x : Nat) (pend : Ctx → Ctx) (f : State → State) (s : State) : State :=
  let s := heldTo (x / 64) s.now (broadcastsDue (lc s) s)
  let u := ctx s x
  if u.l then setCtx x (pend u) s
  else if u.state == .running && (cluster s (x / 64)).hold.isSome then
    match givesWay x s.now s with
    | some a => f (giveWay x a s)
    | none => setCtx x (pend u) s
  else f s

/-- A STOP (R190). -/
def stopCtx (x : Nat) (s : State) : State := atPoint x (fun u => { u with stopPend := true }) (stopNow x) s

/-- A HALT is accepted (R219). -/
def haltOk (u : Ctx) : Bool := u.state == .ready || u.state == .running || u.state == .waiting || u.state == .preempted

/-- A HALT (R219, R220): a waiting context's PC returns to its WAIT. (log entry 29, DEDUCED) -/
def haltReq (x : Nat) (s : State) : State :=
  atPoint x (fun u => { u with haltPend := true }) (fun s =>
    let u := ctx s x
    haltCtx x false false (if u.state = .waiting then setCtx x { u with wait := none, pc := u.pc - 1 } s else s)) s

/-- A RESUME or a STEP of a halted context (R219, R221). -/
def resumeCtx (x : Nat) (step : Bool) (s : State) : State :=
  let s := heldTo (x / 64) s.now s
  modCtx x (fun u => { u with
    state := .ready, cls := 2, readyAt := 0, metAt := 0, bpHit := false, stepped := false, bpSkip := true
    stepping := step, suspHalt := false }) s

/-- A FORCE (R220). -/
def forceCtx (x : Nat) (s : State) : State := breakLock x 1 .halted s

/-! ### Switch points (R201) -/

/-- Those of the contexts of cluster c that are ready. -/
def waitedActs (c : Nat) (s : State) : State := forL waitedAct (readyOf s c) s

/-- The lane cycle in which the first broadcast on its way wakes a context of cluster c, which has none to run. -/
def nextWake (c : Nat) (s : State) : Option Nat :=
  if (cluster s c).run.isNone && (readyOf s c).isEmpty && (attached s c 0x3FF).any (fun x => (ctx s x).state == .waiting) then
    (s.ttc.bcast.map (·.1)).head?
  else none

/-- SWITCH_IN: at a switch point of cluster c a ready context is chosen and switched in (R201). -/
def switchIn (c : Nat) (s : State) : State :=
  let s := heldTo c s.now (broadcastsDue (max s.now (cluster s c).next / 2) s)
  let s := match nextWake c s with
    | some n => broadcastsDue n (toLc n s)
    | none => s
  let s := waitedActs c s
  let s := match (cluster s c).run with
    | some n =>
      let x := 64 * c + n
      let i := max s.now (cluster s c).next
      let s := if (cluster s c).hold.isSome then s else boundary x i s
      if (ctx s x).state == .running && !(ctx s x).l && atBreak (ctx s x) then haltCtx x true false s else s
    | none => s
  if (cluster s c).run.isNone then chooseIn c 64 s else s

def execSwitchIn (c : Nat) (s : State) : Res :=
  onUnit (c < 32) (when (s.released && !outOfService s c) (switchIn c) s)

end Sys2Proof.Machine
end

