-- ==== Sys2Proof/Machine/Timebase.lean ====
section
/-! DEFINITION. The timebase synthesizer (02_timebase.md): reference, states, lock, loss and return, UNGATE, forced time
set, SYNC and disciplining. -/
namespace Sys2Proof.Machine

/-- The timebase with a change. -/
def modTb (f : Timebase → Timebase) (s : State) : State := { s with tb := f s.tb }

/-- TB_STATUS.LOCKED (Table 2-2). -/
def tsLocked (s : State) : Bool := s.tb.ts == .locked

/-- A band is stored (TB_BAND.VALID). -/
def bandValid (s : State) : Bool := rbit s .tbBand 31

/-- A phase error of so many drops is inside the lock window of 10 × (WIN + 1) ps; a drop is 25/128 ps (R49). -/
def inWindow (s : State) (err : Int) : Bool := decide (err.natAbs * 25 ≤ 1280 * (rfld s .tbLockCfg 0 5 + 1))

/-- N and M as stored (R49, R50). -/
def lockN (s : State) : Nat := rfld s .tbLockCfg 16 16
def lockM (s : State) : Nat := rfld s .tbLockCfg 8 8

/-- The phase error of a reference cycle is shown in TB_PHERR and TB_PHERR_MAX; an error that the 16 bits of CUR cannot
hold leaves a free value there. -/
def showPherr (err : Int) (s : State) : State :=
  let s := rcUpdate .tbPherrMax 0 (fun v => setFld v 0 16 (max (fld v 0 16) (min 0xFFFF err.natAbs))) s
  if -32768 ≤ err && err < 32768 then setRfld .tbPherr 0 16 ((err % 65536).toNat) s
  else
    let (v, s) := takeFree s
    setRfld .tbPherr 0 16 v s

/-! ### States (R48, Table 2-2) -/

/-- Qualification starts at its activity step; the next edge anchors the windows (R45). -/
def toQualify (s : State) : State :=
  modTb (fun t => { t with ts := .qualify, anchored := false, activity := 0, missing := 0 }) s

/-- The loop closes (R49). Missing cycles that run on are counted on (R51). -/
def toAcquire (stored : Bool) (s : State) : State :=
  modTb (fun t => { t with ts := .acquire, fromStored := stored, acquireLc := lc s, inWin := 0 }) s

/-- A band search begins (R52). -/
def toSearch (research : Bool) (s : State) : State :=
  modTb (fun t => { t with ts := .search, research := research }) s

/-- Activity is qualified: REF_OK, and the state QUALIFY leaves to (R45, Table 2-2). -/
def activityQualified (s : State) : State :=
  let s := modTb (fun t => { t with refOk := true }) s
  if s.tb.firstLock && bandValid s then toAcquire true s
  else if s.tb.firstLock && s.tb.cold then toSearch false s
  else modTb (fun t => { t with ts := .check }) s

/-- TB_EPOCH increments; the wrap sets EPOCH_WRAP and the frame's COARSE_WRAP; the change is journaled (R86, R581). -/
def bumpEpoch (s : State) : State :=
  let e := reg s .tbEpoch + 1
  let s := sysRecord 0x0101 [e.setWidth 64] (setReg .tbEpoch e (modTb (fun t => { t with lastEpoch := some e }) s))
  if e = 0 then raise .frEvents 7 { s with fr := { s.fr with flags := s.fr.flags ||| 2 } } else s

/-- The frame number of FR_SET. -/
def frSet (s : State) : Nat := rfld s .frSetHi 0 16 * 2 ^ 32 + rfld s .frSetLo 0 32

/-- The time of TB_TSET. -/
def tbTset (s : State) : W64 := cat64 (reg s .tbTsetHi) (reg s .tbTsetLo)

/-- Lock is declared (R49): the first one sets the epoch, the time and the frame counter (R53); a later one lets them
resume (R61). The next tick falls on the following lane-clock edge. BY_KCLK_MEAS reads 0 until an update (R456).
(log entry 19, DEDUCED) -/
def declareLock (s : State) : State :=
  let first := s.tb.firstLock
  let s := setReg .byKclkMeas 0 s
  let s := modTb (fun t => { t with
    ts := .locked, outWin := 0, frozenByLoss := false, tickPending := true, firstLock := false }) s
  if first then
    let e : W32 := match s.tb.lastEpoch with
      | some e => e + 1
      | none => 0
    let wrapped := s.tb.lastEpoch.isSome && e == 0
    let s := sysRecord 0x0101 [e.setWidth 64] (setReg .tbEpoch e s)
    let s := modTb (fun t => { t with lastEpoch := some e }) s
    let s := if wrapped then raise .frEvents 7 { s with fr := { s.fr with flags := s.fr.flags ||| 2 } } else s
    { s with fr := { s.fr with base := tbTset s, baseLc := lc s, count := frSet s, running := false } }
  else
    let s := bumpEpoch s
    { s with fr := { s.fr with running := true, baseLc := lc s } }

/-- TIMEBASE_LOSS in a frame's header flags (Table 11-8); COARSE_WRAP is bit 1. -/
def flagLoss : BitVec 8 := 1

/-- Lane k with what the tick of the present lane cycle flushed from it, no longer counted in TB_FLUSH_EDGE; entries that have
reached it since have met the gating, and count (R56, R79). -/
def unflush (k : Nat) (s : State) : State :=
  let l := pulse s k
  match l.lifted with
  | some u =>
    if u.lc = lc s then
      let back := u.queue.length + u.correct.length
      setReg .tbFlushEdge (reg s .tbFlushEdge - BitVec.ofNat 32 back + BitVec.ofNat 32 (queuedCount l))
        (setPulse k { l with queue := u.queue, correct := u.correct, level := u.level, trailing := u.trailing, lifted := none } s)
    else s
  | none => s

/-- A loss in the lane cycle of a tick at which an UNGATE took effect: the UNGATE is refused and changes nothing (R57, R79):
the entries that it flushed are queued again, TB_CTRL.GATE is as before, and an output that R77 would keep running stops if
it started at that tick. (log entry 20, DEDUCED) -/
def refuseLifted (s : State) : State :=
  if s.tb.liftLc == some (lc s) then
    let s := forL (fun n s => if (cko s n).started && (cko s n).startAt == lc s then gateCko n s else s) (List.range 8) s
    raise .tbEvents 11 (setRfld .tbCtrl 8 1 (b2n (s.tb.liftGate || rbit s .tbCtrl 8)) (forL unflush (liveLanes s) s))
  else s

/-- Loss of lock or of reference is declared (R59): the producer, the flags, the log, then timebase gating. -/
def declareLoss (c : LossCause) (s : State) : State :=
  let ref := c != .lock
  let s := produce 6 (b2n ref) (lc s) s
  let s := raise .tbEvents (b2n ref) s
  let s := modTb (fun t => { t with ts := .holdover, cause := c, refOk := t.refOk && !ref, inWin := 0, outWin := 0 }) s
  let s := logFault 0x1A (b2n ref) 0 s
  let s := { s with fr := { s.fr with flags := s.fr.flags ||| flagLoss } }
  refuseLifted (gateAllOutputs true s)

/-- The reference is lost in a state other than LOCKED (R51). -/
def refLostElsewhere (s : State) : State :=
  match s.tb.ts with
  | .check | .search | .acquire => raise .tbEvents 1 (toQualify (modTb (fun t => { t with refOk := false }) s))
  | .qualify => modTb (fun t => { t with activity := 0 }) s
  | _ => s

/-- A write is treated as a loss of reference in the lane cycle of the write (R43, R48). -/
def lossByWrite (c : LossCause) (s : State) : State := if tsLocked s then declareLoss c s else refLostElsewhere s

/-! ### Reference cycles (R44-R51) -/

/-- A present edge in QUALIFY (R45). (log entry 18, DEDUCED) -/
def qualifyEdge (s : State) : State :=
  if s.tb.anchored then
    let n := s.tb.activity + 1
    let s := modTb (fun t => { t with activity := n }) s
    if n = 64 then activityQualified s else s
  else modTb (fun t => { t with anchored := true }) s

/-- A present reference edge with its phase error (R49, R50). -/
def presentEdge (err : Int) (s : State) : State :=
  let s := showPherr err (modTb (fun t => { t with missing := 0 }) s)
  match s.tb.ts with
  | .qualify => qualifyEdge s
  | .acquire =>
    let n := if inWindow s err then s.tb.inWin + 1 else 0
    let s := modTb (fun t => { t with inWin := n }) s
    if n ≠ 0 && lockN s ≤ n then declareLock s else s
  | .locked =>
    let n := if inWindow s err then 0 else s.tb.outWin + 1
    let s := modTb (fun t => { t with outWin := n }) s
    if n ≠ 0 && lockM s ≤ n then declareLoss .lock s else s
  | _ => s

/-- The windows of R44 run: a first edge has anchored them. -/
def windowsRun (s : State) : Bool := s.tb.ts != .off && (s.tb.ts != .qualify || s.tb.anchored)

/-- The nominal reference cycle in drops: 500 or 50 VCO cycles of 1,024 (Table 2-1). -/
def refCycle (s : State) : Nat := 1024 * (if rfld s .tbCtrl 0 2 = 2 then 50 else 500)

/-- The end of the window of the expected edge, in drops of run time: a quarter of a cycle after its instant (R44). -/
def windowEnd (s : State) : Nat := s.tb.expect + refCycle s / 4

/-- A window ends without a present edge: the windows go on at the nominal rate (R44, R51). (log entry 18, DEDUCED) -/
def missingCycle (s : State) : State :=
  let n := s.tb.missing + 1
  let s := modTb (fun t => { t with
    missing := n, expect := t.expect + refCycle s, activity := 0, inWin := 0, outWin := 0 }) s
  match s.tb.ts with
  | .locked => if 4 ≤ n then declareLoss .reference s else s
  | .check | .search | .acquire => if 4 ≤ n then refLostElsewhere s else s
  | _ => s

/-- MISSING_REFERENCE_CYCLE: the window in progress ends without a present edge. -/
def missingAt (s : State) : State := missingCycle (toLc (windowEnd s / 16384) s)

def execMissingReferenceCycle (s : State) : Res := .next (when (s.released && windowsRun s) missingAt s)

/-- Windows that have ended before run time x without a present edge: the reference cycles are missing. After four no
further one has an effect of its own (R44, R51). -/
def windowsEnded (x : Nat) (s : State) : State :=
  let n := if windowEnd s < x then (x - windowEnd s - 1) / refCycle s + 1 else 0
  let s := forN (min n 4) (fun _ s => if windowsRun s then missingCycle s else s) s
  modTb (fun t => { t with expect := t.expect + (n - min n 4) * refCycle s, missing := t.missing + (n - min n 4) }) s

/-- The instant of an edge that arrives in the present sequencer cycle, in drops of run time: that of the cycle nearest to the
expected instant (log entry 76, DESIGN CHOICE). -/
def edgeAt (s : State) : Nat :=
  let a := s.now * 8192
  if windowsRun s then min (max s.tb.expect a) (a + 8191) else a

/-- REF_EDGE: a reference edge arrives in the present sequencer cycle: it is present where it lies in its window, and the next
expected instant counts from it; the first one anchors the windows; any other has no effect (R44, R45).
(log entry 76, DESIGN CHOICE) -/
def refEdge (err : Int) (s : State) : State :=
  let s := if windowsRun s then windowsEnded (s.now * 8192) s else s
  let x := edgeAt s
  if windowsRun s && x + refCycle s / 4 < s.tb.expect then s
  else presentEdge err (modTb (fun t => { t with expect := x + refCycle s }) s)

def execRefEdge (err : Int) (s : State) : Res := .next (when (s.released && s.tb.ts != .off) (refEdge err) s)

/-- FREQUENCY_CHECK_DONE (R45). -/
def frequencyCheck (pass : Bool) (s : State) : State :=
  if pass then toAcquire (bandValid s) s
  else raise .tbEvents 2 (modTb (fun t => { t with ts := .qualify, activity := 0, refOk := false }) s)

def execFrequencyCheckDone (pass : Bool) (s : State) : Res :=
  .next (when (s.released && s.tb.ts == .check) (frequencyCheck pass) s)

/-- BAND_SEARCH_DONE: the band is stored and journaled, and the loop closes (R52, R581). -/
def bandSearchDone (band : Nat) (s : State) : State :=
  let s := setReg .tbBand (at32 1 31 ||| at32 (band % 64) 0) s
  let s := sysRecord 0x0100 [at64 (band % 64) 0] s
  let s := if s.tb.research then raise .tbEvents 3 s else s
  toAcquire false (modTb (fun t => { t with research := false }) s)

def execBandSearchDone (band : Nat) (s : State) : Res :=
  onUnit (band < 64) (when (s.released && s.tb.ts == .search) (bandSearchDone band) s)

/-- STORED_BAND_TIMEOUT: 2 ms in ACQUIRE from a stored band without lock (R52). -/
def storedBandTimeout (s : State) : State := toSearch true (toLc (s.tb.acquireLc + 625000) s)

def execStoredBandTimeout (s : State) : Res :=
  .next (when (s.released && s.tb.ts == .acquire && s.tb.fromStored) storedBandTimeout s)

/-- OCXO_WARM: a level is recognised (R46). -/
def execOcxoWarm (level : Bool) (s : State) : Res :=
  .next (when s.released (modTb fun t => { t with ocxo := level }) s)

/-- TB_STATUS.WARM as WARMSEL makes it from the recognised level (R46). -/
def warmSelected (s : State) : Bool :=
  match rfld s .tbCtrl 2 2 with
  | 0 => s.tb.ocxo
  | 1 => !s.tb.ocxo
  | 2 => true
  | _ => false

/-! ### UNGATE (R57, R58) -/

/-- The pulse lanes of tenant t. -/
def laneBitmap (s : State) (t : Nat) : W256 :=
  (List.range 8).foldl (fun w i => w ||| (capWord s t (1 + i)).setWidth 256 <<< (32 * i)) 0

/-- The UNGATE of tenant t: refused while LOCKED is 0, otherwise it waits for its tick, unless TB_CTRL.GATE was written in
the same lane cycle, which cancels it (R57, R79); whether it was accepted.
(log entry 20, DEDUCED) -/
def issueUngate (t : Nat) (s : State) : Bool × State :=
  if tsLocked s && s.tb.gateLc == some (lc s) then (true, raise .tbEvents 11 s)
  else if tsLocked s then
    let u : Ungate := if t = 0 then { lanes := BitVec.allOnes 256, cko := true, lc := lc s }
      else { lanes := laneBitmap s t, cko := false, lc := lc s }
    (true, modTb (fun b => { b with ungates := b.ungates ++ [u] }) s)
  else (false, raise .tbEvents 11 s)

/-- What lane k holds before its gating lifts is kept for the lane cycle (R79). -/
def keepLifted (k : Nat) (s : State) : State :=
  modPulse k (fun l => { l with lifted := some {
    lc := lc s, queue := l.queue, correct := l.correct, level := l.level, trailing := l.trailing } }) s

/-- An UNGATE takes effect: gating of its scope lifts, entries still queued are flushed (R57, R58).
(log entry 20, DEDUCED) -/
def liftGating (u : Ungate) (s : State) : State :=
  let lanes := (liveLanes s).filter fun k => tbGated s k && fld u.lanes k 1 == 1
  let s := forL (fun k s => flushEdges false k (keepLifted k s)) lanes s
  let s := modTb (fun t => { t with
    gated := t.gated &&& ~~~u.lanes
    ckoGated := if u.cko then 0 else t.ckoGated }) s
  setRfld .tbCtrl 8 1 0 s

/-- The UNGATEs accepted before the lane cycle of a tick take effect at it, while LOCKED (R57). -/
def ungateTick (s : State) : State :=
  if tsLocked s then
    let now := lc s
    let go := s.tb.ungates.filter fun u => u.lc < now
    let s := if go.isEmpty then s else modTb (fun t => { t with liftLc := some now, liftGate := rbit s .tbCtrl 8 }) s
    forL liftGating go (modTb (fun t => { t with ungates := t.ungates.filter fun u => now ≤ u.lc }) s)
  else s

/-! ### Register writes (R43, R46-R50, R54, R57, R66, R68) -/

/-- A CKO output runs. -/
def ckoRunning (s : State) : Bool := (List.range 8).any (ckoRuns s)

/-- A write of 1 to TB_CTRL.TSET (R66). -/
def requestTset (s : State) : State :=
  if s.tb.gated == BitVec.allOnes 256 && !ckoRunning s then modTb (fun t => { t with tset := true }) s
  else raise .tbEvents 9 s

/-- A write that changes REFSEL (R42, R43). -/
def refselApply (v : Nat) (s : State) : State :=
  if v = 3 || v = rfld s .tbCtrl 0 2 then s
  else
    let s := setRfld .tbCtrl 0 2 v s
    if s.tb.ts == .off then s else lossByWrite .reference s

/-- A write of TS_EN (R48). (log entry 22, DEDUCED) -/
def tsEnApply (v : Nat) (s : State) : State :=
  if v = rfld s .tbCtrl 4 1 then s
  else
    let s := setRfld .tbCtrl 4 1 v s
    if v = 1 then (if s.tb.ts == .off then toQualify s else s)
    else if tsLocked s then declareLoss .disabled s
    else if s.tb.ts == .holdover then modTb (fun t => { t with cause := .disabled, refOk := false }) s
    else modTb (fun t => { t with ts := .off, refOk := false, anchored := false, activity := 0 }) (refLostElsewhere s)

/-- A write of TB_CTRL by a tenant with the right to it: the fields, then an UNGATE, then GATE, which keeps gating in
force against it (R79). -/
def tbCtrlApply (t : Nat) (v : W32) (s : State) : State :=
  let s := setRfld .tbCtrl 2 2 (fld v 2 2) s
  let s := refselApply (fld v 0 2) s
  let s := tsEnApply (fld v 4 1) s
  let s := if fld v 10 1 = 1 then requestTset s else s
  let s := if fld v 9 1 = 1 then (issueUngate t s).2 else s
  if fld v 8 1 = 1 then gateAllOutputs false (setRfld .tbCtrl 8 1 1 (modTb (fun b => { b with gateLc := some (lc s) }) s)) else s

/-- A write of TB_LOCK_CFG: N below 16 is stored as 16, M of 0 as 1 (R49, R50). -/
def tbLockCfgApply (v : W32) (s : State) : State :=
  setReg .tbLockCfg (at32 (max 16 (fld v 16 16)) 16 ||| at32 (max 1 (fld v 8 8)) 8 ||| at32 (fld v 0 5) 0) s

/-- A write of TB_FOFS: out of range it is ignored (R68). -/
def tbFofsApply (v : W32) (s : State) : State :=
  if v.toInt.natAbs ≤ 214748 then setReg .tbFofs v s else raise .tbEvents 4 s

/-- TB_FOFS_NOW moves toward TB_FOFS by at most 8,589 at a tick (R69). -/
def slewTick (s : State) : State :=
  let now := (reg s .tbFofsNow).toInt
  let d := (reg s .tbFofs).toInt - now
  let step := if 8589 < d then 8589 else if d < -8589 then -8589 else d
  if d = 0 then s else setReg .tbFofsNow (ofInt32 (now + step)) s

/-! ### SYNC (R62-R65) -/

/-- An event is eligible under ARM (R64). -/
def syncEligible (s : State) : Bool :=
  tsLocked s && s.tb.gated == BitVec.allOnes 256 && !ckoRunning s && s.tb.syncT0.isNone

/-- The signed difference of CHECK in drops, of an event `off` drops into the present lane cycle: own tick minus expected
tick, whole frame periods removed (R65). (log entry 21, DEDUCED) -/
def syncDiff (s : State) (off : Nat) : Int :=
  let p : Int := s.fr.period * 16384
  let want : Int := (lc s + 16 + rfld s .tbSyncCfg 16 16) * 16384 + off
  let d := ((s.fr.tickLc : Int) * 16384 - want) % p
  if p < 2 * d then d - p else d

/-- A SYNC event (R63-R65): an eligible one restarts the clock dividers at the VCO edge nearest it, which begins the lane
cycle in progress anew. (log entry 21, DEDUCED) -/
def syncActs (off : Nat) (s : State) : State :=
  match rfld s .tbSyncCfg 0 2 with
  | 1 =>
    if syncEligible s then modTb (fun t => { t with
      syncT0 := some (lc s + 16 + rfld s .tbSyncCfg 16 16), clockPhase := (t.clockPhase + (off + 512) / 1024) % 16 }) s
    else if s.tb.syncT0.isSome then s
    else raise .tbEvents 6 s
  | 2 =>
    if s.fr.running then
      let d := syncDiff s off
      let s := setReg .tbSyncDiff (ofInt32 d) s
      if d = 0 then s else raise .tbEvents 7 s
    else s
  | _ => s

/-- SYNC_EVENT: SYNC is sampled at a rising edge of REFIN (R62). -/
def syncEvent (level : Bool) (off : Nat) (s : State) : State :=
  let ev := level && !s.tb.syncPrev
  let s := modTb (fun t => { t with syncPrev := level }) s
  if ev then syncActs off s else s

def execSyncEvent (level : Bool) (off : Nat) (s : State) : Res :=
  onUnit (off < 16384) (when s.released (syncEvent level off) s)

end Sys2Proof.Machine
end

