-- ==== Sys2Proof/Machine/IsaCore.lean ====
section
/-! DEFINITION. The core instructions (08_enxia_reference_core.md): integer, time, control flow, LOCK and UNLOCK, BUD, REQ. -/
namespace Sys2Proof.Machine

/-! ### Integer instructions (R230-R232) -/

/-- The destination, the operands a and b of an integer instruction (R230). -/
def intOperands (s : State) (x : Nat) (o : IntOp) (w : W32) : Nat × W32 × W32 :=
  let imm := fImm w
  if opc w = 0x01 then (fA w, gOf s x (fB w), gOf s x (fC w))
  else
    (fA w, gOf s x (fB w), match o with
      | .and => imm.setWidth 32
      | .or => imm.setWidth 32
      | .xor => imm.setWidth 32
      | .shl => at32 (fld w 0 5) 0
      | .shr => at32 (fld w 0 5) 0
      | .sra => at32 (fld w 0 5) 0
      | .lui => imm.setWidth 32 <<< 16
      | _ => imm.signExtend 32)

/-- The effect of an integer instruction on registers and flags. -/
def intEffect (x : Nat) (o : IntOp) (w : W32) (s : State) : State :=
  let p := intOperands s x o w
  let r := intResult o p.2.1 p.2.2 (flagsNow s x)
  let s := setFlags x r.2 s
  if o = .cmp then s else setG x p.1 r.1 s

/-- An integer instruction executes. -/
def intRun (o : IntOp) (x _ : Nat) (w : W32) (s : State) : Ends :=
  .retires (if o = .mul then 3 else 1) (advance x (intEffect x o w s))

def execAdd (c : Nat) (s : State) : Res := instr c (.int .add) noCheck (intRun .add) s
def execSub (c : Nat) (s : State) : Res := instr c (.int .sub) noCheck (intRun .sub) s
def execAnd_ (c : Nat) (s : State) : Res := instr c (.int .and) noCheck (intRun .and) s
def execOr_ (c : Nat) (s : State) : Res := instr c (.int .or) noCheck (intRun .or) s
def execXor_ (c : Nat) (s : State) : Res := instr c (.int .xor) noCheck (intRun .xor) s
def execShl (c : Nat) (s : State) : Res := instr c (.int .shl) noCheck (intRun .shl) s
def execShr (c : Nat) (s : State) : Res := instr c (.int .shr) noCheck (intRun .shr) s
def execSra (c : Nat) (s : State) : Res := instr c (.int .sra) noCheck (intRun .sra) s
def execMul (c : Nat) (s : State) : Res := instr c (.int .mul) noCheck (intRun .mul) s
def execMin (c : Nat) (s : State) : Res := instr c (.int .min) noCheck (intRun .min) s
def execMax (c : Nat) (s : State) : Res := instr c (.int .max) noCheck (intRun .max) s
def execCmp (c : Nat) (s : State) : Res := instr c (.int .cmp) noCheck (intRun .cmp) s
def execLi (c : Nat) (s : State) : Res := instr c (.int .li) noCheck (intRun .li) s
def execLui (c : Nat) (s : State) : Res := instr c (.int .lui) noCheck (intRun .lui) s

/-! ### Time instructions (R233-R237) -/

/-- The unit of an immediate time operand, drops. -/
def unitOf (n : Nat) : W64 :=
  match n with
  | 0 => 1
  | 1 => 16
  | 2 => 1024
  | _ => 16384

/-- The second operand y of a time instruction (R233). -/
def yOf (s : State) (x : Nat) (w : W32) : W64 :=
  match fSel w with
  | 0 => tOf s x (fld w 0 3)
  | 1 => (gOf s x (fld w 0 5)).signExtend 64
  | 2 => (gOf s x (fld w 0 5)).setWidth 64
  | _ => (fImm w).signExtend 64 * unitOf (fld w 16 2)

def taddRun (x _ : Nat) (w : W32) (s : State) : Ends :=
  let r := addOf (tOf s x (fTa w)) (yOf s x w)
  .retires 2 (advance x (setFlags x r.2 (setT x (fTd w) r.1 s)))

def tsubRun (x _ : Nat) (w : W32) (s : State) : Ends :=
  let r := subOf (tOf s x (fTa w)) (yOf s x w)
  .retires 2 (advance x (setFlags x r.2 (setT x (fTd w) r.1 s)))

def tcmpRun (x _ : Nat) (w : W32) (s : State) : Ends :=
  let r := subOf (tOf s x (fTa w)) (yOf s x w)
  .retires 2 (advance x (setFlags x r.2 s))

/-- TSCL: ta in [20:18], m in [17], gs in [16:12], sh in [11:6] (Table 8-1, R236). -/
def tsclRun (x _ : Nat) (w : W32) (s : State) : Ends :=
  let t := tOf s x (fld w 18 3)
  let sh := fld w 6 6
  if fld w 17 1 = 0 then
    let r := scaled t (gOf s x (fld w 12 5)) sh
    .retires 4 (advance x (setFlags x r.2 (setT x (fld w 21 3) r.1 s)))
  else
    let r := extracted t sh
    .retires 1 (advance x (setFlags x r.2 (setG x (fA w) r.1 s)))

/-- The data-window offset of TLD and TST: gb in [22:18], off in [17:0] (R237). -/
def dataOffset (s : State) (x : Nat) (w : W32) : Nat := (gOf s x (fld w 18 5)).toNat + fld w 0 18

/-- The checks of step 8 on a data-window offset (R197, R237): none, or the fault. -/
def offsetFault (u : Ctx) (a : Nat) : Option Nat :=
  if a % 8 ≠ 0 then some 0x05 else if dLen u < a + 8 then some 0x04 else none

/-- The word of data memory at a data-window offset (R197, R237). -/
def dataWord (u : Ctx) (a : Nat) : Nat := dBase u + a / 8

def tldRun (x _ : Nat) (w : W32) (s : State) : Ends :=
  let a := dataOffset s x w
  match offsetFault (ctx s x) a with
  | some f => .faults f
  | none =>
    let k := dataWord (ctx s x) a
    let c := x / 64
    if dataBad s c k then .faultsEcc 1 k else .retires 3 (advance x (setT x (fTd w) (dataAt s c k) s))

/-- Word k of the data memory of cluster c is written, with its check bits (R237). -/
def writeData (c k : Nat) (v : W64) (s : State) : State :=
  if wiped s c true k then s
  else modCluster c (fun u => { u with dmem := tset 0 k v u.dmem, dmemBad := u.dmemBad.filter fun i => i != k }) s

/-- Word k of the instruction memory of cluster c is written. -/
def writeCode (c k : Nat) (v : W32) (s : State) : State :=
  if wiped s c false k then s
  else modCluster c (fun u => { u with imem := tset 0 k v u.imem, imemBad := u.imemBad.filter fun i => i != k }) s

/-- TST, whose write falls in its retiring cycle; the segment engine reads the old word up to then (R237, R238).
(log entry 38, DEDUCED) -/
def tstRun (x i : Nat) (w : W32) (s : State) : Ends :=
  let a := dataOffset s x w
  match offsetFault (ctx s x) a with
  | some f => .faults f
  | none =>
    let c := x / 64
    let k := dataWord (ctx s x) a
    let old : OldWord := { cyc := i + 1, word := k, value := dataAt s c k, bad := dataBad s c k }
    .retires 2 (advance x (modCluster c (fun u => { u with stored := some old }) (writeData c k (tOf s x (fTd w)) s)))

def tnowRun (x _ : Nat) (w : W32) (s : State) : Ends :=
  .retires 2 (advance x (setT x (fTd w) (absNow s + yOf s x w) s))

def tfrmRun (x _ : Nat) (w : W32) (s : State) : Ends :=
  let v : W64 := match fld w 0 2 with
    | 0 => s.fr.start
    | 1 => BitVec.ofNat 64 s.fr.count
    | _ => (reg s .tbEpoch).setWidth 64
  .retires 1 (advance x (setT x (fTd w) v s))

def execTadd (c : Nat) (s : State) : Res := instr c .tadd noCheck taddRun s
def execTsub (c : Nat) (s : State) : Res := instr c .tsub noCheck tsubRun s
def execTcmp (c : Nat) (s : State) : Res := instr c .tcmp noCheck tcmpRun s
def execTscl (c : Nat) (s : State) : Res := instr c .tscl noCheck tsclRun s
def execTld (c : Nat) (s : State) : Res := instr c .tld noCheck tldRun s
def execTst (c : Nat) (s : State) : Res := instr c .tst noCheck tstRun s
def execTnow (c : Nat) (s : State) : Res := instr c .tnow noCheck tnowRun s
def execTfrm (c : Nat) (s : State) : Res := instr c .tfrm noCheck tfrmRun s

/-! ### Control flow (R239-R244) -/

/-- The PC of context x set. -/
def jumpTo (x : Nat) (pc : BitVec 13) (s : State) : State := modCtx x (fun u => { u with pc := pc }) s

/-- The target of a relative branch at the PC of context x (R240). -/
def targetOf (s : State) (x : Nat) (w : W32) : BitVec 13 :=
  (ctx s x).pc + 1 + (fImm w).setWidth 13

def bcondRun (x _ : Nat) (w : W32) (s : State) : Ends :=
  if condHolds (fld w 21 4) (flagsNow s x) (ctx s x).con.pending.isSome then .retires 2 (jumpTo x (targetOf s x w) s)
  else .retires 1 (advance x s)

/-- The target of J and CALL, relative or through a register; none where bits [31:13] of the register are not all 0 (R240). -/
def jumpTarget (s : State) (x : Nat) (w : W32) : Option (BitVec 13) :=
  if opc w = 0x1B then
    let g := gOf s x (fB w)
    if fld g 13 19 ≠ 0 then none else some (g.setWidth 13)
  else some (targetOf s x w)

def jRun (x _ : Nat) (w : W32) (s : State) : Ends :=
  match jumpTarget s x w with
  | some t => .retires 2 (jumpTo x t s)
  | none => .faults 0x05

/-- CALL: a full return stack faults, and nothing is pushed (R195, R240). -/
def callRun (x _ : Nat) (w : W32) (s : State) : Ends :=
  let u := ctx s x
  match jumpTarget s x w with
  | some t =>
    if 8 ≤ u.r.rstk.length then .faults 0x05
    else .retires 2 (setCtx x { u with pc := t, r := { u.r with rstk := (u.pc + 1) :: u.r.rstk } } s)
  | none => .faults 0x05

def loopRun (x _ : Nat) (w : W32) (s : State) : Ends :=
  let v := gOf s x (fA w) - 1
  let s' := setG x (fA w) v s
  if v = 0 then .retires 1 (advance x s') else .retires 2 (jumpTo x (targetOf s x w) s')

def retRun (x _ : Nat) (_ : W32) (s : State) : Ends :=
  let u := ctx s x
  match u.r.rstk with
  | t :: rest => .retires 2 (setCtx x { u with pc := t, r := { u.r with rstk := rest } } s)
  | [] => .faults 0x05

/-- YIELD: class 2 and a switch point (R242). -/
def yieldRun (x i : Nat) (_ : W32) (s : State) : Ends :=
  let s := toClass2 x (advance x s)
  .retires 1 (if (readyOf s (x / 64)).isEmpty then modCtx x (fun u => { u with qStart := i + 1 }) s else enter x .ready s)

/-- HALT: the context is ENDED, its PC on the word after (R244). -/
def haltRun (x _ : Nat) (_ : W32) (s : State) : Ends := .retires 1 (enter x .ended (advance x s))

def execBCond (c : Nat) (s : State) : Res := instr c .bcond noCheck bcondRun s
def execJ (c : Nat) (s : State) : Res := instr c .j noCheck jRun s
def execCall (c : Nat) (s : State) : Res := instr c .call noCheck callRun s
def execLoop (c : Nat) (s : State) : Res := instr c .loop noCheck loopRun s
def execRet (c : Nat) (s : State) : Res := instr c .ret noCheck retRun s
def execYield (c : Nat) (s : State) : Res := instr c .yield noCheck yieldRun s
def execHalt (c : Nat) (s : State) : Res := instr c .halt noCheck haltRun s

/-! ### LOCK, UNLOCK and BUD (R208, R211, R245-R247) -/

def lockRun (x _ : Nat) (w : W32) (s : State) : Ends :=
  let n := fld w 0 6 + 1
  let u := ctx s x
  if 1 + 4 * n ≤ left s x then
    let k : LockInfo := { ctx := x % 64, n := n, count := 0, pc := u.pc, saved := u.r }
    .retires 1 (advance x (modCtx x (fun u => { u with l := true })
      (modCluster (x / 64) (fun c => { c with lock := some k }) s)))
  else if 1 + 4 * n ≤ admitted s x then .leaves (preempt x s)
  else .faults 0x03

/-- UNLOCK issued in cycle i: the lanes decide in the next lane cycle, and the lock ends in that lane cycle's second cycle;
a STOP or a halt that waited acts (R190, R211, R220, R222). -/
def unlockRun (x i : Nat) (_ : W32) (s : State) : Ends :=
  let d := i / 2 + 1
  let r := decideSet (x / 64) (toLc d s)
  let s := modCtx x (fun u => { u with l := false }) (advance x (setZ x r.1 r.2))
  let s := lockEnds (x / 64) (2 * d + 1) s
  let u := ctx s x
  .retires (2 * d + 2 - i)
    (if u.stopPend then stopNow x s else if u.haltPend then haltCtx x u.bpPend u.stepping s else s)

def budRun (x _ : Nat) (w : W32) (s : State) : Ends :=
  .retires 1 (advance x (setG x (fA w) (at32 (left s x) 0) s))

def execLock (c : Nat) (s : State) : Res := instr c .lock noCheck lockRun s
def execUnlock (c : Nat) (s : State) : Res := instr c .unlock noCheck unlockRun s
def execBud (c : Nat) (s : State) : Res := instr c .bud noCheck budRun s

/-! ### REQ (R248-R251) -/

/-- The outcomes of a presented REQ (R249). -/
inductive Served where
  | done (v : W32) (s : State)
  | pending
  | refused (code : Nat) (s : State)

/-- Z, C and g[rd] of an outcome (R249). -/
def served (x rd : Nat) (o : Served) (s : State) : State :=
  match o with
  | .done v s' => setG x rd v (setZC x true false s')
  | .pending => setG x rd 0 (setZC x false true s)
  | .refused code s' => setG x rd (at32 code 0) (setZC x false false s')

/-- A REQ: held to its service lane cycle, where it is interruptible, and then served (R248). -/
def reqRun (svc : Nat → W32 → State → Served) (x i : Nat) (w : W32) (s : State) : Ends :=
  let p := 2 * serviceLc (x / 64) i
  heldRun x i w s fun s =>
    let s := passTo p s
    .retires (p + 4 - i) (advance x (served x (fA w) (svc x (gOf s x (fB w)) s) s))

/-- A granted service's right: bit b of word 0 of the capability record (Table 13-4). -/
def serviceCheck (b x : Nat) (_ : W32) (s : State) : Option Nat :=
  if mayServe s x b then none else some 0x04

def pingSvc (_ : Nat) (a : W32) (s : State) : Served := .done a s

def pubstatSvc (_ : Nat) (_ : W32) (s : State) : Served :=
  .done (at32 (b2n (tsLocked s) + 2 * b2n s.tb.warm + 4 * b2n (!s.fr.running)) 0) s

/-- The first 32 bits of the digest in force, as packet headers carry them. -/
def digestWord (s : State) : W32 := s.jr.digest.value.headD 0

def digestSvc (_ : Nat) (_ : W32) (s : State) : Served := .done (digestWord s) s

def tempSvc (x : Nat) (_ : W32) (s : State) : Served := .done (ofInt32 (cluster s (x / 64)).temp) s

/-- REQ UNGATE: the UNGATE of the tenant (R57, R250). -/
def ungateSvc (x : Nat) (_ : W32) (s : State) : Served :=
  let r := issueUngate (ctxTenant (ctx s x)) s
  if r.1 then .done 0 r.2 else .refused 0x1A r.2

/-- The request record of a POST (Table 11-2). -/
def requestWords (x ticket tn time : Nat) (m : W32) : List W64 :=
  [at64 0x8 60 ||| at64 x 48 ||| at64 ticket 40 ||| at64 time 0, at64 0x11 59 ||| at64 tn 32 ||| m.setWidth 64]

/-- A request record goes to the steward's home stream; with time frozen, in the first frame after (log entry 12, DEDUCED). -/
def sendRequest (x ticket : Nat) (m : W32) (s : State) : State :=
  let tn := ctxTenant (ctx s x)
  let r (time frame : Nat) : SpRec :=
    { tenant := 0, stream := none, frame := frame, words := requestWords x ticket tn time m, pos := chainPos s }
  if s.fr.running then emitRec (r (frameOff s) s.fr.ticks) s
  else { s with sp := { s.sp with later := s.sp.later ++ [r 0 0] } }

def postSvc (x : Nat) (a : W32) (s : State) : Served :=
  let u := ctx s x
  if u.post.isSome then .refused 0x02 s
  else
    let k := match u.ticket with
      | some n => (n + 1) % 256
      | none => 0
    let s := setCtx x { u with post := some { ticket := k, message := a, reply := none }, ticket := some k } s
    .done (at32 k 0) (sendRequest x k a s)

def collectSvc (x : Nat) (a : W32) (s : State) : Served :=
  let u := ctx s x
  match u.post with
  | some q =>
    if a.toNat ≠ q.ticket then .refused 0x0A s
    else match q.reply with
      | some v => .done v (setCtx x { u with post := none } s)
      | none => .pending
  | none => .refused 0x0A s

def execReqPing (c : Nat) (s : State) : Res := instr c .reqPing noCheck (reqRun pingSvc) s
def execReqPubstat (c : Nat) (s : State) : Res := instr c .reqPubstat noCheck (reqRun pubstatSvc) s
def execReqDigest (c : Nat) (s : State) : Res := instr c .reqDigest noCheck (reqRun digestSvc) s
def execReqTemp (c : Nat) (s : State) : Res := instr c .reqTemp (serviceCheck 1) (reqRun tempSvc) s
def execReqUngate (c : Nat) (s : State) : Res := instr c .reqUngate (serviceCheck 2) (reqRun ungateSvc) s
def execReqPost (c : Nat) (s : State) : Res := instr c .reqPost (serviceCheck 3) (reqRun postSvc) s
def execReqCollect (c : Nat) (s : State) : Res := instr c .reqCollect (serviceCheck 3) (reqRun collectSvc) s

/-- A word that is no instruction: it faults at step 4 of Table 8-3 (R227, R252, R284). -/
def execReservedOpcode (c : Nat) (s : State) : Res := instr c .reserved noCheck (fun _ _ _ _ => .faults 0x05) s

end Sys2Proof.Machine
end

