-- ==== Sys2Proof/Machine/IsaIo.lean ====
section
/-! DEFINITION. The instructions of edges, events, stamps, measurements and records (09_enxia_reference_timing.md). -/
namespace Sys2Proof.Machine

/-! ### Lanes named by format E (R255, R257, R258) -/

/-- Steps 6 and 7 for the lanes of a format-E word (R257, R258). -/
def pulseCheck (x : Nat) (w : W32) (s : State) : Option Nat :=
  let c := x / 64
  let ks := (lanesNamed s x w).map (·.1)
  if 16 ≤ c || ks.any (fun k => k / 16 != c) then some 0x06
  else if ks.all (mayUse s x) then none else some 0x04

/-! ### EMIT and EMITP (R259-R262) -/

/-- The lane among some whose occupied direct slot has its port take an entry first (R107, R260). -/
def nextToFree (s : State) (ks : List Nat) : Option Nat :=
  let waits := ks.filterMap fun k => if (pulse s k).direct.isSome then (acceptLc s (pulse s k)).map fun n => (k, n) else none
  (waits.find? fun p => waits.all fun q => p.2 ≤ q.2).map (·.1)

/-- The ports of some lanes take entries, in the order of their lane cycles, until the direct slots are free. -/
def freeSlots (ks : List Nat) : Nat → State → State
  | 0, s => s
  | n + 1, s => match nextToFree s ks with
    | some k => freeSlots ks n (edgeEntryAccept k s)
    | none => s

/-- The entry an EMIT or EMITP gives a lane (R261). -/
def entryOf (s : State) (x : Nat) (w : W32) (ofs : W64) (pair locked : Bool) : EdgeEntry :=
  { time := tOf s x (fTd w) + ofs, width := if pair then (gOf s x (fGw w)).toNat else 0
    kind := if pair then 3 else fKind w, tag := fTag w, ctx := x % 64, source := if locked then .locked else .direct }

/-- EMIT and EMITP: inside a lock the entries are staged; otherwise they are written into the direct slots once every named
slot is free (R210, R259, R261). -/
def emitRun (pair : Bool) (x i : Nat) (w : W32) (s : State) : Ends :=
  let ks := lanesNamed s x w
  if (ctx s x).l then
    .retires 2 (advance x (forL (fun p s => modPulse p.1 (fun l => { l with
      staged := l.staged ++ storedOf (entryOf s x w p.2 pair true) }) s) ks s))
  else
    heldRun x i w s fun s =>
      let e := emitAt s x w i
      let s := freeSlots (ks.map (·.1)) (2 * ks.length) s
      .retires (e + 1 - i) (advance x (forL (fun p s => modPulse p.1 (fun l => { l with
        direct := some (e / 2 + 2, entryOf s x w p.2 pair false) }) s) ks s))

def execEmit (c : Nat) (s : State) : Res := instr c .emit pulseCheck (emitRun false) s
def execEmitp (c : Nat) (s : State) : Res := instr c .emitp pulseCheck (emitRun true) s

/-! ### GATE (R263) -/

/-- GATE: a request for the second lane cycle after it retires; none opens a gate of a held cluster (R491).
(log entry 32, DEDUCED) -/
def gateRun (op : Bool) (x i : Nat) (w : W32) (s : State) : Ends :=
  let due := (retireLc i 1 + 2) * 16384
  .retires 1 (advance x (if op && (held s (x / 64)).isSome then s
    else forL (fun p => gateRequest p.1 due op) (lanesNamed s x w) s))

def execGateOpen (c : Nat) (s : State) : Res := instr c .gateOpen pulseCheck (gateRun true) s
def execGateClose (c : Nat) (s : State) : Res := instr c .gateClose pulseCheck (gateRun false) s

/-! ### SPLAY and SJUMP (R264, R265, R288, R296, R297) -/

/-- The lane of SPLAY and SJUMP. -/
def playLane (s : State) (x : Nat) (w : W32) : Nat := if fLs w = 0 then fLane w else (gOf s x (fLane w % 32)).toNat

/-- Steps 6 and 7 for an instruction that names a descriptor (R264). -/
def descCheck (x : Nat) (w : W32) (s : State) : Option Nat :=
  match pulseCheck x w s with
  | some f => some f
  | none => if mayPlay s x (fld (gOf s x (fGw w)) 0 6) then none else some 0x04

/-- SPLAY start issued in cycle i: the lane plays from its retiring cycle on, and a start is accepted from the cycle after the
playback became idle (R264, R288, R298). (log entry 32, DEDUCED) -/
def splayStartRun (x i : Nat) (w : W32) (s : State) : Ends :=
  let g := gOf s x (fGw w)
  if fld g 6 26 ≠ 0 then .faults 0x05
  else
    let k := playLane s x w
    let s := boundaryDue k (i / 2) s
    let ok := !(playback s k).play && decide ((playback s k).idleAt ≤ i) && !tbGated s k && (held s (x / 64)).isNone
    let s := advance x (setZ x ok s)
    .retires 2 (if ok then playStart k (fld g 0 6) (tOf s x (fTd w)) (x % 64) (passTo (i + 1) s) else s)

def splayStopRun (x i : Nat) (w : W32) (s : State) : Ends :=
  let k := playLane s x w
  let s := boundaryDue k (i / 2) s
  .retires 2 (requestStop k (retireLc i 2) (advance x (setZ x (playback s k).play s)))

def sjumpRun (x i : Nat) (w : W32) (s : State) : Ends :=
  let g := gOf s x (fGw w)
  if fld g 6 26 ≠ 0 then .faults 0x05
  else
    let k := playLane s x w
    let s := boundaryDue k (i / 2) s
    let ok := (playback s k).play
    let s := advance x (setZ x ok s)
    .retires 2 (if ok then requestJump k (fld g 0 6) (retireLc i 2) s else s)

def execSplayStart (c : Nat) (s : State) : Res := instr c .splayStart descCheck splayStartRun s
def execSplayStop (c : Nat) (s : State) : Res := instr c .splayStop pulseCheck splayStopRun s
def execSjump (c : Nat) (s : State) : Res := instr c .sjump descCheck sjumpRun s

/-! ### Events (R266-R272) -/

/-- A right on the channel a name gives: word of the record for a Milkline channel, of the cluster block otherwise. -/
def nameRight (s : State) (x name milk clus : Nat) : Bool :=
  tenantOf s x == 0 ||
    if name < 0x20 then fld (ctxCap s x (64 + 8 * (x / 64) + clus)) name 1 == 1 else ctxBit s x milk (name - 0x100)

/-- Step 7 of WAIT and POLL: the responder for the trigger broadcast, CONSUME for a channel (R203, R270). -/
def waitCheck (x : Nat) (w : W32) (s : State) : Option Nat :=
  let ok := if fName w = 0x3FF then isResp (ctx s x) else nameRight s x (fName w) 17 3
  if ok then none else some 0x04

/-- The consumer of context x attached to a name: another subject discards what was held (R266). -/
def attach (x name : Nat) (s : State) : State :=
  if (ctx s x).con.subject = some name then s
  else modCtx x (fun u => { u with con := { subject := some name, pending := none, overrun := false } }) s

/-- WAIT and POLL issued in cycle i (R267-R269). -/
def waitRun (poll : Bool) (x i : Nat) (w : W32) (s : State) : Ends :=
  let s := attach x (fName w) s
  let k := (ctx s x).con
  let d := fld w 21 3
  let s := advance x (modCtx x (fun u => { u with con := { k with overrun := false, pending := none } }) s)
  match k.pending with
  | some e => .retires 2 (setZC x true k.overrun (deliver x d (fC w) e s))
  | none =>
    if poll then .retires 2 (setZC x false k.overrun s)
    else
      let n := (gOf s x (fB w)).toNat
      let t := if n = 0 then none else some (retireLc i 2 + 1 + n)
      .retires 2 (modCtx x (fun u => { u with wait := some { d := d, ge := fC w, c := k.overrun, timeout := t } })
        (enter x .waiting s))

def execWait (c : Nat) (s : State) : Res := instr c .wait waitCheck (waitRun false) s
def execPoll (c : Nat) (s : State) : Res := instr c .poll waitCheck (waitRun true) s

/-- The number of the channel a name gives in cluster c, as events number channels. -/
def channelNo (c name : Nat) : Nat := if name < 0x20 then 256 + 32 * c + name else name - 0x100

def sigCheck (x : Nat) (w : W32) (s : State) : Option Nat := if nameRight s x (fName w) 25 4 then none else some 0x04

/-- SIG: the producer asserts on the named channel in the lane cycle after SIG retires (R271). -/
def sigRun (x i : Nat) (w : W32) (s : State) : Ends :=
  let c := x / 64
  let ch := channelNo c (fName w)
  let n := retireLc i 1 + 1
  .retires 1 (advance x
    (if producerSilent s 4 c then s else signal { lc := n, clusLc := n + 1, code := 4 * 256 + c, only := some ch } s))

def execSig (c : Nat) (s : State) : Res := instr c .sig sigCheck sigRun s

/-- Step 7 of ARM and DISARM: CONTROL of the object (R272). -/
def armCheck (x : Nat) (w : W32) (s : State) : Option Nat :=
  let n := fName w
  let ok := if 0x200 ≤ n then (tenantOf s x == 0 || ctxBit s x 41 (n - 0x200)) else nameRight s x n 33 5
  if ok then none else some 0x04

/-- The object of ARM and DISARM, numbered as enable requests number objects. -/
def objectNo (c name : Nat) : Nat := if 0x200 ≤ name then 2048 + (name - 0x200) else channelNo c name

/-- A request to enable or disable an object in lane cycle n (R347). -/
def enableRequest (n obj : Nat) (on : Bool) (s : State) : State :=
  { s with ev := { s.ev with reqs := s.ev.reqs ++ [{ due := n, obj := obj, on := on }] } }

def armRun (on : Bool) (x i : Nat) (w : W32) (s : State) : Ends :=
  .retires 1 (advance x (enableRequest (retireLc i 1 + 2) (objectNo (x / 64) (fName w)) on s))

def execArm (c : Nat) (s : State) : Res := instr c .arm armCheck (armRun true) s
def execDisarm (c : Nat) (s : State) : Res := instr c .disarm armCheck (armRun false) s

/-! ### Stamp lanes (R273-R280) -/

/-- The stamp lane of a format-I instruction and of HPOP and MRD (R273, R274). -/
def laneI (s : State) (x : Nat) (w : W32) : Nat := (if fB w = 0 then 0 else (gOf s x (fB w)).toNat) + fld w 0 8
def laneT (s : State) (x : Nat) (w : W32) : Nat := if fSel w = 0 then fld w 0 8 else (gOf s x (fld w 0 5)).toNat

/-- Steps 6 and 7 for a stamp lane (R168, R186, R257). -/
def stampCheck (lane : State → Nat → W32 → Nat) (x : Nat) (w : W32) (s : State) : Option Nat :=
  let c := x / 64
  let k := lane s x w
  if c < 16 || stampCl k != c then some 0x06 else if mayStamp s x k then none else some 0x04

/-- HPOP: it takes effect at the start of the lane cycle after its issue (R275). -/
def hpopRun (x i : Nat) (w : W32) (s : State) : Ends :=
  let k := laneT s x w
  let s := advance x (toLc (i / 2 + 1) s)
  let l := stamp s k
  .retires 3 (if !cfgBit l 6 then setZC x true true s
    else match inQueue s l with
      | [] => setZC x true false s
      | h :: _ =>
        setG x (fld w 13 5) (h.frame.setWidth 32)
          (setT x (fTd w) h.word (setZC x false false (setStamp k { l with queue := l.queue.tail } s))))

/-- HCNT: the count at the start of the lane cycle after its issue (R276). -/
def hcntRun (x i : Nat) (w : W32) (s : State) : Ends :=
  let k := laneI s x w
  let s := advance x (toLc (i / 2 + 1) s)
  let n := (inQueue s (stamp s k)).length
  .retires 2 (setG x (fA w) (at32 n 0) (setZ x (n == 0) s))

/-- THR: a setting with reserved bits or out of range is ignored (R277). -/
def thrRun (x _ : Nat) (w : W32) (s : State) : Ends :=
  let k := laneI s x w
  let v := gOf s x (fA w)
  let ok := thrInRange v && zeros v 0x0C00FC00
  let s := advance x (setZ x ok s)
  .retires 2 (if ok then modStamp k (fun l => { l with thrLc := some (lc s) }) (submitThr k v s) else raise (.slEvents k) 7 s)

def blnkOneRun (x i : Nat) (w : W32) (s : State) : Ends :=
  .retires 2 (requestOneShot (laneI s x w) (retireLc i 2) (advance x (setZ x true s)))

/-- BLNK set: the timers take effect at the next tick (R144, R278). -/
def blnkSetRun (x _ : Nat) (w : W32) (s : State) : Ends :=
  let k := laneI s x w
  let v := gOf s x (fA w)
  let ok := fld v 15 1 == 0 && decide (fld v 0 15 ≤ 20479)
  let s := advance x (setZ x ok s)
  .retires 2 (if ok then setReg (.slBlnk k) v s else raise (.slEvents k) 7 s)

/-- MEAS start: refused as R174 and R177 state, with a STOP of the same lane cycle (R279), and in a held cluster (R491).
(log entry 32, DEDUCED) -/
def measStartRun (x _ : Nat) (w : W32) (s : State) : Ends :=
  let k := laneI s x w
  let ok := !rgRefuses s k && (held s (x / 64)).isNone && (meas s k).stopLc != some (lc s)
  let s := advance x (setZ x ok s)
  .retires 2 (if ok then modMeas k (fun m => { m with startLc := some (lc s, x) }) (rgStart k s) else raise (.rgLevents k) 2 s)

/-- A write of RG_CTRL: START and STOP together are a STOP (R176); with a MEAS start of the same lane cycle it is one write
with both, so that the start counts as refused (R279). (log entry 32, DEDUCED) -/
def rgCtrlApply (k : Nat) (v : W32) (s : State) : State :=
  if fld v 1 1 = 1 then
    let s := match (meas s k).startLc with
      | some p => if p.1 = lc s then setZ p.2 false (raise (.rgLevents k) 2 s) else s
      | none => s
    modMeas k (fun m => { m with stopLc := some (lc s) }) (rgStop k s)
  else if fld v 0 1 = 1 then rgStart k s else s

def measStopRun (x _ : Nat) (w : W32) (s : State) : Ends := .retires 2 (rgStop (laneI s x w) (advance x (setZ x true s)))

/-- MRD: word w of the current result (R280). -/
def mrdRun (x _ : Nat) (w : W32) (s : State) : Ends :=
  .retires 3 (advance x (setT x (fTd w) ((meas s (laneT s x w)).words.getD (fld w 8 3) 0) s))

def execHpop (c : Nat) (s : State) : Res := instr c .hpop (stampCheck laneT) hpopRun s
def execHcnt (c : Nat) (s : State) : Res := instr c .hcnt (stampCheck laneI) hcntRun s
def execThr (c : Nat) (s : State) : Res := instr c .thr (stampCheck laneI) thrRun s
def execBlnkOneShot (c : Nat) (s : State) : Res := instr c .blnkOne (stampCheck laneI) blnkOneRun s
def execBlnkSet (c : Nat) (s : State) : Res := instr c .blnkSet (stampCheck laneI) blnkSetRun s
def execMeasStart (c : Nat) (s : State) : Res := instr c .measStart (stampCheck laneI) measStartRun s
def execMeasStop (c : Nat) (s : State) : Res := instr c .measStop (stampCheck laneI) measStopRun s
def execMrd (c : Nat) (s : State) : Res := instr c .mrd (stampCheck laneT) mrdRun s

/-! ### REC (R281-R283) -/

/-- The stream a REC names: gs in x[17:13] (R281). -/
def recStream (s : State) (x : Nat) (w : W32) : Nat := (gOf s x (fld w 13 5)).toNat

def recCheck (x : Nat) (w : W32) (s : State) : Option Nat :=
  if mayRecord s x (recStream s x w) then none else some 0x04

/-- The words in the record buffer of context x; the first word of the record the forwarder has begun has left (R283). -/
def recWords (s : State) (x : Nat) : Nat :=
  let half := match (cluster s (x / 64)).recHalf with
    | some p => if p.1 = x % 64 then 1 else 0
    | none => 0
  lsum ((ctx s x).recs.map fun r => if r.w1.isSome then 2 else 1) - half

/-- The words of a program record (Table 9-6). -/
def recW0 (x code time : Nat) (two : Bool) : W64 :=
  at64 0x3 60 ||| at64 (b2n two) 58 ||| at64 x 47 ||| at64 code 32 ||| at64 time 0
def recW1 (p : W64) : W64 := at64 0x3 60 ||| at64 1 59 ||| (p &&& 0x00FFFFFFFFFFFFFF)

/-- REC issued in the present lane cycle (R281-R283). -/
def recRun (x _ : Nat) (w : W32) (s : State) : Ends :=
  let two := fSel w == 1
  let n := if two then 2 else 1
  let m := recStream s x w
  let ok := decide (recWords s x + n ≤ 8) && s.fr.running && streamOn s m && streamOwner s m == tenantOf s x
  let r : ProgRec :=
    { stream := m, frame := s.fr.ticks, w0 := recW0 x (fld w 0 12) (frameOff s) two
      w1 := if two then some (recW1 (tOf s x (fTa w))) else none, base := s.fr.start }
  let s := advance x (setZ x ok s)
  .retires (n + 1) (if ok then modCtx x (fun u => { u with recs := u.recs ++ [r] }) s else s)

def execRecw (c : Nat) (s : State) : Res := instr c .record recCheck recRun s

end Sys2Proof.Machine
end

