-- ==== Sys2Proof/Machine/Crypto.lean ====
section
/-! DEFINITION. The standard functions the spec names (R21, R330, R331, R363, R407, R437): CRC-32C, the CRC-16 of the TTC
stream, AES-128, AES-CMAC, AES-CTR, SHA-256, and the derivation of working keys. Their bodies are those of the standards the
spec cites (log entry 14, PRESUMED). Bytes and blocks are numbers here, so that Lean's kernel can evaluate them. -/
namespace Sys2Proof.Machine

/-! ### Bytes -/

/-- The n bytes of a number, most significant first (R12). -/
def bytesOf (n : Nat) (v : Nat) : List Nat := (List.range n).map fun i => v / 256 ^ (n - 1 - i) % 256

/-- The number whose bytes, most significant first, are those listed. -/
def ofBytes (l : List Nat) : Nat := l.foldl (fun a b => a * 256 + b % 256) 0

/-- The bytes of 64-bit words, in order. -/
def wordsBytes (ws : List W64) : List Nat := ws.flatMap fun w => bytesOf 8 w.toNat

/-- Lists cut in pieces of n, the last perhaps shorter; `fuel` bounds their number. -/
def chunks (n : Nat) : Nat → List Nat → List (List Nat)
  | 0, _ => []
  | _, [] => []
  | f + 1, l => l.take n :: chunks n f (l.drop n)

/-! ### CRC-32C (R21) and the CRC-16 of the TTC stream (R407) -/

/-- One bit of a reflected CRC of polynomial p. -/
def crcBit (p c : Nat) : Nat := if c % 2 = 1 then (c / 2) ^^^ p else c / 2

def crcByte (c b : Nat) : Nat := (List.range 8).foldl (fun c _ => crcBit 0x82F63B78 c) (c ^^^ b)

/-- CRC-32C of bytes. -/
def crc32c (l : List Nat) : W32 := BitVec.ofNat 32 (l.foldl crcByte 0xFFFFFFFF ^^^ 0xFFFFFFFF)

def crc16Bit (c : Nat) : Nat := if 32768 ≤ c then (2 * c) ^^^ 0x11021 else 2 * c

def crc16Byte (c b : Nat) : Nat := (List.range 8).foldl (fun c _ => crc16Bit c) (c ^^^ (b * 256))

/-- CRC-16 of bytes: polynomial 0x1021, initial value 0xFFFF, no reflection, no final XOR. -/
def crc16 (l : List Nat) : BitVec 16 := BitVec.ofNat 16 (l.foldl crc16Byte 0xFFFF)

/-! ### AES-128 -/

/-- The S-box. -/
def sbox : List Nat :=
  [0x63, 0x7C, 0x77, 0x7B, 0xF2, 0x6B, 0x6F, 0xC5, 0x30, 0x01, 0x67, 0x2B, 0xFE, 0xD7, 0xAB, 0x76] ++
  [0xCA, 0x82, 0xC9, 0x7D, 0xFA, 0x59, 0x47, 0xF0, 0xAD, 0xD4, 0xA2, 0xAF, 0x9C, 0xA4, 0x72, 0xC0] ++
  [0xB7, 0xFD, 0x93, 0x26, 0x36, 0x3F, 0xF7, 0xCC, 0x34, 0xA5, 0xE5, 0xF1, 0x71, 0xD8, 0x31, 0x15] ++
  [0x04, 0xC7, 0x23, 0xC3, 0x18, 0x96, 0x05, 0x9A, 0x07, 0x12, 0x80, 0xE2, 0xEB, 0x27, 0xB2, 0x75] ++
  [0x09, 0x83, 0x2C, 0x1A, 0x1B, 0x6E, 0x5A, 0xA0, 0x52, 0x3B, 0xD6, 0xB3, 0x29, 0xE3, 0x2F, 0x84] ++
  [0x53, 0xD1, 0x00, 0xED, 0x20, 0xFC, 0xB1, 0x5B, 0x6A, 0xCB, 0xBE, 0x39, 0x4A, 0x4C, 0x58, 0xCF] ++
  [0xD0, 0xEF, 0xAA, 0xFB, 0x43, 0x4D, 0x33, 0x85, 0x45, 0xF9, 0x02, 0x7F, 0x50, 0x3C, 0x9F, 0xA8] ++
  [0x51, 0xA3, 0x40, 0x8F, 0x92, 0x9D, 0x38, 0xF5, 0xBC, 0xB6, 0xDA, 0x21, 0x10, 0xFF, 0xF3, 0xD2] ++
  [0xCD, 0x0C, 0x13, 0xEC, 0x5F, 0x97, 0x44, 0x17, 0xC4, 0xA7, 0x7E, 0x3D, 0x64, 0x5D, 0x19, 0x73] ++
  [0x60, 0x81, 0x4F, 0xDC, 0x22, 0x2A, 0x90, 0x88, 0x46, 0xEE, 0xB8, 0x14, 0xDE, 0x5E, 0x0B, 0xDB] ++
  [0xE0, 0x32, 0x3A, 0x0A, 0x49, 0x06, 0x24, 0x5C, 0xC2, 0xD3, 0xAC, 0x62, 0x91, 0x95, 0xE4, 0x79] ++
  [0xE7, 0xC8, 0x37, 0x6D, 0x8D, 0xD5, 0x4E, 0xA9, 0x6C, 0x56, 0xF4, 0xEA, 0x65, 0x7A, 0xAE, 0x08] ++
  [0xBA, 0x78, 0x25, 0x2E, 0x1C, 0xA6, 0xB4, 0xC6, 0xE8, 0xDD, 0x74, 0x1F, 0x4B, 0xBD, 0x8B, 0x8A] ++
  [0x70, 0x3E, 0xB5, 0x66, 0x48, 0x03, 0xF6, 0x0E, 0x61, 0x35, 0x57, 0xB9, 0x86, 0xC1, 0x1D, 0x9E] ++
  [0xE1, 0xF8, 0x98, 0x11, 0x69, 0xD9, 0x8E, 0x94, 0x9B, 0x1E, 0x87, 0xE9, 0xCE, 0x55, 0x28, 0xDF] ++
  [0x8C, 0xA1, 0x89, 0x0D, 0xBF, 0xE6, 0x42, 0x68, 0x41, 0x99, 0x2D, 0x0F, 0xB0, 0x54, 0xBB, 0x16]

def subByte (b : Nat) : Nat := sbox.getD b 0

def xtime (b : Nat) : Nat := if b < 128 then 2 * b else (2 * b) ^^^ 0x11B

def xorBytes (a b : List Nat) : List Nat := List.zipWith (fun x y => x ^^^ y) a b

/-- The bytes of the block, moved by ShiftRows. -/
def shiftRows (l : List Nat) : List Nat := [0, 5, 10, 15, 4, 9, 14, 3, 8, 13, 2, 7, 12, 1, 6, 11].map fun i => l.getD i 0

def mixCol : List Nat → List Nat
  | [a, b, c, d] =>
    let t := a ^^^ b ^^^ c ^^^ d
    [a ^^^ t ^^^ xtime (a ^^^ b), b ^^^ t ^^^ xtime (b ^^^ c), c ^^^ t ^^^ xtime (c ^^^ d), d ^^^ t ^^^ xtime (d ^^^ a)]
  | l => l

def mixColumns (l : List Nat) : List Nat := (chunks 4 4 l).flatMap mixCol

/-- The round key after k, with round constant r. -/
def nextKey (k : List Nat) (r : Nat) : List Nat :=
  let g (i : Nat) : Nat := k.getD i 0
  let w0 := xorBytes (k.take 4) [subByte (g 13) ^^^ r, subByte (g 14), subByte (g 15), subByte (g 12)]
  let w1 := xorBytes ((k.drop 4).take 4) w0
  let w2 := xorBytes ((k.drop 8).take 4) w1
  let w3 := xorBytes (k.drop 12) w2
  w0 ++ w1 ++ w2 ++ w3

/-- The middle rounds and the last, over the round constants. -/
def aesRounds : List Nat → List Nat → List Nat → List Nat
  | [], _, st => st
  | [r], k, st => xorBytes (shiftRows (st.map subByte)) (nextKey k r)
  | r :: rs, k, st =>
    let k' := nextKey k r
    aesRounds rs k' (xorBytes (mixColumns (shiftRows (st.map subByte))) k')

/-- AES-128 of a block under a key. -/
def aes (key block : Nat) : Nat :=
  let k := bytesOf 16 key
  ofBytes (aesRounds [0x01, 0x02, 0x04, 0x08, 0x10, 0x20, 0x40, 0x80, 0x1B, 0x36] k (xorBytes (bytesOf 16 block) k))

/-- Doubling in the field of the CMAC subkeys. -/
def cmacDbl (l : Nat) : Nat := if l < 2 ^ 127 then 2 * l else (2 * l % 2 ^ 128) ^^^ 0x87

/-- AES-CMAC of bytes under a key. -/
def cmac (key : Nat) (m : List Nat) : Nat :=
  let k1 := cmacDbl (aes key 0)
  let bs := chunks 16 (m.length / 16 + 1) m
  let last := bs.getLast?.getD []
  let whole := last.length = 16
  let fin := if whole then ofBytes last ^^^ k1
    else ofBytes (last ++ [0x80] ++ List.replicate (15 - last.length) 0) ^^^ cmacDbl k1
  aes key ((bs.dropLast.foldl (fun x b => aes key (x ^^^ ofBytes b)) 0) ^^^ fin)

/-- AES-CTR over bytes, with the counter block of each block given (R330). -/
def aesCtr (key : Nat) (ctr : Nat → Nat) (m : List Nat) : List Nat :=
  ((chunks 16 (m.length / 16 + 1) m).zipIdx.map fun p => xorBytes p.1 (bytesOf 16 (aes key (ctr p.2)))).flatten

/-! ### SHA-256 -/

def shaK : List Nat :=
  [0x428A2F98, 0x71374491, 0xB5C0FBCF, 0xE9B5DBA5, 0x3956C25B, 0x59F111F1, 0x923F82A4, 0xAB1C5ED5] ++
  [0xD807AA98, 0x12835B01, 0x243185BE, 0x550C7DC3, 0x72BE5D74, 0x80DEB1FE, 0x9BDC06A7, 0xC19BF174] ++
  [0xE49B69C1, 0xEFBE4786, 0x0FC19DC6, 0x240CA1CC, 0x2DE92C6F, 0x4A7484AA, 0x5CB0A9DC, 0x76F988DA] ++
  [0x983E5152, 0xA831C66D, 0xB00327C8, 0xBF597FC7, 0xC6E00BF3, 0xD5A79147, 0x06CA6351, 0x14292967] ++
  [0x27B70A85, 0x2E1B2138, 0x4D2C6DFC, 0x53380D13, 0x650A7354, 0x766A0ABB, 0x81C2C92E, 0x92722C85] ++
  [0xA2BFE8A1, 0xA81A664B, 0xC24B8B70, 0xC76C51A3, 0xD192E819, 0xD6990624, 0xF40E3585, 0x106AA070] ++
  [0x19A4C116, 0x1E376C08, 0x2748774C, 0x34B0BCB5, 0x391C0CB3, 0x4ED8AA4A, 0x5B9CCA4F, 0x682E6FF3] ++
  [0x748F82EE, 0x78A5636F, 0x84C87814, 0x8CC70208, 0x90BEFFFA, 0xA4506CEB, 0xBEF9A3F7, 0xC67178F2]

def shaH : List Nat :=
  [0x6A09E667, 0xBB67AE85, 0x3C6EF372, 0xA54FF53A, 0x510E527F, 0x9B05688C, 0x1F83D9AB, 0x5BE0CD19]

def rotr (n x : Nat) : Nat := x / 2 ^ n + x % 2 ^ n * 2 ^ (32 - n)

def add32 (a b : Nat) : Nat := (a + b) % 4294967296

/-- The message schedule: the last 16 words are kept, the newest first. -/
def shaNext (w : List Nat) : Nat :=
  let g (i : Nat) : Nat := w.getD (i - 1) 0
  let s0 := rotr 7 (g 15) ^^^ rotr 18 (g 15) ^^^ (g 15 / 8)
  let s1 := rotr 17 (g 2) ^^^ rotr 19 (g 2) ^^^ (g 2 / 1024)
  add32 (add32 (g 16) s0) (add32 (g 7) s1)

/-- One round on the eight working variables with schedule word w and constant k. -/
def shaRound (v : List Nat) (w k : Nat) : List Nat :=
  match v with
  | [a, b, c, d, e, f, g, h] =>
    let s1 := rotr 6 e ^^^ rotr 11 e ^^^ rotr 25 e
    let ch := (e &&& f) ^^^ ((4294967295 - e) &&& g)
    let t1 := add32 (add32 h s1) (add32 ch (add32 k w))
    let s0 := rotr 2 a ^^^ rotr 13 a ^^^ rotr 22 a
    let maj := (a &&& b) ^^^ (a &&& c) ^^^ (b &&& c)
    [add32 t1 (add32 s0 maj), a, b, c, add32 d t1, e, f, g]
  | l => l

/-- The rounds over the constants: the first 16 use the words of the block, the later ones the schedule. -/
def shaRounds : List Nat → List Nat → List Nat → List Nat → List Nat
  | [], _, _, v => v
  | k :: ks, blk, w, v =>
    match blk with
    | x :: rest => shaRounds ks rest (x :: w) (shaRound v x k)
    | [] => let x := shaNext w; shaRounds ks [] (x :: w.take 15) (shaRound v x k)

def shaBlock (h : List Nat) (b : List Nat) : List Nat :=
  List.zipWith add32 h (shaRounds shaK ((chunks 4 16 b).map ofBytes) [] h)

/-- SHA-256 of bytes, as eight 32-bit words. -/
def sha256 (m : List Nat) : List W32 :=
  let pad := m ++ [0x80] ++ List.replicate ((119 - m.length % 64) % 64) 0 ++ bytesOf 8 (8 * m.length)
  ((chunks 64 (pad.length / 64) pad).foldl shaBlock shaH).map fun x => BitVec.ofNat 32 x

/-! ### Working keys (R363) -/

/-- D(K, label, ctx). -/
def deriveKey (k : W128) (label ctx : Nat) : Nat :=
  cmac k.toNat (label :: List.replicate 11 0 ++ bytesOf 4 ctx)

def cmdKey (k : W128) : Nat := deriveKey k 0x01 0
def wrapKey (k : W128) : Nat := deriveKey k 0x02 0
def confKey (k : W128) (m : Nat) : Nat := deriveKey k 0x03 m
def integKey (k : W128) (m : Nat) : Nat := deriveKey k 0x04 m

/-- The check value of a key: the 24 most significant bits of the check key (R366). -/
def checkValue (k : W128) : Nat := deriveKey k 0x05 0 / 2 ^ 104

/-! ### The key area (R362) -/

/-- The CRC-32C of a key-area entry: over words 0 and 1 and bits [63:32] of word 3. -/
def keyCrc (w0 w1 w3 : W64) : W32 := crc32c (wordsBytes [w0, w1] ++ bytesOf 4 (hi32 w3).toNat)

/-- The four words of a key-area entry. -/
def keyWords (e : KeyEntry) : List W64 :=
  let w0 := at64 (e.key.toNat / 2 ^ 64) 0
  let w1 := at64 (e.key.toNat % 2 ^ 64) 0
  let w3 := at64 (b2n e.valid) 63 ||| at64 (checkValue e.key) 32
  [w0, w1, at64 e.resv 0, w3 ||| (keyCrc w0 w1 w3).setWidth 64]

/-- Word i of the entry of tenant t in a key area. -/
def keyWord (area : Tbl W64) (t i : Nat) : W64 := tget 0 (4 * t + i) area

/-- The entry of tenant t in a key area; one whose CRC is wrong holds no valid key (log entry 48, DEDUCED). -/
def keyIn (area : Tbl W64) (t : Nat) : KeyEntry :=
  let w := keyWord area t
  { key := BitVec.ofNat 128 ((w 0).toNat * 2 ^ 64 + (w 1).toNat), resv := (w 2).toNat
    valid := fld (w 3) 63 1 == 1 && keyCrc (w 0) (w 1) (w 3) == lo32 (w 3) }

/-- A tag: the 96 most significant bits of a CMAC (R331, R367, R402). -/
def tagOf (key : Nat) (ws : List W64) : Nat := cmac key (wordsBytes ws) / 2 ^ 32 % 2 ^ 96

end Sys2Proof.Machine
end

