-- ==== Sys2Proof/Machine/Link.lean ====
section
/-! DEFINITION. Link frames of P0, P1 and P3 (R388-R391): well-formedness, malformed frames, LSEQ, and the slots a frame takes. -/
namespace Sys2Proof.Machine

/-- The FCS of a link frame: over the 7 header bytes and the body (R388). -/
def fcsOf (kind flags nwords lseq : Nat) (body : List W64) : W32 :=
  crc32c ([kind, flags] ++ bytesOf 2 nwords ++ bytesOf 3 lseq ++ wordsBytes body)

/-- The kind is allowed towards the device on port p (Table 14-3). -/
def kindAllowed (p kind : Nat) : Bool := if p = 3 then kind == 3 || kind == 5 else kind == 1 || kind == 4 || kind == 5

/-- The FLAGS and body length a kind allows (Table 14-3). -/
def kindFits (f : LinkFrame) : Bool :=
  match f.kind with
  | 1 => f.flags == 0
  | 3 => decide (f.flags < 4)
  | 4 => f.flags == 0 && f.nwords == 1 && (f.body.headD 0).toNat < 65536
  | 5 => f.flags == 0 && f.nwords == 1
  | _ => false

/-- The FCS holds. -/
def fcsOk (f : LinkFrame) : Bool := fcsOf f.kind f.flags f.nwords f.lseq f.body == f.fcs

/-- A link frame received on port p is well formed (R389). -/
def linkOk (p : Nat) (f : LinkFrame) : Bool :=
  f.clean && fcsOk f && f.nwords == f.body.length && kindAllowed p f.kind && kindFits f

/-- A malformed frame is counted (R389). -/
def malformed (p : Nat) (f : LinkFrame) (s : State) : State :=
  let s := raise (.ptEvents p) 5 (count (.ptMalfCnt p) s)
  if fcsOk f then s else raise (.ptEvents p) 4 (count (.ptFcsCnt p) s)

/-- A well-formed frame's LSEQ: a gap is counted (R389). -/
def takeLseq (p : Nat) (f : LinkFrame) (s : State) : State :=
  let gap := f.lseq != (port s p).lseqRx
  let s := modPort p (fun u => { u with lseqRx := (f.lseq + 1) % 2 ^ 24 }) s
  if gap then count (.ptGapCnt p) s else s

/-- The first slot of port p from lane cycle n on: even lane cycles for P0 and P3, odd for P1 (R332; log entry 15, DESIGN CHOICE). -/
def slotFrom (p n : Nat) : Nat := if n % 2 = (if p = 1 then 1 else 0) then n else n + 1

/-- A link frame with the body starts on port p in lane cycle n: it takes its slots and an idle block (R388, Table 14-2). -/
def sendFrame (p n : Nat) (what : Sending) (body : List W64) (s : State) : State :=
  modPort p (fun u => { u with
    sending := some (what, n + 2 * body.length)
    txFree := n + 2 * (body.length + 3)
    lseqTx := (u.lseqTx + 1) % 2 ^ 24, tx := body, rest := [] }) s

/-- The lane cycle in which port p can start a link frame. -/
def startLc (s : State) (p : Nat) : Nat := slotFrom p (max (lc s) (port s p).txFree)

end Sys2Proof.Machine
end

