-- ==== Sys2Proof/Machine/Separator.lean ====
section
/-! DEFINITION. The Separator (11_separator.md): records, the trigger list, sealing and matching, packets, chain merging,
the output ports' round-robin, the buffer. -/
namespace Sys2Proof.Machine

/-! ### Streams, packets and their lengths -/

def isTail (s : State) : Bool := rfld s .spChain 4 4 == chainPos s
def streamBit (s : State) (m b : Nat) : Bool := rbit s (.spSCfg m) b
/-- The port of stream m: P3 on a device that is not the tail (R332). -/
def portOf (s : State) (m : Nat) : Nat := if isTail s then rfld s (.spSCfg m) 29 1 else 3
/-- CTR and CMAC as the tail applies them (R322, R330, R331). -/
def usesCtr (s : State) (m : Nat) : Bool := isTail s && streamBit s m 27
def usesMac (s : State) (m : Nat) : Bool := isTail s && streamBit s m 26
/-- The streams that are not in their reset state. -/
def heldStreams (s : State) : List Nat := s.sp.streams.map (·.1)

def typeOf (r : SpRec) : Nat := fld (r.words.headD 0) 60 4
def timeOf (r : SpRec) : Nat := fld (r.words.headD 0) 0 32

/-- The word of a source (Table 11-7). -/
def sourceWord (pos : Nat) : W64 := at64 0xF4 56 ||| at64 pos 52

/-- The record words with source words before the first record and at each change of chain position (R321). -/
def withSources : Option Nat → List SpRec → List W64
  | _, [] => []
  | last, r :: rest => (if last = some r.pos then [] else [sourceWord r.pos]) ++ r.words ++ withSources (some r.pos) rest

/-- The RESUME record (Table 11-9). (log entry 45, DEDUCED) -/
def resumeWords (r : Nat × Nat × Nat) : List W64 :=
  [at64 0x7 60 ||| at64 (min r.1 2047) 48 ||| at64 r.2.1 0, at64 0x7 60 ||| at64 1 59 ||| at64 r.2.2 0]

/-- The record words of a packet (R320, R321, R327). -/
def recordWords (srcw : Bool) (p : Packet) : List W64 :=
  (match p.resume with
    | some r => resumeWords r
    | none => []) ++ (if srcw then withSources none p.recs else p.recs.flatMap (·.words))

def srcw (s : State) : Bool := rbit s .spCfg 0

/-- The length of an item as sent, words (R327, R333). -/
def itemLen (s : State) (p : Packet) : Nat :=
  if p.hb then 1 else 6 + (recordWords (srcw s) p).length + (if usesMac s p.stream then 2 else 0)

/-! ### The buffer (R336, R338) -/

def recsLen (l : List SpRec) : Nat := lsum (l.map fun r => r.words.length)

/-- The words of a stream that are no replay copies. -/
def streamLive (s : State) (m : Nat) : Nat :=
  let u := stream s m
  recsLen u.recs + lsum (u.queue.map (itemLen s))

/-- The words in the chain input area. -/
def chinUsed (s : State) : Nat := lsum (s.sp.up.map fun p => recsLen p.recs + 6)

/-- The words of the item that port p is sending, which stay in the buffer until it is wholly sent (R336). -/
def sendingLen (s : State) (p : Nat) : Nat :=
  let u := port s p
  match u.sending with
  | some (.packet _ _, e) => if lc s < e then u.tx.length else u.rest.length
  | _ => 0

/-- The packet of stream m that is not wholly sent yet: its frame, and the words it takes in the buffer (R336). -/
def sendingOf (s : State) (m : Nat) : List (Nat × Nat) :=
  [0, 1, 3].filterMap fun p => match (port s p).sending with
    | some (.packet k f, _) => if k = m && sendingLen s p != 0 then some (f, sendingLen s p) else none
    | _ => none

/-- The words a stream uses (SP_Sm_STAT.USED): waiting records, packets not wholly sent, and replay copies. A packet under
way stands in the buffer once, with its copy. -/
def streamUsed (s : State) (m : Nat) : Nat :=
  let out := sendingOf s m
  streamLive s m + lsum (out.map (·.2)) +
    lsum (((stream s m).window.filter fun p => !out.any fun q => q.1 == p.frame).map fun p => p.words.length)

/-- SP_STATUS.FILL (R338). -/
def fill (s : State) : Nat :=
  chinUsed s + lsum ((heldStreams s).map (streamLive s)) + lsum ([0, 1, 3].map (sendingLen s))

/-- A pin with its watermarks, for a fill of n words. -/
def xoffLevel (s : State) (r : Reg) (n : Nat) (cur : Bool) : Bool :=
  if 256 * rfld s r 16 11 ≤ n then true else if n ≤ 256 * rfld s r 0 11 then false else cur

/-- SP_XOFF0, SP_XOFF1 and CH_XOFF_OUT follow their watermarks (R338). -/
def xoffs (s : State) : State :=
  let f := fill s
  { s with sp := { s.sp with
    xoff0 := xoffLevel s .spWm0 f s.sp.xoff0, xoff1 := xoffLevel s .spWm1 f s.sp.xoff1
    xoffOut := xoffLevel s .spWmc (chinUsed s) s.sp.xoffOut } }

/-- Replay copies of stream m are released, oldest first, until n more words fit (R336). -/
def makeRoom (m n : Nat) : Nat → State → State
  | 0, s => s
  | f + 1, s =>
    if streamUsed s m + n ≤ 256 * rfld s (.spSQuota m) 0 11 then s
    else makeRoom m n f (modStream m (fun u => { u with window := u.window.drop 1 }) s)

/-- A record joins the waiting records of stream m, or is lost (R336). -/
def placeIn (m : Nat) (r : SpRec) (s : State) : State :=
  let n := r.words.length
  let s := makeRoom m n 64 s
  if streamUsed s m + n ≤ 256 * rfld s (.spSQuota m) 0 11 then modStream m (fun u => { u with recs := u.recs ++ [r] }) s
  else loseN m 1 s

/-! ### Matching windows and triggers (R314-R319) -/

/-- A window register in a snapshot of the registers. -/
def winReg (ws : Tbl W32) (r : Reg) : W32 := tget (regReset r) (regAddr r) ws

/-- The enabled windows of a snapshot, by tenant and number. -/
def enabledWins (ws : Tbl W32) : List (Nat × Nat) :=
  (ws.filter fun p => 0x320000 ≤ p.1 && p.1 < 0x340000 && p.1 % 16 == 0 && fld p.2 31 1 == 1).map
    fun p => ((p.1 - 0x320000) / 0x80, (p.1 - 0x320000) % 0x80 / 16)

/-- The windows of the registers now, as a snapshot. -/
def winsNow (s : State) : Tbl W32 := s.regs.filter fun p => 0x320000 ≤ p.1 && p.1 < 0x340000

/-- A trigger meets the source and code conditions of a window (R316). -/
def winTakes (ws : Tbl W32) (w : Nat × Nat) (g : Trig) : Bool :=
  let c := winReg ws (.spWCfg w.1 w.2)
  let mask := fld (winReg ws (.spWMask w.1 w.2)) 0 16
  fld c 28 2 == g.src && (g.src != 1 || fld c 24 4 == g.input) && (g.src != 2 || g.tenant == w.1) &&
    (g.code.toNat &&& mask) == (fld c 0 16 &&& mask)

/-- The start and the width of what a window covers for a trigger, absolute. -/
def winStart (ws : Tbl W32) (w : Nat × Nat) (g : Trig) : W64 := g.time + (winReg ws (.spWOfs w.1 w.2)).signExtend 64
def winWid (ws : Tbl W32) (w : Nat × Nat) : Nat := (winReg ws (.spWWid w.1 w.2)).toNat

/-- Matching is on for a tenant. -/
def matchOn (ws : Tbl W32) (t : Nat) : Bool := (enabledWins ws).any fun w => w.1 == t

/-- A record of a frame is kept for its stream's owner (R316). -/
def matched (f : OpenFrame) (trigs : List Trig) (t : Nat) (r : SpRec) : Bool :=
  if (typeOf r != 1 && typeOf r != 2) || !matchOn f.wins t then true
  else
    let h := f.start + BitVec.ofNat 64 (timeOf r)
    (enabledWins f.wins).any fun w =>
      w.1 == t && trigs.any fun g => winTakes f.wins w g && decide ((h - winStart f.wins w g).toNat < winWid f.wins w)

/-- An absolute time lies before the end of the newest sealed frame. -/
def beforeSealed (s : State) (t : W64) : Bool := s.sp.sealedTo.isSome && neg64 (t - s.sp.sealedEnd)

/-- A window of a snapshot could match a trigger against a frame not yet sealed. -/
def winLives (s : State) (g : Trig) (ws : Tbl W32) : Bool :=
  (enabledWins ws).any fun w => winTakes ws w g && !beforeSealed s (winStart ws w g + BitVec.ofNat 64 (winWid ws w - 1))

/-- A trigger stays in the list: a window in force in an open frame, or enabled now, could match it against a frame not yet
sealed, or its records are still to be written (R315, R316, R318). -/
def trigLives (s : State) (g : Trig) : Bool :=
  (!g.done && !beforeSealed s g.time) || winLives s g s.regs || s.sp.frames.any fun f => winLives s g f.wins

def pruneTrigs (s : State) : State := { s with sp := { s.sp with trigs := s.sp.trigs.filter (trigLives s) } }

/-- The end of an open frame: its closing tick, or the tick its period gives. -/
def frameStop (s : State) (f : OpenFrame) : W64 :=
  if f.closed.isSome then f.stop else f.start + BitVec.ofNat 64 (s.fr.period * 16384)

/-- A time lies in an open frame. -/
def inOpen (s : State) (f : OpenFrame) (t : W64) : Bool := !neg64 (t - f.start) && neg64 (t - frameStop s f)

/-- The trigger record of a trigger in a frame (Table 11-5). -/
def trigWord (f : OpenFrame) (g : Trig) : W64 :=
  at64 0x9 60 ||| at64 g.src 58 ||| at64 g.chan 48 ||| at64 g.code.toNat 32 ||| at64 ((g.time - f.start).toNat % 2 ^ 32) 0

/-- The tenants of the windows with TREC that take a trigger. -/
def recTenants (ws : Tbl W32) (g : Trig) : List Nat :=
  (((enabledWins ws).filter fun w => fld (winReg ws (.spWCfg w.1 w.2)) 30 1 == 1 && winTakes ws w g).map (·.1)).eraseDups

/-- The trigger records of a trigger in frame f are written (R318). -/
def writeTrig (f : OpenFrame) (g : Trig) (s : State) : State :=
  forL (fun t s => match homeOf s t with
    | some m => placeIn m { tenant := t, stream := none, frame := f.no, words := [trigWord f g], pos := chainPos s } s
    | none => count .spNostrCnt s) (recTenants f.wins g) s

/-- The trigger records due in the open frames are written. -/
def writeTrigs (s : State) : State :=
  forL (fun g s => match s.sp.frames.find? fun f => inOpen s f g.time with
    | some f => writeTrig f g s
    | none => s) (s.sp.trigs.filter fun g => !g.done)
    { s with sp := { s.sp with trigs := s.sp.trigs.map fun g =>
      { g with done := g.done || s.sp.frames.any fun f => inOpen s f g.time } } }

/-- The tenants for whom a trigger that enters now is late (R317, R318). (log entry 44, DEDUCED) -/
def lateFor (s : State) (g : Trig) : List Nat :=
  let past := beforeSealed s g.time
  (((enabledWins s.regs).filter fun w => winTakes s.regs w g &&
    (beforeSealed s (winStart s.regs w g) || (past && fld (winReg s.regs (.spWCfg w.1 w.2)) 30 1 == 1))).map (·.1)).eraseDups

/-- A trigger enters the list (R314, R315, R317, R318); while absolute time is frozen those of program records alone, whose
time was taken before. (log entry 44, DEDUCED) -/
def enterTrig (g : Trig) (s : State) : State :=
  if !s.fr.running && g.src != 2 then s
  else
    let s := pruneTrigs s
    if 1024 ≤ s.sp.trigs.length then
      raise .spEvents 2 (count .spTlossCnt { s with sp := { s.sp with trigLoss := true } })
    else
      let late := lateFor s g
      let s := { s with sp := { s.sp with
        trigs := s.sp.trigs ++ [{ g with done := beforeSealed s g.time }], lateTrig := (s.sp.lateTrig ++ late).eraseDups } }
      let s := if late.isEmpty then s else raise .spEvents 1 (count .spTlateCnt s)
      xoffs (writeTrigs s)

/-- The time of a program trigger: the record's own, or the one whose low 56 bits are the payload and that lies nearest
(Table 11-4). -/
def progTime (r : SpRec) : W64 :=
  let own := r.base + BitVec.ofNat 64 (timeOf r)
  match r.words with
  | [_, w1] => own + ((w1.setWidth 56 - own.setWidth 56).signExtend 64)
  | _ => own

/-- A program record whose code makes it a trigger. -/
def progTrig (r : SpRec) : Option Trig :=
  let w := r.words.headD 0
  if typeOf r = 3 && 0xF00 ≤ fld w 32 12 then
    some { done := false, time := progTime r, src := 2, code := BitVec.ofNat 16 (fld w 32 8), tenant := r.tenant, input := 0, chan := 0 }
  else none

/-! ### Records at the input (R305, R306, R310) -/

/-- A record without a usable stream is discarded (R305, R306). -/
def noStream (r : SpRec) (s : State) : State := loseHome r.tenant (count .spNostrCnt s)

/-- A record whose frame is sealed is late (R310). -/
def lateRec (m : Nat) (s : State) : State := raise .spEvents 0 (loseN m 1 (count .spLateCnt s))

/-- A record of a frame that began after its tenant's removal (R380). -/
def removed (s : State) (r : SpRec) : Bool :=
  match (tenant s r.tenant).leaving with
  | some f => decide (f ≤ r.frame)
  | none => false

/-- A record is placed in its stream or lost. -/
def placeRecord (r : SpRec) (s : State) : State :=
  if removed s r then s
  else
    let m? := match r.stream with
      | some m => if streamOn s m && streamOwner s m == r.tenant then some m else none
      | none => homeOf s r.tenant
    match m? with
    | none => noStream r s
    | some m => if s.sp.frames.any fun f => f.no == r.frame then placeIn m r s else lateRec m s

/-- SEPARATOR_RECORD_IN: the oldest record on its way reaches the Separator (R306). -/
def recordIn (s : State) : State :=
  match s.sp.inbound with
  | [] => s
  | r :: rest =>
    let s := { s with sp := { s.sp with inbound := rest } }
    let s := match progTrig r with
      | some g => enterTrig g s
      | none => s
    xoffs (placeRecord r s)

def execSeparatorRecordIn (s : State) : Res := .next (when s.released recordIn s)

/-! ### Order within a packet (R320) -/

/-- The class of a record type (Table 11-1). -/
def classOf (t : Nat) : Nat :=
  match t with
  | 1 => 0
  | 2 => 0
  | 9 => 1
  | 5 => 2
  | 4 => 3
  | 3 => 4
  | 8 => 4
  | _ => 5

/-- The order within the class. -/
def withinClass (r : SpRec) : Nat :=
  let w := r.words.headD 0
  match typeOf r with
  | 1 => 2 * fld w 52 8 + fld w 51 1
  | 2 => 2 * fld w 52 8
  | 4 => fld w 49 8
  | 3 => fld w 47 11
  | 8 => fld w 48 11
  | _ => 0

def recKey (r : SpRec) : List Nat := [timeOf r, classOf (typeOf r), r.pos, withinClass r]

/-- Lexicographic order of keys. -/
def keyLt : List Nat → List Nat → Bool
  | a :: as, b :: bs => if a < b then true else if b < a then false else keyLt as bs
  | _, _ => false

def insertRec (r : SpRec) : List SpRec → List SpRec
  | [] => [r]
  | x :: t => if keyLt (recKey r) (recKey x) then r :: x :: t else x :: insertRec r t

/-- Records in the order of R320; equal keys keep the order of arrival. -/
def sortRecs (l : List SpRec) : List SpRec := l.foldl (fun a r => insertRec r a) []

/-! ### Packets as sent (Tables 11-6, 11-7) -/

/-- A record carries DEGRADED: hits and frequency results have the bit. -/
def degradedRec (r : SpRec) : Bool :=
  let w := r.words.headD 0
  match typeOf r with
  | 1 => fld w 50 1 == 1
  | 2 => fld w 50 1 == 1
  | 4 => fld w 46 1 == 1
  | _ => false

/-- 64-bit words of bytes. -/
def toWords (l : List Nat) : List W64 := (chunks 8 (l.length / 8 + 1) l).map fun b => BitVec.ofNat 64 (ofBytes b)

/-- The words with MAC words where the stream uses CMAC, and the CRC word (R327, R331). -/
def sealWords (s : State) (m : Nat) (key : KeyEntry) (ws : List W64) : List W64 :=
  let tag := tagOf (integKey key.key m) ws
  let ws := if usesMac s m then ws ++ [at64 0xF9 56 ||| at64 (tag / 2 ^ 48) 0, at64 0xFA 56 ||| at64 (tag % 2 ^ 48) 0] else ws
  ws ++ [at64 0xFF 56 ||| (crc32c (wordsBytes ws)).setWidth 64]

/-- The words from H0 to T0 of a packet, its records encrypted where the stream uses CTR (R328-R330).
(log entry 45, DEDUCED) -/
def bodyWords (s : State) (p : Packet) : List W64 :=
  let dev := (reg s .spDevid).toNat
  let recs := recordWords (srcw s) p
  let ctr (i : Nat) : Nat := dev * 2 ^ 96 + p.epoch.toNat * 2 ^ 64 + p.frame * 2 ^ 16 + i
  let sent := if usesCtr s p.stream then toWords (aesCtr (confKey p.key.key p.stream) ctr (wordsBytes recs)) else recs
  [at64 0xF0 56 ||| at64 (chainPos s) 52 ||| at64 p.stream 42 ||| at64 (b2n (usesCtr s p.stream)) 41 |||
      at64 (b2n (usesMac s p.stream)) 40 ||| at64 dev 0,
   at64 0xF1 56 ||| at64 p.frame 0, at64 0xF2 56 ||| at64 (p.flags % 2 ^ 24) 32 ||| p.epoch.setWidth 64,
   at64 0xF3 56 ||| at64 p.srcmap 32 ||| p.digest.setWidth 64] ++ sent ++
  [at64 0xF8 56 ||| at64 recs.length 32 ||| at64 (min p.loss (2 ^ 32 - 1)) 0]

/-- The heartbeat word (Table 11-3). -/
def heartbeat (p : Packet) : W64 :=
  at64 0xE 60 ||| at64 p.stream 50 ||| at64 (b2n (p.loss != 0)) 49 ||| at64 (b2n (p.flags != 0 || p.loss != 0 || p.hbFlag)) 48 ||| at64 p.frame 0

/-! ### Building (R311-R313, R323-R327, R335, R383) -/

/-- Port p delivers: P3 downstream is never DOWN (R404). -/
def portUp (s : State) (p : Nat) : Bool := p == 3 || (port s p).up

/-- A packet of stream m joins the replay window of 64, unless its key has been replaced since (R334, R366). -/
def toWindow (m : Nat) (x : Sent) (s : State) : State :=
  let u := stream s m
  let old := (usesCtr s m || usesMac s m) && match u.newKey with
    | some f => decide (x.frame < f)
    | none => false
  if old then s else
    let w := u.window ++ [x]
    setStream m { u with window := w.drop (w.length - 64) } s

/-- Two ranges of undelivered packets, the earlier one first, as one (R335). -/
def joinRanges (a b : Option (Nat × Nat × Nat)) : Option (Nat × Nat × Nat) :=
  match a, b with
  | some x, some y => some (min 2047 (x.1 + y.1), x.2.1, y.2.2)
  | some x, none => some x
  | none, y => y

/-- A packet is undelivered (R335, R396). -/
def markUndelivered (m f : Nat) (s : State) : State :=
  modStream m (fun u => { u with undeliv := joinRanges u.undeliv (some (1, f, f)) }) s

/-- The packet of stream m that is under way is undelivered, and with it those its RESUME named (R335). -/
def cutUndelivered (m f : Nat) (s : State) : State :=
  modStream m (fun u => { u with
    undeliv := joinRanges (joinRanges u.resuming (some (1, f, f))) u.undeliv, resuming := none }) s

/-- Frame a, with its load, is b or came before it. -/
def notAfter (a b : Nat × Nat) : Bool := decide (a.1 < b.1) || (a.1 == b.1 && decide (a.2 ≤ b.2))

/-- The later of an upstream frame noted and another. -/
def laterOf (o : Option (Nat × Nat)) (x : Nat × Nat) : Option (Nat × Nat) :=
  match o with
  | some y => some (if notAfter x y then y else x)
  | none => some x

/-- Absolute time and the frame counter are loaded: no frame after it is sealed, and none has come from upstream (R315, R317,
R323). -/
def timeLoaded (s : State) : State :=
  { s with sp := { s.sp with gen := s.sp.gen + 1, sealedTo := none, sealedEnd := 0 } }

/-- The load of the time after which this device has frame k, if it still holds a frame of that number; the last one
otherwise. -/
def genOf (s : State) (k : Nat) : Nat :=
  match (s.sp.frames.filter fun f => f.frame == k).map (·.gen) ++
      (s.sp.streams.flatMap fun p => (p.2.queue.filter fun q => q.frame == k).map (·.gen)) with
  | [] => s.sp.gen
  | g :: gs => gs.foldl min g

/-- A ready packet of a port that is DOWN is kept in the window, undelivered; a heartbeat is dropped (R335). -/
def shelve (p : Packet) (s : State) : State :=
  if p.hb then s else markUndelivered p.stream p.frame (toWindow p.stream { frame := p.frame, words := bodyWords s p } s)

/-- The condition of R323 for sending a packet of stream m and frame f, with its load. -/
def upDone (s : State) (m : Nat) (f : Nat × Nat) : Bool :=
  chainPos s == 0 || (stream s m).lastUp.any (notAfter f) || s.sp.upEnd.any (notAfter f) || s.sp.missed.contains f

/-- The longest beginning of the records whose words, with source words, do not exceed n (R327). -/
def capRecs (srcw : Bool) : Nat → Option Nat → List SpRec → List SpRec
  | _, _, [] => []
  | n, last, r :: rest =>
    let k := r.words.length + (if srcw && last != some r.pos then 1 else 0)
    if k ≤ n then r :: capRecs srcw (n - k) (some r.pos) rest else []

/-- A packet joined with the upstream parts of its stream and frame (R325). -/
def mergeUp (ups : List UpPacket) (missing : Bool) (p : Packet) : Packet :=
  ups.foldl (fun p u => { p with
    recs := p.recs ++ u.recs
    flags := p.flags ||| (u.flags &&& (0xFFFFFF - 0x400)) ||| (if u.epoch = p.epoch || u.hb then 0 else 0x4000)
    loss := min (2 ^ 32 - 1) (p.loss + u.loss), srcmap := p.srcmap ||| u.srcmap, hbFlag := p.hbFlag || u.hbFlag })
    { p with flags := p.flags ||| (if missing then 0x100 else 0) }

/-- A frame decided without a packet, for an upstream packet that still comes (R324; log entry 44, DEDUCED). -/
def keepEnded (p : Packet) (s : State) : State :=
  if chainPos s = 0 then s
  else modStream p.stream (fun u =>
    let l := u.ended ++ [{ p with recs := [], loss := 0, hb := false, rdy := false }]
    { u with ended := l.drop (l.length - 64) }) s

/-- A packet of stream m is complete: it is built, replaced by a heartbeat, suppressed, or kept undelivered. The item to
queue, if any, and the losses that go on to the next packet built (R337). -/
def finalize (p0 : Packet) (s : State) : Option Packet × Nat × State :=
  let m := p0.stream
  let mine (u : UpPacket) : Bool := u.stream == m && u.frame == p0.frame && decide (u.gen ≤ p0.gen)
  let p := mergeUp (s.sp.up.filter mine) (s.sp.missed.contains (p0.gen, p0.frame)) p0
  let s := { s with sp := { s.sp with up := s.sp.up.filter fun u => !mine u } }
  let up := portUp s (portOf s m)
  let u := stream s m
  let resume := if p0.resume.isSome then p0.resume else if up && !u.promised then u.undeliv else none
  let sorted := sortRecs p.recs
  let kept := capRecs (srcw s) (32768 - (if resume.isSome then 2 else 0)) none sorted
  let beyondCap := sorted.length - kept.length
  let keyless := (usesCtr s m || usesMac s m) && !p.key.valid
  let quiet := kept.isEmpty && resume.isNone
  if keyless || quiet then
    let s := if keyless then loseN m p.recs.length s else s
    let q := { p with recs := [], hb := true, rdy := true, loss := min (2 ^ 32 - 1) ((stream s m).loss + p.loss) }
    if streamBit s m 28 && s.fr.running && up then (some q, p.loss, s) else (none, p.loss, keepEnded p s)
  else
    let s := if beyondCap = 0 then s else countN (.spSLoss m) beyondCap s
    let loss := min (2 ^ 32 - 1) (p.loss + beyondCap)
    let q := { p with
      recs := kept, rdy := true, resume := resume, loss := loss
      flags := p.flags ||| (if beyondCap = 0 then 0 else 0x1000) ||| (if loss = 0 then 0 else 0x20) |||
        (if resume.isSome then 0x2000 else 0) ||| (if kept.any degradedRec then 0x10 else 0) }
    if up then (some q, 0, if resume.isSome then modStream m (fun u => { u with promised := true }) s else s)
    else (none, 0, shelve q s)

/-- A loss count with n more (R337). -/
def addLoss (n loss : Nat) : Nat := min (2 ^ 32 - 1) (loss + n)

/-- Losses of stream m that no packet has reported go to the first packet of `rest` that is not built yet, or to the packet of
a frame not yet sealed (R337). -/
def lossGoesOn (m n : Nat) (rest : List Packet) (s : State) : List Packet × State :=
  if n = 0 then (rest, s)
  else match rest.findIdx? fun p => !p.rdy with
    | some i => (rest.modify i fun p => { p with loss := addLoss n p.loss }, s)
    | none => (rest, modStream m (fun u => { u with loss := addLoss n u.loss }) s)

/-- The packets of a queue that may now be completed are. -/
def readyQueue : Nat → List Packet → State → List Packet × State
  | 0, ps, s => (ps, s)
  | _, [], s => ([], s)
  | n + 1, p :: rest, s =>
    if !p.rdy && upDone s p.stream (p.gen, p.frame) then
      let r := finalize p s
      let l := lossGoesOn p.stream r.2.1 rest r.2.2
      let t := readyQueue n l.1 l.2
      (r.1.toList ++ t.1, t.2)
    else
      let t := readyQueue n rest s
      (p :: t.1, t.2)

/-- Every packet that may now be completed is. -/
def markReady (s : State) : State :=
  forL (fun m s =>
    let r := readyQueue (stream s m).queue.length (stream s m).queue s
    modStream m (fun u => { u with queue := r.1 }) r.2) (heldStreams s) s

/-! ### Sealing (R310, R313, R316) -/

/-- The own packet of stream m for a frame being sealed. -/
def ownPacket (m : Nat) (f : OpenFrame) (s : State) : State :=
  let t := streamOwner s m
  let u := stream s m
  let kept := (u.recs.filter fun r => r.frame == f.no).filter (matched f s.sp.trigs t)
  let flags := f.flags ||| (if matchOn f.wins t then 0x800 else 0) ||| (if s.sp.lateTrig.contains t then 0x40 else 0) |||
    (if s.sp.trigLoss then 0x80 else 0) ||| (if s.sp.upBad then 0x200 else 0)
  let p : Packet :=
    { stream := m, frame := f.frame, no := f.no, gen := f.gen, epoch := f.epoch, digest := f.digest, flags := flags, loss := u.loss
      srcmap := if kept.isEmpty then 0 else 2 ^ chainPos s, recs := kept, key := keyIn f.keys t, resume := none
      hb := false, hbFlag := false, rdy := false, hold := !s.fr.running, readyLc := lc s + 8
      waitLc := lc s + rfld s .spChain 16 16 }
  setStream m { u with loss := 0, recs := u.recs.filter fun r => r.frame != f.no, queue := u.queue ++ [p] } s

/-- Waiting records of a frame whose stream is not enabled any more, or not their tenant's, are discarded (R306). -/
def dropDisabled (f : OpenFrame) (s : State) : State :=
  forL (fun m s =>
    let gone (r : SpRec) : Bool := r.frame == f.no && !(streamOn s m && streamOwner s m == r.tenant)
    let rs := (stream s m).recs.filter gone
    if rs.isEmpty then s
    else forL noStream rs (modStream m (fun u => { u with recs := u.recs.filter fun r => !gone r }) s))
    (heldStreams s) s

/-- A closed frame is sealed: final matching, the packets built (R310, R313). -/
def sealFrame (f : OpenFrame) (s : State) : State :=
  let s := dropDisabled f s
  let s := forL (fun m s => ownPacket m f s) ((streamNos s).filter (streamOn s)) s
  let now' := f.gen == s.sp.gen
  let s := { s with sp := { s.sp with
    frames := s.sp.frames.drop 1, sealedTo := if now' then some f.frame else s.sp.sealedTo
    sealedEnd := if now' then f.stop else s.sp.sealedEnd, lateTrig := [], trigLoss := false
    upBad := false, ends := if isTail s then s.sp.ends else s.sp.ends ++ [(f.no, f.frame)] } }
  xoffs (markReady (pruneTrigs s))

/-- FRAME_SEAL: HOLD lane cycles after the oldest open frame closed it is sealed. -/
def frameSeal (s : State) : State :=
  match s.sp.frames with
  | f :: _ =>
    match f.closed with
    | some n => sealFrame f (toLc (n + rfld s .spCfg 16 16) s)
    | none => s
  | [] => s

def execFrameSeal (s : State) : Res := .next (when s.released frameSeal s)

/-! ### Removal of a tenant (R380) -/

/-- Stream m of a tenant that leaves is empty: its replay copies go and it is disabled. -/
def emptyLeaving (t : Nat) (s : State) : State :=
  forL (fun m s =>
    let u := stream s m
    if streamOn s m && streamOwner s m == t && u.recs.isEmpty && u.queue.isEmpty && u.replays.isEmpty then
      setRfld (.spSCfg m) 31 1 0 (setStream m Stream.reset s)
    else s) (streamNos s) s

/-- The removals under way whose clearing and streams are done complete: the tenants become ABSENT. -/
def finishRemovals (s : State) : State :=
  forL (fun t s =>
    match (tenant s t).leaving with
    | none => s
    | some f =>
      let open? := s.sp.frames.any fun o => o.no < f
      let s := if open? then s else emptyLeaving t s
      if !open? && !(s.tn.clearing.any fun k => k.owner == t) && !(streamNos s).any (fun m => streamOn s m && streamOwner s m == t) then
        raise .tnEvents 5 (modTenant t (fun u => { Tenant.reset with sel := u.sel, afail := u.afail, replays := u.replays }) s)
      else s) (tenantNos s) s

/-! ### Output (R332, R333) -/

/-- The next item of stream m that port p could send from lane cycle n: a replay, or the head of its queue. None is sent
while absolute time is frozen (R60, R312). -/
def headReady (s : State) (m n : Nat) : Bool :=
  let u := stream s m
  s.fr.running && (!u.replays.isEmpty || match u.queue with
    | q :: _ => q.rdy && !q.hold && decide (q.readyLc ≤ n)
    | [] => false)

/-- The lane cycle from which stream m has an item ready. -/
def headLc (s : State) (m : Nat) : Option Nat :=
  let u := stream s m
  if !s.fr.running then none
  else if !u.replays.isEmpty then some 0
  else match u.queue with
    | q :: _ => if q.rdy && !q.hold then some q.readyLc else none
    | [] => none

/-- The length of the next item of stream m. -/
def headLen (s : State) (m : Nat) : Nat :=
  let u := stream s m
  match u.replays, u.queue with
  | r :: _, _ => r.words.length
  | [], q :: _ => itemLen s q
  | [], [] => 0

/-- Deficit round-robin over the ready streams in turn: the stream that sends next, with the deficits on the way (R333). -/
def drr : Nat → List Nat → List Nat → State → Option Nat × State
  | 0, _, _, s => (none, s)
  | f + 1, all, [], s => drr f all all s
  | f + 1, all, m :: rest, s =>
    let d := (stream s m).deficit + rfld s (.spSQuota m) 20 12
    let n := headLen s m
    if n ≤ d then (some m, modStream m (fun u => { u with deficit := d - n }) s)
    else drr f all rest (modStream m (fun u => { u with deficit := d }) s)

/-- The streams of port p that have something ready by lane cycle n, in turn after the one last served. -/
def readyStreams (s : State) (p n : Nat) : List Nat :=
  let all := (heldStreams s).filter fun m => portOf s m == p && headReady s m n
  let last := tget 0 p s.sp.last
  let after := all.filter fun m => last < m
  after ++ all.filter fun m => m ≤ last

/-- A stream with nothing ready has a deficit of 0. -/
def settleDeficit (m n : Nat) (s : State) : State :=
  if headReady s m n then s else modStream m (fun u => { u with deficit := 0 }) s

/-- Item q of stream m starts: its frame, its RESUME, and the frames decided without a packet up to it. -/
def itemStarts (q : Packet) (u : Stream) : Stream :=
  let v := { u with lastSent := some (q.gen, q.frame), ended := u.ended.filter fun e => q.no < e.no, resuming := q.resume }
  if q.resume.isSome then { v with undeliv := none, promised := false } else v

/-- The next item of stream m starts on port p in lane cycle n. -/
def sendItem (p m n : Nat) (s : State) : State :=
  let u := stream s m
  let s := match u.replays, u.queue with
    | r :: rest, _ => sendFrame p n (.packet m r.frame) r.words (setStream m { u with replays := rest, resuming := none } s)
    | [], q :: rest =>
      let s' := setStream m (itemStarts q { u with queue := rest }) s
      if q.hb then sendFrame p n .item [heartbeat { q with loss := u.loss }] s'
      else
        let ws := bodyWords s q
        let s' := toWindow m { frame := q.frame, words := ws } s'
        sendFrame p n (.packet m q.frame) (sealWords s m q.key ws) s'
    | [], [] => s
  let s := { s with sp := { s.sp with last := tset 0 p m s.sp.last } }
  finishRemovals (xoffs (settleDeficit m n s))

/-- The frame whose frame-end word may leave: the oldest, once no packet of it waits (R322). -/
def endReady (s : State) : Option Nat :=
  match s.sp.ends with
  | k :: _ => if (heldStreams s).any (fun m => (stream s m).queue.any fun q => q.no ≤ k.1) then none else some k.2
  | [] => none

/-- The frame-end word (Table 11-7). -/
def frameEndWord (s : State) (k : Nat) : W64 := at64 0xFC 56 ||| at64 (chainPos s) 52 ||| at64 k 0

/-- PACKET_SEND: port p sends the rest of an item cut by a pause, a frame-end word that may leave, or the next item in
turn. -/
def packetSend (p : Nat) (s : State) : State :=
  let u := port s p
  if !u.rest.isEmpty then
    match u.sending with
    | some w => let n := startLc s p; sendFrame p n w.1 u.rest (toLc n s)
    | none => s
  else
    let t := startLc s p
    let s := xoffs s
    match (if p = 3 then endReady s else none) with
    | some k => sendFrame 3 t .item [frameEndWord s k] (toLc t { s with sp := { s.sp with ends := s.sp.ends.drop 1 } })
    | none =>
      match ((heldStreams s).filter fun m => portOf s m == p).filterMap (headLc s) with
      | a :: as =>
        let n := slotFrom p (max t (as.foldl min a))
        let s := toLc n s
        let ms := readyStreams s p n
        match drr (65536 * (ms.length + 1)) ms ms s with
        | (some m, s') => sendItem p m n s'
        | (none, _) => s
      | [] => s

/-- Port p may send packets (R332, R339, R391, R394). -/
def maySend (s : State) (p : Nat) : Bool :=
  !silent s && rbit s (.ptCfg p) 0 && if p = 3 then !isTail s && !s.sp.xoffIn
  else isTail s && (port s p).up && (port s p).pausedTo.isNone

def execPacketSend (p : Nat) (s : State) : Res :=
  onUnit (p = 0 ∨ p = 1 ∨ p = 3) (when (s.released && maySend s p) (packetSend p) s)

/-! ### Items under way (R391, R395, R405) -/

/-- The item that port p is sending is not wholly sent by the present lane cycle. -/
def underWay (s : State) (p : Nat) : Bool :=
  let u := port s p
  match u.sending with
  | some (_, e) => decide (lc s < e) || !u.rest.isEmpty
  | none => false

/-- A packet that port p is sending ends at the next word boundary; the rest waits for a further frame (R391, R405). -/
def breakItem (p : Nat) (s : State) : State :=
  let u := port s p
  match u.sending with
  | some (.packet m f, e) =>
    if lc s < e then
      let left := (e - lc s + 1) / 2
      modPort p (fun u => { u with
        sending := some (.packet m f, lc s), rest := u.tx.drop (u.tx.length - left), txFree := lc s + 4 }) s
    else s
  | _ => s

/-- The level of CH_XOFF_IN acts: it stops and restarts sending on P3 downstream, and the tail ignores it (R339, R405). -/
def xoffInActs (s : State) : State :=
  let stop := s.sp.xoffIn && !isTail s
  let s := if stop then breakItem 3 s else s
  { s with sp := { s.sp with sendStop := stop } }

/-- CH_XOFF_IN: the pin takes a level (R339). -/
def chXoffIn (level : Bool) (s : State) : State := xoffInActs { s with sp := { s.sp with xoffIn := level } }

def execChXoffIn (level : Bool) (s : State) : Res := .next (when s.released (chXoffIn level) s)

/-! ### Upstream (R323-R325, R390) -/

/-- The number of words of a record, from its first word. -/
def recSize (w : W64) : Nat :=
  match fld w 60 4 with
  | 3 => if fld w 58 1 = 1 then 2 else 1
  | 4 => 5
  | 7 => 2
  | 8 => 2
  | _ => 1

/-- The records of an upstream packet, each with the chain position of the source word before it. -/
def parseRecs (frame : Nat) : Nat → Nat → List W64 → List SpRec
  | 0, _, _ => []
  | _, _, [] => []
  | f + 1, pos, w :: rest =>
    if fld w 56 8 = 0xF4 then parseRecs frame f (fld w 52 4) rest
    else
      let n := recSize w
      { tenant := 0, stream := none, frame := frame, words := (w :: rest).take n, pos := pos } ::
        parseRecs frame f pos ((w :: rest).drop n)

/-- The upstream packet of words. -/
def parsePacket (ws : List W64) : UpPacket :=
  let g (i : Nat) : W64 := ws.getD i 0
  let n := ws.length
  let frame := fld (g 1) 0 48
  let recs := (ws.drop 4).take (n - 6)
  { stream := fld (g 0) 42 10, frame := frame, gen := 0, epoch := lo32 (g 2), flags := fld (g 2) 32 24, loss := fld (g (n - 2)) 0 32
    srcmap := fld (g 3) 32 16, recs := parseRecs frame recs.length (fld (g 0) 52 4) recs, hb := false, hbFlag := false }

/-- An upstream heartbeat, as an empty packet. -/
def parseBeat (w : W64) : UpPacket :=
  { stream := fld w 50 10, frame := fld w 0 48, gen := 0, epoch := 0, flags := 0, loss := 0, srcmap := 0, recs := [], hb := true
    hbFlag := fld w 48 1 == 1 }

/-- The CRC word of a packet holds. -/
def crcOk (ws : List W64) : Bool :=
  fld (ws.getLastD 0) 56 8 == 0xFF && lo32 (ws.getLastD 0) == crc32c (wordsBytes ws.dropLast)

/-- The packet of stream m for frame f, or one after it, has been started (R324). -/
def decided (s : State) (m : Nat) (f : Nat × Nat) : Bool := (stream s m).lastSent.any (notAfter f)

/-- A queue, in order of frames, with a packet at its place. -/
def insertPacket (p : Packet) : List Packet → List Packet
  | [] => [p]
  | q :: l => if p.no < q.no then p :: q :: l else q :: insertPacket p l

/-- A stream with nothing ready has a deficit of 0 (R333). -/
def noneReady (u : Stream) : Stream :=
  if u.replays.isEmpty && !(u.queue.head?.any (·.rdy)) then { u with deficit := 0 } else u

/-- A complete packet or heartbeat of stream m for frame f that has not been started is completed anew, with the upstream
part that has arrived meanwhile, and a frame decided without a packet gets one (R324, R325); what a heartbeat left to the next
packet is its own again (R337). -/
def reopen (m : Nat) (f : Nat × Nat) (s : State) : State :=
  modStream m (fun u =>
    let mine (q : Packet) : Bool := q.gen == f.1 && q.frame == f.2
    let back := u.queue.any fun q => mine q && q.rdy && q.hb
    let again := u.ended.filter mine
    let queue := u.queue.map fun q =>
      if mine q && q.rdy then { q with rdy := false, hb := false, loss := if q.hb then u.loss else q.loss } else q
    noneReady { u with
      loss := if back then 0 else u.loss, queue := again.foldr insertPacket queue, ended := u.ended.filter fun q => !mine q }) s

/-- Every packet of the next frame this device sends carries UP_BAD: of the oldest frame waiting of which nothing has been
started, else of the next frame sealed (R324). -/
def markUpBad (s : State) : State :=
  let fs := (heldStreams s).flatMap fun m => (stream s m).queue.map fun q => (q.no, q.gen, q.frame)
  let begun (f : Nat × Nat) : Bool := (heldStreams s).any fun m => (stream s m).lastSent.any (notAfter f)
  match (fs.filter fun f => !begun f.2).map (·.1) with
  | [] => { s with sp := { s.sp with upBad := true } }
  | a :: as =>
    let f := as.foldl min a
    forL (modStream · (fun u => { u with queue := u.queue.map fun q =>
      if q.no == f then { q with flags := q.flags ||| 0x200 } else q })) (heldStreams s) s

/-- An upstream packet or heartbeat is taken, or discarded (R324). -/
def takeUp (p : UpPacket) (s : State) : State :=
  let drop (lost : Bool) (s : State) : State :=
    let s := raise .spEvents 5 (count .spChdropCnt s)
    if lost then loseN p.stream p.recs.length s else s
  if !streamOn s p.stream then drop false s
  else
    let g := genOf s p.frame
    let s := modStream p.stream (fun u => { u with lastUp := laterOf u.lastUp (g, p.frame) }) s
    if decided s p.stream (g, p.frame) then (if p.hb then s else drop true s)
    else if 256 * rfld s .spChin 0 11 < chinUsed s + recsLen p.recs + 6 then drop true s
    else if p.hb && ((stream s p.stream).ended.any fun q => q.gen == g && q.frame == p.frame) then s
    else reopen p.stream (g, p.frame) { s with sp := { s.sp with up := s.sp.up ++ [{ p with gen := g }] } }

/-- A whole upstream item: a packet, a heartbeat or a frame-end word. -/
def upItem (ws : List W64) (s : State) : State :=
  let w := ws.headD 0
  let s :=
    if fld w 60 4 = 0xE then takeUp (parseBeat w) s
    else if fld w 56 8 = 0xFC then
      { s with sp := { s.sp with upEnd := laterOf s.sp.upEnd (genOf s (fld w 0 48), fld w 0 48) } }
    else if crcOk ws then takeUp (parsePacket ws) s
    else raise .spEvents 4 (count .spChbadCnt (markUpBad s))
  xoffs (markReady s)

/-- UPSTREAM_PACKET: a PACKET frame arrives on the P3 upstream input; parts are joined (R389, R390). -/
def upstreamPacket (f : LinkFrame) (s : State) : State :=
  if !linkOk 3 f then malformed 3 f (modPort 3 (fun u => { u with part := none }) s)
  else
    let s := takeLseq 3 f s
    let more := f.flags % 2 == 1
    let cont := f.flags / 2 % 2 == 1
    match (port s 3).part, cont with
    | none, false => if more then modPort 3 (fun u => { u with part := some f.body }) s else upItem f.body s
    | some a, true =>
      if more then modPort 3 (fun u => { u with part := some (a ++ f.body) }) s
      else upItem (a ++ f.body) (modPort 3 (fun u => { u with part := none }) s)
    | _, _ => malformed 3 f (modPort 3 (fun u => { u with part := none }) s)

def execUpstreamPacket (frame : LinkFrame) (s : State) : Res :=
  .next (when (s.released && chainPos s != 0 && (port s 3).up && !(linkOk 3 frame && frame.kind != 3)) (upstreamPacket frame) s)

/-- UPSTREAM_WAIT_TIMEOUT: the earliest wait for an upstream part ends (R323). -/
def upstreamWait (s : State) : State :=
  match ((heldStreams s).flatMap fun m => (stream s m).queue.filter fun q => !q.rdy).map fun q => (q.waitLc, q.gen, q.frame) with
  | [] => s
  | a :: as =>
    let e := as.foldl (fun x y => if y.1 < x.1 then y else x) a
    let s := toLc e.1 s
    xoffs (markReady (raise .spEvents 3 { s with sp := { s.sp with missed := s.sp.missed ++ [e.2] } }))

def execUpstreamWaitTimeout (s : State) : Res := .next (when s.released upstreamWait s)

end Sys2Proof.Machine
end

