-- ==== Sys2Proof/Machine/Events.lean ====
section
/-! DEFINITION. Event routing (12_milkline_events.md): channels and groups, their enables, consumers, and the paths of events
through the Milkline and the cluster channels. Channels are numbered as in `Ev`: 0-255 Milkline, 256 + 32c + i channel i
of cluster c; groups are 2048 + g. -/
namespace Sys2Proof.Machine

def modEv (f : Ev → Ev) (s : State) : State := { s with ev := f s.ev }

/-! ### Channels and enables (R346, R347) -/

def ctlReg (ch : Nat) : Reg := if ch < 256 then .evMcCtl ch else .clCcCtl ((ch - 256) / 32) ((ch - 256) % 32)
def passReg (ch : Nat) : Reg := if ch < 256 then .evMcCnt ch else .clCcCnt ((ch - 256) / 32) ((ch - 256) % 32)
def dropReg (ch : Nat) : Reg := if ch < 256 then .evMcDis ch else .clCcDis ((ch - 256) / 32) ((ch - 256) % 32)

/-- The register that holds the EN of an object: a channel's CTL or a group's CFG. -/
def enReg (obj : Nat) : Reg := if 2048 ≤ obj then .evGrpCfg (obj - 2048) else ctlReg obj

/-- A channel passes events (R346). -/
def passes (s : State) (ch : Nat) : Bool :=
  let w := reg s (ctlReg ch)
  fld w 31 1 == 1 && (fld w 15 1 == 0 || rbit s (.evGrpCfg (fld w 8 6)) 31)

/-- An object becomes enabled or disabled. -/
def setEnable (obj : Nat) (on : Bool) (s : State) : State := setRfld (enReg obj) 31 1 (b2n on) s

/-- Requests that take effect together: one object's disabling wins (R347). -/
def applyEnables (l : List EnReq) (s : State) : State :=
  forL (fun r => setEnable r.obj (l.all fun q => q.obj != r.obj || q.on)) l s

/-- The requests due first, at lane cycle `n` or before. -/
def firstDue (s : State) (n : Nat) : Option Nat :=
  match (s.ev.reqs.map (·.due)).filter (· ≤ n) with
  | [] => none
  | a :: l => some (l.foldl min a)

/-- The enable requests due by lane cycle n take effect, in the order of their edges. -/
def enablesDue (n : Nat) : Nat → State → State
  | 0, s => s
  | f + 1, s =>
    match firstDue s n with
    | none => s
    | some d =>
      let go := s.ev.reqs.filter (·.due == d)
      enablesDue n f (applyEnables go (modEv (fun e => { e with reqs := e.reqs.filter (·.due != d) }) s))

/-- ENABLE_CHANGE: the earliest requests take effect. -/
def enableChange (s : State) : State :=
  match s.ev.reqs.map (·.due) with
  | [] => s
  | a :: l => let d := l.foldl min a; enablesDue d 1 (toLc d s)

def execEnableChange (s : State) : Res := .next (when s.released enableChange s)

/-! ### Sources of lane consumers (R348, R350) -/

/-- Lane n of cluster c loses a held event of a consumer whose source changes (R350). -/
def dropHeld (c n : Nat) (a b : Bool) (s : State) : State :=
  if c < 16 then s
  else
    let k := 16 * (c - 16) + n
    let s := if a then modStamp k (fun l => { l with held := false }) s else s
    if b then modMeas k (fun m => { m with held := false }) s else s

/-- The sources of a CL_LEVn change other than by a write: a changed one loses its held event. -/
def levSet (addr : Nat) (v : W32) (s : State) : State :=
  let c := (addr - 0x1000000) / 0x100000
  let n := (addr % 0x100000 - 0x800) / 4
  let old := reg s (.clLev c n)
  let differ (lo w : Nat) : Bool := fld old lo w != fld v lo w
  dropHeld c n (differ 31 1 || differ 16 10) (differ 15 1 || differ 0 10) (setReg (.clLev c n) v s)

/-- A written CL_LEVn comes into force: both consumers lose a held event (R350). -/
def levWritten (addr : Nat) (v : W32) (s : State) : State :=
  let c := (addr - 0x1000000) / 0x100000
  let n := (addr % 0x100000 - 0x800) / 4
  dropHeld c n true true (setReg (.clLev c n) v s)

/-- The written sources due by lane cycle n come into force, in order of the writes. -/
def sourcesDue (n : Nat) (s : State) : State :=
  forL (fun p => levWritten p.2.1 p.2.2) (s.ev.pendW.filter fun p => decide (p.1 ≤ n))
    (modEv (fun e => { e with pendW := e.pendW.filter fun p => decide (n < p.1) }) s)

/-- A write of CL_LEVn in the present lane cycle: it acts two lane cycles later (R350); in pulse clusters APOL and BPOL read 0.
(log entry 43, DEDUCED) -/
def clLevApply (c n : Nat) (v : W32) (s : State) : State :=
  let w := v &&& (if c < 16 then 0x83FF83FF else 0xC3FFC3FF)
  modEv (fun e => { e with pendW := e.pendW ++ [(lc s + 2, regAddr (.clLev c n), w)] }) s

/-- A new EV_ADC_SEL: a held event goes (R350). (log entry 43, DEDUCED) -/
def adcSelSet (v : W32) (s : State) : State :=
  setReg .evAdcSel (v &&& 0xC00000FF) (modAd (fun a => { a with evHeld := false }) s)

/-- The lane consumers that name a source: cluster, lane, whether source A names it, whether B does. -/
def levsOn (s : State) (name : Nat) : List (Nat × Nat × Bool × Bool) :=
  s.regs.filterMap fun e =>
    if 0x1000000 ≤ e.1 && e.1 < 0x3000000 && 0x800 ≤ e.1 % 0x100000 && e.1 % 0x100000 < 0x840 then
      let a := fld e.2 31 1 == 1 && fld e.2 16 10 == name
      let b := fld e.2 15 1 == 1 && fld e.2 0 10 == name
      if a || b then some ((e.1 - 0x1000000) / 0x100000, (e.1 % 0x100000 - 0x800) / 4, a, b) else none
    else none

/-! ### Lane consumers (R118, R145, R174, R175, R349, R350, R491) -/

/-- A lane consumer of cluster c overruns: bit b of CL_LOVR (R349). -/
def laneOverrun (c b : Nat) (s : State) : State := raise (.clLovr c) b (count (.clLovrCnt c) s)

/-- A capture-enable event at run time t on stamp lane k (R145). -/
def captureEvent (c n t : Nat) (s : State) : State :=
  let k := 16 * (c - 16) + n
  let s := match (stamp s k).window with
    | some e => if e ≤ t then closeWindow k e s else s
    | none => s
  let l := stamp s k
  if !cfgBit l 7 then s
  else if !l.windowOpen then openWindow k t s
  else if rbit s (.clLev c n) 30 && !l.held then setStamp k { l with held := true } s
  else laneOverrun c n s

/-- A frequency-gate event that takes effect in lane cycle e on stamp lane k (R174, R175). -/
def gateEvent (c n e : Nat) (s : State) : State :=
  let k := 16 * (c - 16) + n
  let m := meas s k
  if m.state = .waitEvent then setMeas k { m with state := .waitTick, waitFrom := e + 1 } s
  else if m.mode = 1 && m.state != .idle then
    if rbit s (.clLev c n) 14 && !m.held then setMeas k { m with held := true } s else laneOverrun c (16 + n) s
  else s

/-- An event acts at run time t on the lane gates and capture enables of its source, as the sources stand in the lane cycle of
t (R350). A cluster held for logic BIST ignores what would open or start (R491); one out of service ignores all. -/
def fastConsumers (name : Nat) (only : Option Nat) (t : Nat) (s : State) : State :=
  let s := sourcesDue (t / 16384) s
  forL (fun (p : Nat × Nat × Bool × Bool) s =>
    let (c, n, a, b) := p
    let idle := (held s c).isSome || outOfService s c
    if only.any (· != c) then s
    else if c < 16 then
      let k := 16 * c + n
      let s := if a && !b && !idle then gateRequest k t true s else s
      if b && !outOfService s c then gateRequest k t false s else s
    else if a && !idle then captureEvent c n t s else s) (levsOn s name) s

/-- An event acts in lane cycle e on the frequency gates of its source, as the sources stand in it (R350, R491). -/
def gateConsumers (name : Nat) (only : Option Nat) (e : Nat) (s : State) : State :=
  let s := sourcesDue e s
  forL (fun (p : Nat × Nat × Bool × Bool) s =>
    let (c, n, _, b) := p
    if only.any (· != c) || c < 16 || !b || (held s c).isSome || outOfService s c then s else gateEvent c n e s) (levsOn s name) s

/-- An event on a name reaches the WAIT consumers of cluster c in lane cycle n (R268). -/
def waitConsumers (c name n : Nat) (s : State) : State :=
  if outOfService s c then s
  else forL (fun x => waitEvent x n { time := absAt s n, code := none }) (attached s c name) s

/-! ### Events on channels (R344-R346) -/

/-- The oldest event under way on a channel is taken: its lane cycle. On keeper channels the edge of the latest event is kept
instead (R344). -/
def takeEvent (ch : Nat) (s : State) : Option Nat × State :=
  match s.ev.asserted.find? (·.2 == ch) with
  | none => (none, s)
  | some p => (some p.1, modEv (fun e => { e with
      asserted := e.asserted.erase p
      lastEv := if 248 ≤ ch && ch < 256 then e.lastEv else tset 0 ch (p.1 + 1) e.lastEv }) s)

/-- An event begins on a channel in lane cycle m: it passes and is counted, or is dropped and counted (R346). Keeper
channels counted at the keeper edge. -/
def admitEvent (ch m : Nat) (s : State) : Bool × State :=
  let s := sourcesDue m (enablesDue m s.ev.reqs.length (toLc m s))
  if 248 ≤ ch && ch < 256 then (true, s)
  else if passes s ch then (true, count (passReg ch) s)
  else (false, count (dropReg ch) s)

/-- CLUSTER_CHANNEL_EVENT: the oldest event of channel n of cluster c. -/
def clusterEvent (c n : Nat) (s : State) : State :=
  let ch := 256 + 32 * c + n
  match takeEvent ch s with
  | (none, s) => s
  | (some m, s) =>
    match admitEvent ch m s with
    | (false, s) => s
    | (true, s) => fastConsumers n (some c) ((m + 1) * 16384) (gateConsumers n (some c) m (waitConsumers c n m s))

def execClusterChannelEvent (c n : Nat) (s : State) : Res :=
  onUnit (c < 32 && n < 32) (when s.released (clusterEvent c n) s)

/-- The groups whose ON, or OFF, names channel n. -/
def groupsOn (s : State) (lo n : Nat) : List Nat :=
  (List.range 64).filter fun g => rbit s (.evGrpCfg g) (lo + 8) && rfld s (.evGrpCfg g) lo 8 == n

/-- The Separator's trigger inputs that channel n feeds. -/
def trigInputs (s : State) (n : Nat) : List Nat :=
  (List.range 16).filter fun i => rbit s (.spTev i) 31 && rfld s (.spTev i) 0 8 == n

/-- A Milkline event acts at the lane-clock consumers in lane cycle e (R345). (log entry 42, DEDUCED) -/
def milkActs (n e : Nat) (s : State) : State :=
  let s := forL (fun g => enableRequest e (2048 + g) true) (groupsOn s 16 n) s
  let s := forL (fun g => enableRequest e (2048 + g) false) (groupsOn s 0 n) s
  let s := signal { lc := e, clusLc := e, code := 0xC * 256 + n, only := none } s
  let s := forN 32 (fun c => waitConsumers c (0x100 + n) e) s
  let s := if rbit s .evAdcSel 31 && rfld s .evAdcSel 0 8 == n then adcEvent e s else s
  forL (fun i => enterTrig
    { done := false, time := absAt s e, src := 1, code := 0, tenant := 0, input := i, chan := n }) (trigInputs s n) s

/-- MILKLINE_EVENT: the oldest event of channel n, which takes `delay` drops to its consumers' ports. Lane gates and capture
enables act at the first TS boundary after the arrival (R34; log entry 42, DEDUCED). -/
def milklineEvent (n delay : Nat) (s : State) : State :=
  match takeEvent n s with
  | (none, s) => s
  | (some m, s) =>
    match admitEvent n m s with
    | (false, s) => s
    | (true, s) =>
      let arr := m * 16384 + delay
      let e := arr / 16384 + 2
      let s := fastConsumers (0x100 + n) none ((arr / 1024 + 1) * 1024) s
      milkActs n e (gateConsumers (0x100 + n) none e (toLc e s))

def execMilklineEvent (n delay : Nat) (s : State) : Res :=
  onUnit (n < 256 && delay ≤ 61440) (when s.released (milklineEvent n delay) s)

end Sys2Proof.Machine
end

