-- ==== Sys2Proof/Machine/Keeper.lean ====
section
/-! DEFINITION. The Byre's keeper units (R455-R464): keeper clock, comparators, WAKE_IN, keeper timer, keeper channels, and the
wake logic. Times named kc are keeper-clock edges. -/
namespace Sys2Proof.Machine

def modBy (f : Byre → Byre) (s : State) : State := { s with byre := f s.byre }

/-- Time passes to keeper edge n. (log entry 60, DESIGN CHOICE) -/
def toKc (n : Nat) (s : State) : State := modBy (fun b => { b with kc := max b.kc n }) s

/-! ### The wake record and wakes (R462, R464) -/

/-- The latches of KCMP0-KCMP7 (Table 16-4). -/
def klatch (s : State) : W32 := (List.range 8).foldl (fun w i => w ||| at32 (rfld s (.byKcLatch i) 0 4) (4 * i)) 0

/-- A word of the retention RAM. -/
def rramSet (i : Nat) (v : W32) (s : State) : State := modBy (fun b => { b with rram := tset 0 i v b.rram }) s
def rramGet (s : State) (i : Nat) : W32 := tget 0 i s.byre.rram

/-- CAUSE, CHMASK, KLATCH and SLEPT are written (R464). -/
def writeCause (cause mask : Nat) (latches : W32) (slept : Nat) (s : State) : State :=
  rramSet 4 (BitVec.ofNat 32 (slept / 2 ^ 32)) (rramSet 3 (BitVec.ofNat 32 slept) (rramSet 2 latches
    (rramSet 1 (at32 cause 28 ||| at32 mask 8) s)))

/-- A power-up begins at the present edge for a cause of Table 16-5 (R450). -/
def powerUp (cause : Nat) (s : State) : State :=
  modBy (fun b => { b with state := .powerup, cause := cause, pwren := 0, stepAt := b.kc, downFor := none, restartAt := none }) s

/-- A wake event in SLEEP (R462, R464). -/
def wakeEvent (cause mask : Nat) (s : State) : State :=
  let s := raiseBy .byEvents 0 (powerUp cause (writeCause cause mask (klatch s) (s.byre.kc - s.byre.sleptAt) s))
  modBy (fun b => { b with wokeAt := some b.kc }) s

/-- A request of rank r in the order of R475 comes at an edge at which one before it in that order has come. -/
def outranked (s : State) (r : Nat) : Bool := s.byre.decided.1 == s.byre.kc && decide (s.byre.decided.2 < r)

/-- A request of rank r in the order of R475 reaches the Byre at the present edge: of those of one edge the first in that order
decides, and it ignores the ones that come after it (R475). -/
def request (r : Nat) (f : State → State) (s : State) : State :=
  if outranked s r then s else f (modBy (fun b => { b with decided := (b.kc, r) }) s)

/-- The keeper channels on which an event has passed at the present edge. -/
def passedNow (s : State) : Nat := if s.byre.passed.1 == s.byre.kc then s.byre.passed.2 else 0

/-- A wake, as the state of the Byre takes it: at once in SLEEP, held in DRAIN and POWERDOWN (R462). -/
def wakeTaken (cause : Nat) (s : State) : State :=
  match s.byre.state with
  | .sleep => wakeEvent cause (passedNow s) s
  | .drain | .powerdown =>
    modBy (fun b => { b with wpend := match b.wpend with
      | some w => some (if w.edge = b.kc then { w with mask := passedNow s } else w)
      | none => some { cause := cause, mask := passedNow s, edge := b.kc } }) s
  | _ => s

/-- Events that pass and latches that are set at the edge of a wake event belong to its record, whatever their order (R464). -/
def wakeJoin (s : State) : State :=
  if s.byre.wokeAt = some s.byre.kc && (s.byre.cause == 6 || s.byre.cause == 7) then
    rramSet 2 (klatch s) (rramSet 1 (setFld (rramGet s 1) 8 8 (fld (rramGet s 1) 8 8 ||| passedNow s)) s)
  else s

/-! ### Keeper channels (R344, R346, R352) -/

/-- An event begins on keeper channel ch at the present edge: it passes or is dropped; whether it passed. -/
def keeperEvent (ch : Nat) (s : State) : Bool × State :=
  let kc := s.byre.kc
  if tget 0 ch s.ev.lastEv == kc + 1 then (false, s)
  else
    let s := modEv (fun e => { e with lastEv := tset 0 ch (kc + 1) e.lastEv }) s
    if passes s ch then
      let s := count (passReg ch) s
      (true, if s.released then modEv (fun e => { e with asserted := e.asserted ++ [(lc s, ch)] }) s else s)
    else (false, count (dropReg ch) s)

/-- Events on several keeper channels: the mask of those that passed. -/
def keeperEvents : List Nat → Nat → State → Nat × State
  | [], m, s => (m, s)
  | ch :: t, m, s =>
    let r := keeperEvent ch s
    keeperEvents t (if r.1 then m + 2 ^ (ch - 248) else m) r.2

/-- A keeper producer asserts at the present edge: its channels' events, under the enables of that edge (R346), and
the wake (R462). -/
def keeperProduce (kind idx : Nat) (s : State) : State :=
  let s := if s.released then enablesDue (lc s) s.ev.reqs.length s else s
  let r := keeperEvents ((channelsOf s (kind * 256 + idx)).eraseDups.filter fun ch => decide (248 ≤ ch) && decide (ch < 256)) 0 s
  let s := modBy (fun b => { b with passed := (b.kc, passedNow s ||| r.1) }) r.2
  wakeJoin (if BitVec.ofNat 32 r.1 &&& reg s .byWake &&& 0xFF = 0 then s else request 6 (wakeTaken 6) s)

/-! ### Keeper comparators (R457-R459) -/

def kcomp (s : State) (i : Nat) : KComp := tget KComp.reset i s.byre.comps
def setKcomp (i : Nat) (k : KComp) (s : State) : State := modBy (fun b => { b with comps := tset KComp.reset i k b.comps }) s

/-- Blanking is in force on the comparator at edge n. -/
def kcBlanked (k : KComp) (n : Nat) : Bool := decide (k.blankFrom < n) && decide (n < k.blankTo)

/-- A change of S sampled at edge n is not reported: blanking is in force, or ends at n, where S is adopted (R143, R458,
R459). -/
def kcHidden (k : KComp) (n : Nat) : Bool := decide (k.blankFrom < n) && decide (n ≤ k.blankTo)

/-- The first edge from n on at which the armed comparators are sampled: every edge while the switched rails are up, otherwise
one in 32 (R458; log entry 60, DESIGN CHOICE). -/
def sampleEdge (s : State) (n : Nat) : Nat :=
  match s.byre.state with
  | .sleep | .powerup | .powerdown => (n + 31) / 32 * 32
  | _ => n

/-- Comparator i is blanked from edge n for len keeper cycles. -/
def kcBlank (i n len : Nat) (s : State) : State :=
  let k := kcomp s i
  if len = 0 then s
  else setKcomp i { k with blankFrom := if n < k.blankTo then k.blankFrom else n, blankTo := max k.blankTo (n + len) } s

/-- KEEPER_CROSSING: comparator A or B of KCMPi is sampled in a new state at edge n. -/
def keeperCrossing (i : Nat) (cmpB level : Bool) (n : Nat) (s : State) : State :=
  let s := toKc n s
  let k := kcomp s i
  let k := if cmpB then { k with sB := level } else { k with sA := level }
  if kcHidden k s.byre.kc then setKcomp i k s
  else
    let bit := (if cmpB then 2 else 0) + (if level then 0 else 1)
    let k := if cmpB then { k with repB := level } else { k with repA := level }
    let s := raiseBy (.byKcLatch i) bit (setKcomp i k s)
    if rbit s (.byKcCfg i) bit then keeperProduce 9 i (kcBlank i s.byre.kc (rfld s (.byKcBlnk i) 16 8) s) else wakeJoin s

/-- The state that changes. -/
def kcState (k : KComp) (cmpB : Bool) : Bool := if cmpB then k.sB else k.sA

/-- A setting written to BY_KCi_THR becomes pending (R459). -/
def kcThrApply (i : Nat) (v : W32) (s : State) : State :=
  let s := writeRw (.byKcThr i) v s
  setKcomp i { kcomp s i with pend := true } s

/-- S is 0 in every comparator whose threshold or hysteresis changes. -/
def kcThrClear (k : KComp) (w : W32) : Bool :=
  let h := fld w 24 2 != fld k.thr 24 2
  !((h || fld w 0 8 != fld k.thr 0 8) && k.sA) && !((h || fld w 16 8 != fld k.thr 16 8) && k.sB)

/-- KC_THR_APPLY: the pending setting applies at the next sampling edge, if it may (R459). -/
def kcThrTake (i : Nat) (s : State) : State :=
  let n := sampleEdge s (s.byre.kc + 1)
  let k := kcomp s i
  if k.pend && (kcBlanked k n || kcThrClear k (reg s (.byKcThr i))) then
    kcBlank i n 1 (setKcomp i { k with thr := reg s (.byKcThr i), pend := false } (toKc n s))
  else s

def execKcThrApply (i : Nat) (s : State) : Res := onUnit (i < 8) (kcThrTake i s)

/-! ### WAKE_IN and the keeper timer (R460, R461) -/

/-- WAKE_IN: a new level of WAKE_INn counts. -/
def wakeIn (n : Nat) (level : Bool) (s : State) : State :=
  let s := toKc (s.byre.kc + 1) (modBy (fun b => { b with win := setFld b.win n 1 (b2n level) }) s)
  if level != rbit s .byWake (8 + n) then keeperProduce 0xB n s else s

/-- The keeper timer's prescaler, and its present count. -/
def ktPre (s : State) : Nat := 2 ^ rfld s .byKtCfg 0 4
def ktCount (s : State) : Nat :=
  if rbit s .byKtCfg 31 then s.byre.ktLoad - (s.byre.kc - s.byre.ktAt) / ktPre s else s.byre.ktLoad

/-- The count is loaded at the present edge. -/
def ktSet (n : Nat) (s : State) : State := modBy (fun b => { b with ktLoad := n, ktAt := b.kc }) s

/-- A write of BY_KT_CFG: a change of EN from 0 to 1 loads the count. -/
def ktCfgApply (v : W32) (s : State) : State :=
  let on := rbit s .byKtCfg 31
  let n := ktCount s
  let s := writeRw .byKtCfg v s
  ktSet (if fld v 31 1 = 1 && !on then (reg s .byKtReload).toNat else n) s

/-- KEEPER_TIMER_EXPIRY: the count reaches 0. -/
def timerExpiry (s : State) : State :=
  let s := toKc (s.byre.ktAt + s.byre.ktLoad * ktPre s) s
  let s := forN 8 (fun i s =>
    let s := if rbit s (.byKcCfg i) 8 then setRfld (.byKcLatch i) 0 4 0 s else s
    kcBlank i s.byre.kc (rfld s (.byKcBlnk i) 0 8) s) s
  let s := if rbit s .byKtCfg 30 then ktSet (reg s .byKtReload).toNat s else ktSet 0 (setRfld .byKtCfg 31 1 0 s)
  keeperProduce 0xA 0 s

/-- Keeper latches with LCLR are cleared at a frame tick (R458). -/
def keeperTick (s : State) : State :=
  forN 8 (fun i s => if rbit s (.byKcCfg i) 7 then setRfld (.byKcLatch i) 0 4 0 s else s) s

/-! ### The keeper clock (R455, R456) -/

/-- The part is a -K part (Table 0-2). -/
def kPart (s : State) : Bool :=
  fld (tget (Config.otpWord (regAddr .idPart)) (regAddr .idPart) s.otp) 1 1 == 1

/-- A write of BY_CLK.SRC. -/
def clkSrcApply (on : Bool) (s : State) : State :=
  let s := setRfld .byClk 0 1 (b2n on) s
  modBy (fun b => if on then { b with xtry := b.xtry || !b.xk } else { b with xk := false, xok := false, xtry := false }) s

/-- CRYSTAL_SWITCH: 4,096 clean crystal cycles have passed. -/
def execCrystalSwitch (s : State) : Res :=
  .next (when (kPart s && s.byre.xtry) (modBy fun b => { b with xk := true, xok := true, xtry := false }) s)

/-- CRYSTAL_FAIL: no crystal edge within 4 RC cycles. -/
def crystalFail (s : State) : State :=
  raiseBy .byEvents 3 (modBy (fun b => { b with xk := false, xok := false, xtry := false, retryAt := b.kc + 32768 }) s)

def execCrystalFail (s : State) : Res := .next (when s.byre.xk crystalFail s)

/-- CRYSTAL_RETRY: 32,768 RC cycles after the failure the crystal is tried again. -/
def crystalRetry (s : State) : State :=
  modBy (fun b => { b with xtry := true, retryAt := b.kc + 32768 }) (toKc s.byre.retryAt s)

def execCrystalRetry (s : State) : Res :=
  .next (when (rbit s .byClk 0 && !s.byre.xk && !s.byre.xtry) crystalRetry s)

/-- KCLK_MEAS_UPDATE: the end of 1,024 keeper cycles in which n lane cycles passed. -/
def kclkUpdate (n : Nat) (s : State) : State :=
  setReg .byKclkMeas (at32 n 0) (toKc ((s.byre.kc / 1024 + 1) * 1024) s)

def execKclkMeasUpdate (lc : Nat) (s : State) : Res :=
  onUnit (lc < 2 ^ 24) (when (s.released && s.tb.ts == .locked) (kclkUpdate lc) s)

end Sys2Proof.Machine
end

