-- ==== Sys2Proof/Machine/Ports.lean ====
section
/-! DEFINITION. The ports P0, P1 and P3 as links (14_ports.md, R391-R396) and the TTC stream on P2 (R406-R410). -/
namespace Sys2Proof.Machine

/-- Lane cycles in n microseconds: 312.5 each. -/
def usLc (n : Nat) : Nat := n * 625 / 2

/-- PT_Pn_CFG.EN. -/
def portEn (s : State) (p : Nat) : Bool := rbit s (.ptCfg p) 0

/-! ### UP and DOWN (R393, R395, R396) -/

/-- A port receives: a device at chain position 0 ignores P3_UP_RX (R404). -/
def hears (s : State) (p : Nat) : Bool := p != 3 || chainPos s != 0

/-- The conditions under which the receive side of a port is UP (R393). -/
def upHolds (s : State) (p : Nat) : Bool :=
  let u := port s p
  hears s p && portEn s p && u.lock && !u.hiber && !u.lf && !u.rf && u.helloOk

/-- The item that P0 or P1 is sending is cut: what it is decides what becomes of it (R395, R396). Of an item that a pause
holds between its parts no frame is cut, and it is undelivered. -/
def cutItem (p : Nat) (s : State) : State :=
  if underWay s p then
    let what : Option Sending := (port s p).sending.map (·.1)
    let flying := (port s p).rest.isEmpty || (port s p).sending.any fun w => lc s < w.2
    let s := modPort p (fun u => { u with sending := none, rest := [], txFree := lc s + 2 }) s
    let cut (s : State) : State := if flying then raise (.ptEvents p) 3 (count (.ptAbortCnt p) s) else s
    match what with
    | some (.packet m f) => cutUndelivered m f (cut s)
    | some .item => cut s
    | some .response => cut s
    | _ => s
  else s

/-- The packets of port p that are ready and have not been started are kept undelivered; queued replays are dropped, since
the window still holds them (R335, R396). -/
def shelveReady (p : Nat) (s : State) : State :=
  forL (fun m s =>
    let u := stream s m
    let s := setStream m { u with replays := [], queue := u.queue.filter (fun q => !q.rdy), deficit := 0, promised := false } s
    forL shelve (u.queue.filter (·.rdy)) s) ((heldStreams s).filter fun m => portOf s m == p) s

/-- The receive side of port p goes DOWN (R395, R404). (log entry 49, DEDUCED) -/
def goDown (p : Nat) (s : State) : State :=
  let u := port s p
  let s := raise (.ptEvents p) 1 (count (.ptDownCnt p) (setPort p { u with up := false, part := none } s))
  if p = 3 then (if u.part.isSome then count (.ptDropCnt 3) s else s)
  else finishRemovals (xoffs (shelveReady p (cutItem p s)))

/-- The receive side of port p comes UP (R388, R394). (log entry 49, DEDUCED) -/
def goUp (p : Nat) (s : State) : State :=
  raise (.ptEvents p) 0 (modPort p (fun u => { u with up := true, linkup := (u.linkup + 1) % 65536, lseqTx := 0, lseqRx := 0 }) s)

/-- UP follows its conditions. -/
def followUp (p : Nat) (s : State) : State :=
  let now := upHolds s p
  if (port s p).up && !now then goDown p s else if !(port s p).up && now then goUp p s else s

/-- LINK_DOWN: a condition of UP is lost (R393). -/
def linkDown (p : Nat) (why : DownCause) (s : State) : State :=
  followUp p (modPort p (fun u => match why with
    | .blockLock => { u with lock := false, helloOk := false }
    | .highBer => { u with hiber := true }
    | .localFault => { u with lf := true }
    | .remoteFault => { u with rf := true }) s)

def execLinkDown (p : Nat) (why : DownCause) (s : State) : Res :=
  onUnit (p = 0 ∨ p = 1 ∨ p = 3) (when (s.released && hears s p) (linkDown p why) s)

/-- A frame of one word other than a Separator item or a response is sent: it may stand between the parts of an item (R390). -/
def sendAux (p n : Nat) (s : State) : State :=
  modPort p (fun u => { u with txFree := n + 8, lseqTx := (u.lseqTx + 1) % 2 ^ 24 }) s

/-- A HELLO is sent and the next one falls due (R394, R404). -/
def sendHello (p n : Nat) (s : State) : State :=
  modPort p (fun u => { u with helloDue := n + usLc (rfld s (.ptCfg p) 4 12) }) (sendAux p (slotFrom p (max n (port s p).txFree)) s)

/-- BLOCK_LOCK_GAINED: one HELLO at once (R394). -/
def blockLock (p : Nat) (s : State) : State :=
  let s := followUp p (modPort p (fun u => { u with lock := true, helloOk := false }) s)
  if p = 3 || !portEn s p || silent s then s else sendHello p (lc s) s

def execBlockLockGained (p : Nat) (s : State) : Res :=
  onUnit (p = 0 ∨ p = 1 ∨ p = 3) (when (s.released && hears s p && !(port s p).lock) (blockLock p) s)

/-- HIGH_BER_CLEARED (R386). -/
def execHighBerCleared (p : Nat) (s : State) : Res :=
  onUnit (p = 0 ∨ p = 1 ∨ p = 3) (when (s.released && hears s p && (port s p).hiber)
    (fun s => followUp p (modPort p (fun u => { u with hiber := false }) s)) s)

/-- FAULT_SET_WINDOW_END: 128 blocks without a fault ordered set (R393). -/
def execFaultSetWindowEnd (p : Nat) (s : State) : Res :=
  onUnit (p = 0 ∨ p = 1 ∨ p = 3) (when (s.released && hears s p && ((port s p).lf || (port s p).rf))
    (fun s => followUp p (modPort p (fun u => { u with lf := false, rf := false }) s)) s)

/-- HELLO_RECEIVED: a well-formed HELLO, or a malformed frame (R389, R393). -/
def helloReceived (p : Nat) (f : LinkFrame) (s : State) : State :=
  if !linkOk p f then malformed p f s
  else
    let s := takeLseq p f s
    let sess := hi32 (f.body.headD 0)
    let reset := sess != reg s (.ptPsess p)
    let s := if reset && (port s p).up then goDown p s else s
    let s := modPort p (fun u => { u with helloOk := true, helloAt := lc s }) s
    let s := followUp p s
    if reset then raise (.ptEvents p) 2 (setReg (.ptPsess p) sess s) else s

def execHelloReceived (p : Nat) (frame : LinkFrame) (s : State) : Res :=
  onUnit (p = 0 ∨ p = 1 ∨ p = 3) (when (s.released && hears s p && (port s p).lock && portEn s p && !(linkOk p frame && frame.kind != 5))
    (helloReceived p frame) s)

/-- HELLO_TIMEOUT: HTMO microseconds have passed since the last HELLO (R393). -/
def helloTimeout (p : Nat) (s : State) : State :=
  let s := toLc ((port s p).helloAt + usLc (rfld s (.ptCfg p) 16 16)) s
  followUp p (modPort p (fun u => { u with helloOk := false }) s)

def execHelloTimeout (p : Nat) (s : State) : Res :=
  onUnit (p = 0 ∨ p = 1 ∨ p = 3) (when (s.released && hears s p && (port s p).helloOk) (helloTimeout p) s)

/-- HELLO_SEND: the HELLO period expires (R394, R404). -/
def helloSend (p : Nat) (s : State) : State :=
  let n := max (lc s) (port s p).helloDue
  sendHello p n (toLc n s)

def execHelloSend (p : Nat) (s : State) : Res :=
  onUnit (p = 0 ∨ p = 1 ∨ p = 3) (when (s.released && !silent s && portEn s p && (p = 3 || (port s p).lock)) (helloSend p) s)

/-! ### Pauses (R391, R392) -/

/-- PAUSE_RECEIVED: the partner pauses P0 or P1, or ends its pause. -/
def pauseReceived (p quanta : Nat) (s : State) : State :=
  let s := modPort p (fun u => { u with lseqRx := (u.lseqRx + 1) % 2 ^ 24 }) s
  if quanta = 0 then modPort p (fun u => { u with pausedTo := none }) s
  else modPort p (fun u => { u with pausedTo := some (lc s + 64 * quanta) }) (breakItem p s)

def execPauseReceived (p quanta : Nat) (s : State) : Res :=
  onUnit (p < 2 ∧ quanta < 65536) (when (s.released && (port s p).up) (pauseReceived p quanta) s)

/-- PAUSE_END: the pause has run out. -/
def pauseEnd (p : Nat) (s : State) : State :=
  match (port s p).pausedTo with
  | some n => modPort p (fun u => { u with pausedTo := none }) (toLc n s)
  | none => s

def execPauseEnd (p : Nat) (s : State) : Res := onUnit (p < 2) (when s.released (pauseEnd p) s)

/-- The free bytes of a port's command buffer (R392): it holds the commands waiting and the one being executed. -/
def bufFree (s : State) (p : Nat) : Nat :=
  let u := port s p
  65536 - 8 * (lsum (u.buf.map (·.length)) + (match u.run with
    | some r => r.words.length
    | none => 0))

/-- PAUSE_SEND: the buffer's levels, or the repeat interval, call for a PAUSE (R392). -/
def pauseSend (p : Nat) (s : State) : State :=
  let u := port s p
  let free := bufFree s p
  if u.xoff then
    if 40960 ≤ free then sendAux p (startLc s p) (modPort p (fun u => { u with xoff := false }) s)
    else
      let s := toLc (u.xoffAt + 4096) s
      sendAux p (startLc s p) (modPort p (fun u => { u with xoffAt := lc s }) s)
  else if free < 24576 then sendAux p (startLc s p) (modPort p (fun u => { u with xoff := true, xoffAt := lc s }) s)
  else s

def execPauseSend (p : Nat) (s : State) : Res :=
  onUnit (p < 2) (when (s.released && !silent s && portEn s p && (port s p).lock) (pauseSend p) s)

/-! ### Responses (R397, R402) -/

/-- A port may send a response: UP, not paused, and not between the parts of an item (R390, R391, R394). -/
def mayRespond (s : State) (p : Nat) : Bool :=
  let u := port s p
  !silent s && portEn s p && u.up && u.pausedTo.isNone && u.rest.isEmpty

/-- RESPONSE_SEND: the oldest response built on a port is sent. -/
def responseSend (p : Nat) (s : State) : State :=
  match (port s p).resps with
  | ws :: rest =>
    let n := startLc s p
    sendFrame p n .response ws (modPort p (fun u => { u with resps := rest }) (toLc n s))
  | [] => s

/-- The port of a path. -/
def portNo : Path → Option Nat
  | .p0 => some 0
  | .p1 => some 1
  | _ => none

/-- On the MSPI a response is read by RSP, and no other path carries one (R413). -/
def execResponseSend (path : Path) (s : State) : Res :=
  match portNo path with
  | some p => .next (when (s.released && mayRespond s p) (responseSend p) s)
  | none => .next s

/-! ### P2, the TTC stream (R406-R410) -/

def modTtc (f : Ttc → Ttc) (s : State) : State := { s with ttc := f s.ttc }

/-- PT_TTC_CFG.EN and MGAP. -/
def ttcEn (s : State) : Bool := rbit s .ptTtcCfg 0
def ttcGap (s : State) : Nat := rfld s .ptTtcCfg 4 12

/-- The stream is aligned (R409). -/
def ttcAligned (s : State) : Bool := ttcEn s && s.ttc.lock && s.ttc.matched && decide (s.ttc.ticks < ttcGap s)

/-- The flag NO_TRIGGER_LINK of the frame in progress (Table 11-8). -/
def noLink (s : State) : State := { s with fr := { s.fr with flags := s.fr.flags ||| 8 } }

/-- A change of the TTC receiver; a change from aligned to not aligned sets ALIGN_LOST and the frame's flag (R409). -/
def ttcChange (f : State → State) (s : State) : State :=
  let was := ttcAligned s
  let s := f s
  if was && !ttcAligned s then raise .ptTtcEvents 1 (noLink s) else s

/-- CHARACTER_LOCK: three K28.5 at one alignment; the sampling phase is chosen (R406). -/
def execCharacterLock (phase : Nat) (s : State) : Res :=
  onUnit (phase < 64) (when (s.released && ttcEn s && !s.ttc.lock)
    (modTtc fun t => { t with lock := true, phase := phase, matched := false }) s)

/-- LOCK_LOST (R406). -/
def lockLost (s : State) : State :=
  raise .ptTtcEvents 0 (ttcChange (modTtc fun t => { t with lock := false, matched := false }) s)

def execLockLost (s : State) : Res := .next (when (s.released && s.ttc.lock) lockLost s)

/-- TTC messages are taken: the receiver is on and holds character lock. -/
def ttcTakes (s : State) : Bool := s.released && ttcEn s && s.ttc.lock

/-- TRIGGER_WORD: a trigger word arrives (R407, R408). -/
def triggerWord (code : BitVec 16) (time : W64) (check : BitVec 16) (s : State) : State :=
  if crc16 (bytesOf 2 code.toNat ++ bytesOf 8 time.toNat) = check then
    modTtc (fun t => { t with release := t.release ++ [(lc s + 108, time, code)] }) s
  else raise .ptTtcEvents 2 (count .ptTtcBadCnt s)

def execTriggerWord (code : BitVec 16) (time : W64) (check : BitVec 16) (s : State) : Res :=
  .next (when (ttcTakes s) (triggerWord code time check) s)

/-- Trigger filter i passes a code (R343). -/
def filterHits (s : State) (code : BitVec 16) (i : Nat) : Bool :=
  let m := rfld s (.evTtf i) 16 16
  (code.toNat &&& m) == (rfld s (.evTtf i) 0 16 &&& m)

/-- TRIGGER_RELEASE: 108 lane cycles after its arrival a trigger word is released to the filters, the trigger list and the
broadcast, which meets a WAIT 6 lane cycles later (R36, R408). -/
def triggerRelease (s : State) : State :=
  match s.ttc.release with
  | [] => s
  | (n, time, code) :: rest =>
    let s := broadcastsDue n (toLc n s)
    let s := count .ptTtcTrigCnt (modTtc (fun t => { t with release := rest, bcast := t.bcast ++ [(n + 6, time, code)] }) s)
    let s := forL (fun i s => produce 7 i n s) ((List.range 8).filter (filterHits s code)) s
    enterTrig { done := false, time := time, src := 0, code := code, tenant := 0, input := 0, chan := 0 } s

def execTriggerRelease (s : State) : Res := .next (when s.released triggerRelease s)

/-- The lane cycle in which a frame f after the present one begins, with frames of the period in force.
(log entry 52, DEDUCED) -/
def tickOf (s : State) (f : Nat) : Int := (s.fr.tickLc : Int) + ((f : Int) - s.fr.count) * s.fr.period

/-- A mark that arrives now lies within one lane cycle of ALIGN after lane cycle n (R409). -/
def markNear (s : State) (n : Int) : Bool := decide (((lc s : Int) - n - sgn 16 (rfld s .ptTtcCfg 16 16)).natAbs ≤ 1)

/-- A mark of frame f that arrives now is matched, by the tick of a frame begun with that number or of one still to begin
(R409). (log entry 52, DEDUCED) -/
def markMatched (s : State) (f : Nat) : Bool :=
  ((s.fr.count, s.fr.tickLc) :: s.ttc.past).any (fun q => q.1 == f && markNear s q.2) ||
    (decide (s.fr.count < f) && markNear s (tickOf s f))

/-- FRAME_MARK: a frame mark arrives (R407, R409). -/
def frameMark (f : Nat) (check : BitVec 16) (s : State) : State :=
  if crc16 (bytesOf 6 f) != check || !s.fr.running then s
  else if markMatched s f then modTtc (fun t => { t with matched := true, ticks := 0 }) s
  else ttcChange (modTtc fun t => { t with matched := false }) (raise .ptTtcEvents 3 (count .ptTtcMarkCnt s))

def execFrameMark (frame : BitVec 48) (check : BitVec 16) (s : State) : Res :=
  .next (when (ttcTakes s) (frameMark frame.toNat check) s)

/-- BROADCAST: a broadcast arrives (R407, R410). -/
def broadcast (code : W8) (arg check : BitVec 16) (s : State) : State :=
  if crc16 (bytesOf 1 code.toNat ++ bytesOf 2 arg.toNat) != check then s
  else if 16 ≤ s.ttc.bc.length then raise .ptTtcEvents 4 s
  else modTtc (fun t => { t with bc := t.bc ++ [at32 1 31 ||| at32 code.toNat 16 ||| at32 arg.toNat 0] }) s

def execBroadcast (code : W8) (arg check : BitVec 16) (s : State) : Res := .next (when (ttcTakes s) (broadcast code arg check) s)

/-- The TTC stream at a frame tick: marks grow old, and a frame that begins without alignment is marked (R409). -/
def ttcTick (s : State) : State :=
  let s := ttcChange (modTtc fun t => { t with
    ticks := t.ticks + 1
    past := (s.fr.count, s.fr.tickLc) :: t.past.filter fun q => decide (lc s ≤ q.2 + 32769) }) s
  if ttcAligned s then s else noLink s

end Sys2Proof.Machine
end

