-- ==== Sys2Proof/Machine/Tenants.lean ====
section
/-! DEFINITION. Capability records and what happens when rights leave a tenant (R356-R380), and the changes of a context's
table entry at a tick (R189, R207, R374). -/
namespace Sys2Proof.Machine

/-! ### The record (R358-R360) -/

/-- The bits of record word i that are not reserved (Tables 13-2, 13-3). -/
def capMask (i : Nat) : W32 :=
  if i = 0 then 0xFFFF0F1F
  else if i ≤ 42 then 0xFFFFFFFF
  else if i ≤ 50 then 0x83FF83FF
  else if i < 64 then 0
  else match (i - 64) % 8 with
    | 0 => 0x007F3FFF
    | 1 => 0x00FF007F
    | 2 => 0x01FF00FF
    | 3 => 0xFFFFFFFF
    | 4 => 0xFFFFFFFF
    | 5 => 0xFFFFFFFF
    | _ => 0

/-- Word i of a record held as a table. -/
def recW (ws : Tbl W32) (i : Nat) : W32 := tget 0 i ws

/-- The record that 320 words spell. -/
def recTbl (l : List W32) : Tbl W32 := (l.zipIdx.filter fun p => p.1 != 0).map fun p => (p.2, p.1)

/-- The record in force of tenant t, with its newest grants (TN_CAP_DATA, R373). -/
def recordOf (s : State) (t : Nat) : Tbl W32 := if (tenant s t).state = .absent then [] else (tenant s t).caps

/-- The first word and the number of words a code grant, a data grant covers. -/
def codeGrant (w : W32) : Nat × Nat := (64 * fld w 0 7, 64 * fld w 16 8)
def dataGrant (w : W32) : Nat × Nat := (8 * fld w 0 8, 8 * fld w 16 9)

/-- Two ranges of words have a word in common. -/
def overlap (a b : Nat × Nat) : Bool := a.2 != 0 && b.2 != 0 && decide (a.1 < b.1 + b.2) && decide (b.1 < a.1 + a.2)

/-- Range a lies wholly inside range b; a range of no words does. -/
def inside (a b : Nat × Nat) : Bool := a.2 == 0 || (decide (b.1 ≤ a.1) && decide (a.1 + a.2 ≤ b.1 + b.2))

/-- The valid contexts of tenant t in cluster c, and the sum of the budgets of its contexts there, granules. -/
def validCtxs (s : State) (t c : Nat) : List Nat :=
  (ctxsOf s c).filter fun x => ctxValid (ctx s x) && ctxTenant (ctx s x) == t
def budSum (s : State) (t c : Nat) : Nat := lsum ((validCtxs s t c).map fun x => (ctx s x).bud)

/-- The stream IDs of a record whose V bit is 1. -/
def streamIds (ws : Tbl W32) : List Nat :=
  (List.range 8).flatMap fun i =>
    let w := recW ws (43 + i)
    (if fld w 15 1 = 1 then [fld w 0 10] else []) ++ (if fld w 31 1 = 1 then [fld w 16 10] else [])

/-- The grants of cluster c in a record: code and data. -/
def grantsOf (ws : Tbl W32) (c : Nat) : (Nat × Nat) × (Nat × Nat) :=
  (codeGrant (recW ws (64 + 8 * c + 1)), dataGrant (recW ws (64 + 8 * c + 2)))

/-- The causes of Table 13-5 for cluster c. -/
def capClusterBad (s : State) (t : Nat) (ws : Tbl W32) (others : List Nat) (c : Nat) : Bool :=
  let g := grantsOf ws c
  let w0 := recW ws (64 + 8 * c)
  decide (8192 < g.1.1 + g.1.2) || decide (2048 < g.2.1 + g.2.2) ||
  others.any (fun u => let o := grantsOf (recordOf s u) c; overlap g.1 o.1 || overlap g.2 o.2) ||
  decide (fld w0 16 7 < (validCtxs s t c).length) || decide (fld w0 0 14 < budSum s t c) ||
  (validCtxs s t c).any fun x =>
    !inside (codeGrant (ctx s x).iwin) g.1 || !inside (dataGrant (ctx s x).dwin) g.2

/-- A CAP_SET of the record for tenant t is refused (R360, R380). -/
def capRefused (s : State) (t : Nat) (ws : Tbl W32) : Bool :=
  let others := (tenantNos s).filter fun u => u != t && (tenant s u).state != .absent
  let ids := streamIds ws
  (tenant s t).leaving.isSome ||
  ws.any (fun p => p.2 &&& ~~~(capMask p.1) != 0) || decide (8 < fld (recW ws 0) 8 4) ||
  others.any (fun u => (List.range 16).any fun i => recW ws (1 + i) &&& recW (recordOf s u) (1 + i) != 0) ||
  (List.range 32).any (capClusterBad s t ws others) ||
  decide (ids.eraseDups.length < ids.length) ||
  others.any (fun u => (streamIds (recordOf s u)).any ids.contains) ||
  (streamNos s).any fun m => streamOn s m && streamOwner s m == t && !ids.contains m

/-! ### A lane leaves its owner (R376) -/

/-- A register at its reset value. -/
def resetReg (r : Reg) (s : State) : State := setReg r (regReset r) s

/-- CL_LEV of a lane returns to its reset value, and a written one with it. -/
def resetLev (c n : Nat) (s : State) : State :=
  let a := regAddr (.clLev c n)
  levSet a 0 (modEv (fun e => { e with pendW := e.pendW.filter fun p => p.2.1 != a }) s)

/-- A pulse lane leaves its owner (Table 13-11); SG_Ln_EVENTS is not among what is cleared, and its playback stops with
TBSTOP set (R299). -/
def pulseLeaves (k : Nat) (s : State) : State :=
  let s := closeGate k (lc s) s
  let l := pulse s k
  let keep (e : Stored) : Bool := flushKeeps l == some e
  let s := setPulse k { l with
    queue := l.queue.filter keep, correct := l.correct.filter fun p => keep p.2, gateReqs := [], dropLog := [], fired := 0 } s
  let s := resetLev (pulseCl k) (k % 16) (playStop k (lc s) true s)
  forL resetReg [.lnEvents k, .lnLateCnt k, .lnFullCnt k, .lnDiscCnt k, .lnTruncCnt k, .lnOcCnt k, .sgLPasses k] s

/-- A stamp lane leaves its owner (Table 13-11). -/
def stampLeaves (k : Nat) (s : State) : State :=
  let l := stamp s k
  let cfg := l.cfg &&& 0xFFFFFFBE
  let s := setStamp k { l with
    cfg := cfg, cfgPend := false, queue := [], buf := [], pair := none, hits := 0, held := false
    thrPend := none, thrNow := 0, blnk := 0, evcfg := 0, evcfgAt := [], window := none, windowOpen := false } s
  let s := setReg (.slCfg k) cfg s
  let s := setMeas k Measure.reset s
  let s := setRfld (.rgDone (k / 32)) (k % 32) 1 0 s
  let s := resetLev (stampCl k) (k % 16) s
  forL resetReg [.slThr k, .slBlnk k, .slEvcfg k, .slCapwin k, .slEvents k, .slDeadCnt k, .slQlossCnt k, .slBlankCnt k,
    .slOvfCnt k, .slToterrCnt k, .slFlushCnt k] s

/-- The lanes of tenant t that a new record no longer grants leave it. -/
def lanesLeave (t : Nat) (ws : Tbl W32) (s : State) : State :=
  let gone (w k : Nat) : Bool := fld (recW ws (w + k / 32)) (k % 32) 1 == 0
  let s' := forL pulseLeaves ((List.range 256).filter fun k => ownsPulse s t k && gone 1 k) s
  forL stampLeaves ((List.range 256).filter fun k => ownsStamp s t k && gone 9 k) s'

/-! ### Grants that leave (R373) -/

/-- The parts of range a that lie outside range b. -/
def leftOver (a b : Nat × Nat) : List (Nat × Nat) :=
  if !overlap a b then (if a.2 = 0 then [] else [a])
  else
    let ae := a.1 + a.2
    let be := b.1 + b.2
    (if a.1 < b.1 then [(a.1, b.1 - a.1)] else []) ++ (if be < ae then [(be, ae - be)] else [])

/-- A canonical item's place: TYPE and KEY (R436). -/
def itemNo (type key : Nat) : Nat := type * 2 ^ 48 + key

/-- The canonical items changed. -/
def modCanon (f : Tbl CItem → Tbl CItem) (s : State) : State := { s with jr := { s.jr with canon := f s.jr.canon } }

/-- Words of cluster c that leave tenant t are cleared; every read of them gives 0 from now on (R373, R436).
(log entry 77, DESIGN CHOICE) -/
def clearWords (t c : Nat) (data : Bool) (r : Nat × Nat) (s : State) : State :=
  let out (k : Nat) : Bool := decide (k < r.1) || decide (r.1 + r.2 ≤ k)
  let s := modCluster c (fun u =>
    if data then { u with dmem := u.dmem.filter fun p => out p.1, dmemBad := u.dmemBad.filter out }
    else { u with imem := u.imem.filter fun p => out p.1, imemBad := u.imemBad.filter out }) s
  let lo := itemNo (if data then 0x12 else 0x11) (c * 65536)
  let s := modCanon (fun l => l.filter fun p => decide (p.1 < lo) || decide (lo + 65536 ≤ p.1) || out (p.1 - lo)) s
  let busy := lmax ((s.tn.clearing.filter fun k => k.cluster == c && k.data == data).map (·.due))
  let k : Clearing := { owner := t, cluster := c, data := data, first := r.1, count := r.2, due := max (lc s) busy + r.2 }
  { s with tn := { s.tn with clearing := s.tn.clearing ++ [k] } }

/-- The words of a grant of tenant t in cluster c that leave it for the new one are cleared. -/
def grantLeaves (t : Nat) (data : Bool) (old new : Nat × Nat) (c : Nat) (s : State) : State :=
  forL (clearWords t c data) (leftOver old new) s

/-- A grant that record word w spells: that of code, or that of data, in its place in the cluster's block. -/
def grantAt (data : Bool) (w : W32) : Nat × Nat := if data then dataGrant w else codeGrant w
def grantWord (c : Nat) (data : Bool) : Nat := 64 + 8 * c + (if data then 2 else 1)

/-- The words of the grants in force of tenant t that a new record, with the grants `held` that wait kept, no longer covers
are cleared. -/
def grantsLeave (t : Nat) (ws held : Tbl W32) (s : State) : State :=
  let leave (data : Bool) (c : Nat) (s : State) : State :=
    let w := grantWord c data
    let new := match held.find? fun p => p.1 = w with
      | some p => p.2
      | none => recW ws w
    grantLeaves t data (grantAt data (capWord s t w)) (grantAt data new) c s
  forL (fun c s => leave true c (leave false c s)) (List.range 32) s

/-- A new grant waits: it covers words that are being cleared after another tenant lost them, or that another tenant keeps
while its own new grant waits. -/
def grantWaits (s : State) (t c : Nat) (data : Bool) (g : Nat × Nat) : Bool :=
  (s.tn.clearing.any fun k => k.owner != t && k.cluster == c && k.data == data && overlap g (k.first, k.count)) ||
    (tenantNos s).any fun u => u != t &&
      (tenant s u).held.any fun p => p.1 == grantWord c data && overlap g (grantAt data p.2)

/-- The grant words of a new record that wait, with the words they keep meanwhile. -/
def heldGrants (s : State) (t : Nat) (ws : Tbl W32) : Tbl W32 :=
  (List.range 32).flatMap fun c =>
    let g := grantsOf ws c
    let w := 64 + 8 * c
    (if grantWaits s t c false g.1 then [(w + 1, capWord s t (w + 1))] else []) ++
    (if grantWaits s t c true g.2 then [(w + 2, capWord s t (w + 2))] else [])

/-- The waiting grant of tenant t that keeps the words of p takes effect; what it leaves is cleared (R373). -/
def grantTakes (t : Nat) (p : Nat × W32) (s : State) : State :=
  let c := (p.1 - 64) / 8
  let data := p.1 % 8 == 2
  grantLeaves t data (grantAt data p.2) (grantAt data (recW (tenant s t).caps p.1)) c
    (modTenant t (fun u => { u with held := u.held.filter fun q => q.1 != p.1 }) s)

/-- At a tick: a waiting grant whose cluster is no longer being cleared, and whose words no other tenant keeps, takes effect
(R373). -/
def grantsTick (s : State) : State :=
  let may (t : Nat) (p : Nat × W32) (s : State) : Bool :=
    let c := (p.1 - 64) / 8
    let data := p.1 % 8 == 2
    !(s.tn.clearing.any fun k => k.cluster == c) && !grantWaits s t c data (grantAt data (recW (tenant s t).caps p.1))
  forL (fun t s => forL (fun p s => if may t p s then grantTakes t p s else s) (tenant s t).held s) (tenantNos s) s

/-- CLEARING_DONE: the earliest clearing completes (R373). -/
def clearingDone (s : State) : State :=
  match s.tn.clearing with
  | [] => s
  | k :: l =>
    let d := l.foldl (fun a b => min a b.due) k.due
    let s := toLc d s
    raise .tnEvents 6 { s with tn := { s.tn with clearing := s.tn.clearing.filter fun k => d < k.due } }

def execClearingDone (s : State) : Res := .next (when s.released clearingDone s)

/-! ### A new record applies (R207, R356, R361, R377) -/

/-- The words of the record of tenant t that are not 0, as they are in force (R358, R373). -/
def rightsWords (s : State) (t : Nat) : Tbl W32 :=
  (List.range 320).filterMap fun w => if capWord s t w = 0 then none else some (w, capWord s t w)

/-- Locked contexts of tenant t keep the rights held so far until the lock ends (R207). -/
def keepRights (t : Nat) (s : State) : State :=
  let ws := rightsWords s t
  forL (fun x s => modCtx x (fun u =>
    if u.l && u.keep.isNone then
      { u with keep := some { caps := ws, descs := (List.range 64).filter fun d => descHeld s (x / 64) d t } }
    else u) s)
    ((s.cx.map (·.1)).filter fun x => ctxValid (ctx s x) && ctxTenant (ctx s x) == t) s

/-- The lane of cluster c with number n, its owner. -/
def laneOwner (s : State) (c n : Nat) : Option Nat :=
  if c < 16 then pulseOwner s (16 * c + n) else stampOwner s (16 * (c - 16) + n)

/-- A source of CL_LEV names a channel whose CONSUME the tenant lacks. -/
def sourceLost (s : State) (t c : Nat) (valid name : Nat) : Bool :=
  valid == 1 && (if name < 0x100 then !clusRight s t c 3 (name % 32) else !milkRight s t 17 (name - 0x100))

/-- A value of CL_LEVn in cluster c with the sources made not valid whose channel tenant t may no longer consume (R377). -/
def sourcesKept (s : State) (t c : Nat) (v : W32) : W32 :=
  let v' := if sourceLost s t c (fld v 31 1) (fld v 16 10) then setFld v 31 1 0 else v
  if sourceLost s t c (fld v 15 1) (fld v 0 10) then setFld v' 15 1 0 else v'

/-- Cluster and lane of the CL_LEVn at address a. -/
def levPlace (a : Nat) : Nat × Nat := ((a - 0x1000000) / 0x100000, (a % 0x100000 - 0x800) / 4)

/-- The address is that of a CL_LEVn, and its lane is tenant t's. -/
def levOwned (s : State) (t a : Nat) : Bool :=
  decide (0x1000000 ≤ a) && decide (a < 0x3000000) && decide (0x800 ≤ a % 0x100000) && decide (a % 0x100000 < 0x840) &&
    laneOwner s (levPlace a).1 (levPlace a).2 == some t

/-- Lane consumer sources whose channel the lane's owner t may no longer consume become not valid (R377), in the registers
and in the writes that have not come into force. -/
def sourcesLeave (t : Nat) (s : State) : State :=
  let kept (p : Nat × Nat × W32) : Nat × Nat × W32 :=
    if levOwned s t p.2.1 then (p.1, p.2.1, sourcesKept s t (levPlace p.2.1).1 p.2.2) else p
  let s := modEv (fun e => { e with pendW := e.pendW.map kept }) s
  forL (fun a s =>
    let v := reg s (.clLev (levPlace a).1 (levPlace a).2)
    let v' := sourcesKept s t (levPlace a).1 v
    if v' = v then s else levSet a v' s)
    ((s.regs.map (·.1)).filter (levOwned s t)) s

/-- The windows of tenant t from number n on are disabled (R361). -/
def windowsOff (t n : Nat) (s : State) : State :=
  forL (fun w => setRfld (.spWCfg t w) 31 1 0) ((List.range 8).filter fun w => n ≤ w) s

/-- An accepted CAP_SET applies (R361). -/
def applyCap (t : Nat) (ws : Tbl W32) (s : State) : State :=
  let s := lanesLeave t ws (keepRights t s)
  let wait := heldGrants s t ws
  let s := grantsLeave t ws wait s
  let s := modTenant t (fun u => { u with
    state := if u.state = .absent then .active else u.state, caps := ws, held := wait }) s
  sourcesLeave t (windowsOff t (fld (recW ws 0) 8 4) s)

/-! ### The context table at a tick (R189, R207, R374) -/

/-- What a context loses when it is allocated or changes its tenant (R251, R374). -/
def ctxCleared (u : Ctx) : Ctx :=
  freePost { u with r := Regs.reset, recs := [], con := { subject := none, pending := none, overrun := u.con.overrun }, ret := 0 }

/-- New SQ_CTX_CFG, SQ_CTX_IWIN and SQ_CTX_DWIN of context x come into force. -/
def ctxEntrySet (x : Nat) (v : W32 × W32 × W32) (s : State) : State :=
  let u := ctx s x
  let now' := fld v.1 31 1 == 1
  let fresh := now' && (!ctxValid u || fld v.1 0 10 != ctxTenant u)
  let s := if now' || !ctxValid u then s else stopNow x s
  let s := modCtx x (fun u => { u with
    cfg := v.1, iwin := v.2.1, dwin := v.2.2, next := none
    state := if !now' then .free else if ctxValid u then u.state else .stopped }) s
  if fresh then resetReg (.ctxExh x) (modCtx x ctxCleared (modCluster (x / 64) (fun c =>
    if c.recHalf.any fun h => h.1 == x % 64 then { c with recHalf := none } else c) s)) else s

/-- New table values of context x apply at a tick: at once, or once its locked sequence has ended, but for SHARE (R100,
R207). -/
def ctxEntryApply (x : Nat) (v : W32 × W32 × W32) (s : State) : State :=
  if (ctx s x).l then modCtx x (fun u => { u with next := some v, cfg := setFld u.cfg 20 8 (fld v.1 20 8) }) s
  else ctxEntrySet x v s

/-- SQ_CTX_CFG, SQ_CTX_IWIN, SQ_CTX_DWIN of context x as committed: a change that waits for the lock counts. -/
def ctxEntryNow (s : State) (x : Nat) : W32 × W32 × W32 :=
  let u := ctx s x
  match u.next with
  | some v => v
  | none => (u.cfg, u.iwin, u.dwin)

/-- At a tick: what waited for the locks that have ended (R207). -/
def rightsTick (s : State) : State :=
  forL (fun x s =>
    let u := ctx s x
    if u.l then s
    else
      let s := if u.keep.isSome then modCtx x (fun u => { u with keep := none }) s else s
      match u.next with
      | some v => ctxEntrySet x v s
      | none => s) (s.cx.map (·.1)) s

/-! ### Suspension, resumption, removal (R378-R380) -/

/-- The contexts of tenant t. -/
def ctxsOfTenant (s : State) (t : Nat) : List Nat :=
  (s.cx.map (·.1)).filter fun x => ctxValid (ctx s x) && ctxTenant (ctx s x) == t

/-- The gate of a pulse lane of a suspended tenant closes and its playback is told to stop (R297, R378). -/
def suspendLane (k : Nat) (s : State) : State :=
  let s := closeGate k (lc s) s
  if (playback s k).play then requestStop k (lc s) s else s

/-- TEN_SUSPEND applies (R378). -/
def suspend (t : Nat) (s : State) : State :=
  let s := modTenant t (fun u => { u with state := .suspended }) s
  let s := forL (fun x s =>
    if haltOk (ctx s x) then haltReq x (modCtx x (fun u => { u with suspHalt := true }) s) else s) (ctxsOfTenant s t) s
  raise .tnEvents 5 (forL suspendLane ((liveLanes s).filter (ownsPulse s t)) s)

/-- TEN_RESUME applies (R379). -/
def resume (t : Nat) (s : State) : State :=
  let s := modTenant t (fun u => { u with state := .active }) s
  raise .tnEvents 5 (forL (fun x s =>
    let u := ctx s x
    if u.suspHalt && u.state == .halted then resumeCtx x false s
    else if u.suspHalt then setCtx x { u with suspHalt := false } s else s) (ctxsOfTenant s t) s)

/-- Table entries of descriptors that tenant t holds lose VALID (R380). -/
def descsLeave (t : Nat) (s : State) : State :=
  forL (fun c s => forL (fun d s => if descHeld s c d t then setRfld (.sgDOwn c d) 31 1 0 s else s) (List.range 64) s)
    (List.range 16) s

/-- The address of a register of the context, window or descriptor tables, or of a stream's configuration, that concerns
tenant t. -/
def regOfTenant (s : State) (t a : Nat) : Bool :=
  match regOfAddr a with
  | some (.ctxCfg x) => ctxValid (ctx s x) && ctxTenant (ctx s x) == t
  | some (.ctxBud x) => ctxValid (ctx s x) && ctxTenant (ctx s x) == t
  | some (.ctxIwin x) => ctxValid (ctx s x) && ctxTenant (ctx s x) == t
  | some (.ctxDwin x) => ctxValid (ctx s x) && ctxTenant (ctx s x) == t
  | some (.ctxEntry x) => ctxValid (ctx s x) && ctxTenant (ctx s x) == t
  | some (.spWCfg u _) => u == t
  | some (.spWMask u _) => u == t
  | some (.spWOfs u _) => u == t
  | some (.spWWid u _) => u == t
  | some (.sgDOwn c d) => descHeld s c d t
  | some (.spSCfg m) => streamOwner s m == t
  | _ => false

/-- A canonical item that goes with tenant t: one it issued last, its record and state, and the items of its contexts,
windows, descriptors and streams (R436). (log entry 46, DEDUCED) -/
def itemLeaves (s : State) (t : Nat) (p : Nat × CItem) : Bool :=
  let type := p.1 / 2 ^ 48
  let key := p.1 % 2 ^ 48
  p.2.tenant == t || ((type == 0x22 || type == 0x23) && key == t) ||
  ((type == 0x10 || type == 0x13) && ctxValid (ctx s key) && ctxTenant (ctx s key) == t) ||
  (type == 0x01 && regOfTenant s t key)

/-- A key-area write joins those waiting: 40 lane cycles a word, after those in progress (R369, R425). -/
def keyJob (w : KeyWrite) (words : Nat) (p : Option Path) (s : State) : State :=
  let busy := lmax (s.tn.jobs.map (·.due))
  let j : KeyJob := { write := w, due := max (lc s) busy + 40 * words, path := p }
  { s with tn := { s.tn with jobs := s.tn.jobs ++ [j] } }

/-- TEN_REMOVE applies (R380): the streams stay the tenant's until they are empty. (log entry 46, DEDUCED) -/
def remove (t : Nat) (s : State) : State :=
  let s := modCanon (fun l => l.filter fun p => !itemLeaves s t p) s
  let keepStreams : Tbl W32 := (recordOf s t).filter fun p => 43 ≤ p.1 && p.1 ≤ 50
  let s := lanesLeave t [] (keepRights t s)
  let s := grantsLeave t [] [] s
  let s := forL (fun x s =>
    let v := ctxEntryNow s x
    ctxEntryApply x (setFld v.1 31 1 0, v.2) s) (ctxsOfTenant s t) s
  let s := descsLeave t (windowsOff t 0 s)
  let s := modTenant t (fun u => { u with
    caps := keepStreams, held := [], leaving := some s.fr.ticks, last := 0, status := none }) s
  keyJob (.erase t) 4 none s

end Sys2Proof.Machine
end

