-- ==== Sys2Proof/Machine/Journal.lean ====
section
/-! DEFINITION. The journal store (15_journal_store.md): records as words, the writer, canonical items and the digest, and
compaction. What a record does when it applies stands in Apply.lean. -/
namespace Sys2Proof.Machine

def modJr (f : Journal → Journal) (s : State) : State := { s with jr := f s.jr }

/-! ### Records as words (R421) -/

/-- H1 of a record. -/
def recH1 (r : JRec) (snap : Bool) : W64 :=
  at64 0xA7 56 ||| at64 r.type 40 ||| at64 r.tenant 30 ||| at64 (b2n r.sched.isSome) 29 ||| at64 (b2n snap) 28 |||
    at64 r.payload.length 0

def endCommit : Nat := 0xC3A55AC3
def endAbandon : Nat := 0x3C5AA53C

/-- The last word of a record. -/
def recK (mark seq : Nat) : W64 := at64 mark 32 ||| at64 (seq % 2 ^ 32) 0

/-- The words of a record with its commit word (Table 15-3). -/
def jrWords (seq : Nat) (r : JRec) (snap : Bool) : List W64 :=
  let ws := [BitVec.ofNat 64 seq, recH1 r snap, at64 (r.sched.getD 0) 0] ++ r.payload
  ws ++ [at64 (crc32c (wordsBytes ws)).toNat 0, recK endCommit seq]

/-- A record of no issuer and no schedule. -/
def plainRec (type : Nat) (payload : List W64) : JRec :=
  { id := 0, type := type, tenant := 0, sched := none, payload := payload, replay := false }

/-- The half with index b; the active half (R420). -/
def halfOf (s : State) (b : Bool) : Tbl W64 := if b then s.jr.halfB else s.jr.halfA
def activeHalf (s : State) : Tbl W64 := halfOf s s.jr.activeB

/-- Words in a half (Table 15-1). -/
def halfWords : Nat := 520192

/-- Word a of a half written. -/
def putHalf (b : Bool) (a : Nat) (w : W64) (s : State) : State :=
  modJr (fun j => if b then { j with halfB := tset 0 a w j.halfB } else { j with halfA := tset 0 a w j.halfA }) s

/-- n words of a half from word a on. -/
def rawWords (h : Tbl W64) (a n : Nat) : List W64 := (List.range n).map fun i => tget 0 (a + i) h

/-! ### Canonical items (R436, R438) -/

/-- An item set to a value by a tenant's record. -/
def canonSet (type key t : Nat) (v : List W32) (s : State) : State :=
  modCanon (fun l => terase (itemNo type key) l |> tinsert (itemNo type key) { tenant := t, value := v }) s

/-- An item removed. -/
def canonDrop (type key : Nat) (s : State) : State := modCanon (terase (itemNo type key)) s

/-- Items of numbers a and b are words of one run (Table 15-6). -/
def sameRun (a b : Nat) : Bool :=
  b == a + 1 && (a / 2 ^ 48 == 0x11 || a / 2 ^ 48 == 0x12) && a / 65536 == b / 65536

/-- The items, words grouped into maximal runs; `split` also ends a run where the issuer changes. -/
def runsOf (split : Bool) : Tbl CItem → List (Nat × List CItem)
  | [] => []
  | (k, v) :: t =>
    match runsOf split t with
    | (k', l) :: rest =>
      if sameRun k k' && !(split && (l.head?.map (·.tenant)) != some v.tenant) then (k, v :: l) :: rest
      else (k, [v]) :: (k', l) :: rest
    | [] => [(k, [v])]

/-- A 32-bit word as bytes, most significant first. -/
def w32Bytes (w : W32) : List Nat := bytesOf 4 w.toNat

/-- The bytes of one item or run. -/
def itemBytes (p : Nat × List CItem) : List Nat :=
  let v := p.2.flatMap fun i => i.value.flatMap w32Bytes
  bytesOf 2 (p.1 / 2 ^ 48) ++ bytesOf 6 (p.1 % 2 ^ 48) ++ bytesOf 4 v.length ++ v

/-- The canonical configuration as a byte string (R436). -/
def canonBytes (s : State) : List Nat := (runsOf false s.jr.canon).flatMap itemBytes

/-- Its length: 12 bytes for each item or run, and 4 for each word. -/
def canonSize (s : State) : Nat :=
  lsum ((runsOf false s.jr.canon).map fun p => 12 + 4 * lsum (p.2.map fun i => i.value.length))

/-- The journal use of tenant t in KiB (R438). -/
def journalUse (s : State) (t : Nat) : Nat :=
  (lsum ((runsOf false s.jr.canon).map fun p =>
    (if p.2.head?.map (·.tenant) = some t then 12 else 0) +
    4 * lsum ((p.2.filter fun i => i.tenant == t).map fun i => i.value.length)) + 1023) / 1024

/-! ### The digest (R437) -/

/-- Blocks of the padded message of n bytes. -/
def shaBlocks (n : Nat) : Nat := (n + 9 + 63) / 64

/-- A digest computation starts in the present lane cycle; one in progress is discarded. -/
def digestStart (s : State) : State :=
  modJr (fun j => { j with busyTo := some (lc s + 8 * shaBlocks (canonSize s)), waiting := none }) s

/-- DIGEST_DONE: the computation completes. -/
def digestDone (s : State) : State :=
  match s.jr.busyTo with
  | some n =>
    let s := toLc n s
    modJr (fun j => { j with busyTo := none, waiting := some (sha256 (canonBytes s), canonSize s, lc s) }) s
  | none => s

def execDigestDone (s : State) : Res := .next (when s.released digestDone s)

/-- At a tick: a digest that completed before it comes into force, after the TS has locked. (log entry 72, DEDUCED) -/
def digestTick (s : State) : State :=
  match s.jr.waiting with
  | some (v, n, at') =>
    if at' < lc s then
      raise .jrEvents 5 (modJr (fun j =>
        { j with waiting := none, digest := { value := v, frame := s.fr.count, size := n } }) s)
    else s
  | none => s

/-! ### Pending records (R429, R435, JR_PEND) -/

/-- Records of the writer's own that resolve scheduled ones. -/
def resolutions (s : State) : List JRec :=
  s.jr.resQ ++ ((s.jr.cur.map (·.r)).toList.filter fun r => r.id == 0 && (r.type == 0x35 || r.type == 0x37))

/-- JR_PEND: committed scheduled records not resolved in the journal (Table 15-10). -/
def pendCount (s : State) : Nat :=
  s.jr.sched.length + (s.jr.deferred.filter fun d => d.r.sched.isSome).length + (resolutions s).length

/-- Scheduled records accepted and waiting for their commit word. -/
def schedWaiting (s : State) : Nat :=
  (s.jr.cmdQ.filter fun r => r.sched.isSome).length +
  ((s.jr.cur.map (·.r)).toList.filter fun r => r.sched.isSome).length

/-- A record of the writer's own names a scheduled record by SEQ: SCHED_CANCEL 0x35 or SCHED_DONE 0x37 (R431, R432). -/
def resolve (type seq : Nat) (s : State) : State :=
  modJr (fun j => { j with resQ := j.resQ ++ [plainRec type [BitVec.ofNat 64 seq]] }) s

/-- A command's record joins the writer's queue; its number, which the command waits for. -/
def journal (type t : Nat) (sched : Option Nat) (payload : List W64) (replay : Bool) (s : State) : Nat × State :=
  let n := s.jr.nextId
  let r : JRec := { id := n, type := type, tenant := t, sched := sched, payload := payload, replay := replay }
  (n, modJr (fun j => { j with nextId := n + 1, cmdQ := j.cmdQ ++ [r] }) s)

/-- Record n has neither been committed nor abandoned. -/
def waitsFor (s : State) (n : Nat) : Bool :=
  s.jr.cmdQ.any (fun r => r.id == n) || s.jr.cur.any fun c => c.r.id == n

/-- A record of n payload words would exceed the fill limit (Table 15-5). -/
def fillRefused (s : State) (n : Nat) : Bool := decide (494182 < s.jr.fill + n + 5)

/-! ### The writer (R424, R427, R433) -/

/-- The first two records of an empty store: HALF_HEAD of generation 1 and SNAP_END of nothing (log entry 16, DEDUCED). -/
def headRec (gen : Nat) : JRec := plainRec 0x200 [BitVec.ofNat 64 gen]
def snapEnd (s : Nat) : JRec := plainRec 0x201 [BitVec.ofNat 64 s]

/-- The records that wait, in the writer's order (R424). -/
def queued (j : Journal) : List JRec := j.cmdQ ++ j.resQ ++ j.sysQ

/-- New records are held: a compaction has gathered, or is about to gather, what was committed after S (Table 15-7). -/
def newHeld (j : Journal) : Bool :=
  match j.compact with
  | some c => c.step5 || c.words.isEmpty
  | none => false

/-- The record in progress with the next one begun where there is none. -/
def beginRec (j : Journal) : Journal :=
  let begun (r : JRec) (j : Journal) : Journal :=
    let w : JWrite := { start := j.fill, seq := j.seq + 1, r := r, words := jrWords (j.seq + 1) r false, written := 0 }
    { j with seq := j.seq + 1, cur := some w }
  if j.cur.isSome then j
  else if j.fill = 0 && !(queued j).isEmpty then
    let ws := jrWords 0 (headRec 1) true ++ jrWords 0 (snapEnd 0) true
    { j with gen := 1, cur := some { start := 0, seq := 0, r := headRec 1, words := ws, written := 0 } }
  else match j.cmdQ with
    | r :: t => begun r { j with cmdQ := t }
    | [] => match j.resQ with
      | r :: t => begun r { j with resQ := t }
      | [] => match j.sysQ with
        | r :: t => begun r { j with sysQ := t }
        | [] => j

/-- The writer has a word of a record to write. -/
def recordWaits (j : Journal) : Bool := j.cur.isSome || (!newHeld j && !(queued j).isEmpty)

/-- Compaction has a word to write, or its flip: at the end of step 4 it waits for the record in progress. -/
def compactWaits (j : Journal) : Bool :=
  match j.compact with
  | some c => !c.words.isEmpty || c.step5 || j.cur.isNone
  | none => false

/-- FR_BUD_JR.INTERVAL (R89). -/
def interval (s : State) : Nat := rfld s .frBudJr 0 16

/-- The lane cycle of the writer's next word (R424, R425). -/
def writerLc (s : State) : Nat :=
  let n := match s.jr.lastLc with
    | some m => max (lc s) (m + interval s)
    | none => lc s
  lmax (n :: s.tn.jobs.map (·.due))

/-- The kind and object of a system record: the type with the unit or lane in its first word (R440). -/
def sysKind (r : JRec) : Nat × Nat := (r.type, if r.type = 0x101 then 0 else fld (r.payload.headD 0) 56 8)

/-- The record an ACCEPT carries, issued by its tenant (R445). -/
def acceptedRec (r : JRec) : JRec :=
  let h1 := r.payload.getD 1 0
  { r with type := fld h1 40 16, tenant := fld h1 30 10, sched := none, payload := r.payload.drop 2 }

/-- A REG record is LOCAL: a replay record, or one of SP_DEVID and SP_CHAIN (Table 15-4). -/
def isLocal (r : JRec) : Bool :=
  r.type == 1 && (r.replay || (let a := fld (r.payload.headD 0) 32 32
    a == regAddr .spDevid || a == regAddr .spChain))

/-- The record named by SEQ no longer waits for its frame. -/
def dropSched (seq : Nat) (j : Journal) : Journal := { j with sched := j.sched.filter fun d => d.seq != seq }

/-- A suspect is resolved. -/
def dropSuspect (seq : Nat) (j : Journal) : Journal := { j with suspects := j.suspects.filter fun x => x.seq != seq }

/-- What a committed record begins to be (R423, R431, R435, R445). -/
def committedAs (w : JWrite) (n : Nat) (j : Journal) : Journal :=
  let r := w.r
  let named := (r.payload.headD 0).toNat
  let local' (j : Journal) : Journal :=
    if isLocal r then { j with loc := tset 0 (fld (r.payload.headD 0) 32 32) ((r.payload.headD 0).setWidth 32) j.loc } else j
  if r.type = 0x35 then dropSched named j
  else if r.type = 0x37 then j
  else if r.type = 0x33 then dropSuspect named j
  else if r.type = 0x32 then
    let j := dropSuspect named j
    { j with done := j.done ++ [{ seq := w.seq, r := acceptedRec r, lc := n }] }
  else if 0x100 ≤ r.type ∧ r.type < 0x200 then
    { j with sys := (j.sys.filter fun q => sysKind q != sysKind r) ++ [r] }
  else if 0x200 ≤ r.type then j
  else if r.replay then local' j
  else match r.sched with
    | some _ => { j with sched := j.sched ++ [{ seq := w.seq, r := r, lc := n }] }
    | none => local' { j with done := j.done ++ [{ seq := w.seq, r := r, lc := n }] }

/-- A record reaches its commit word too late: it is abandoned (R433). -/
def tooLate (s : State) (w : JWrite) : Bool :=
  match w.r.sched with
  | some f => decide (f ≤ s.fr.count)
  | none => false

/-- The record in progress loses its last word: the commit word where it may still commit, the abandon word otherwise. -/
def finishRec (w : JWrite) (s : State) : State :=
  let at' := w.start + w.words.length - 1
  let late := tooLate s w
  let s := putHalf s.jr.activeB at' (if late then recK endAbandon w.seq else w.words.getLastD 0) s
  let s := modJr (fun j => { j with cur := none, fill := at' + 1 }) s
  if late then
    raise .jrEvents 2 (count .jrAbandonCnt (raise .jrEvents 0 (count .jrLateCnt s)))
  else modJr (fun j => let j := committedAs w (lc s) j
    if w.seq = 0 then j else { j with commitSeq := w.seq }) s

/-- One word of the record in progress is written. -/
def writeRec (s : State) : State :=
  let s := modJr beginRec s
  match s.jr.cur with
  | none => s
  | some w =>
    if w.written + 1 < w.words.length then
      let s := putHalf s.jr.activeB (w.start + w.written) (w.words.getD w.written 0) s
      modJr (fun j => { j with
        cur := some { w with written := w.written + 1 }, fill := w.start + w.written + 1 }) s
    else finishRec w s

/-! ### Compaction (R440, R441) -/

/-- The value words of items as 64-bit words, the first in the high half. -/
def pairUp : List W32 → List W64
  | a :: b :: t => cat64 a b :: pairUp t
  | [a] => [cat64 a 0]
  | [] => []

/-- The payload of the SNAP record of an item or run (Tables 14-6, 15-6). -/
def snapPayload (p : Nat × List CItem) : List W64 :=
  let type := p.1 / 2 ^ 48
  let key := p.1 % 2 ^ 48
  let v := p.2.flatMap (·.value)
  let g (i : Nat) : W32 := v.getD i 0
  match type with
  | 0x01 => [at64 key 32 ||| at64 (g 0).toNat 0]
  | 0x06 => [at64 (g 0).toNat 0]
  | 0x10 => [at64 key 48 ||| at64 (g 0).toNat 0, cat64 (g 1) (g 2), at64 (g 3).toNat 0]
  | 0x11 => (at64 (key / 65536) 48 ||| at64 (key % 65536) 32 ||| at64 p.2.length 0) :: pairUp v
  | 0x12 => (at64 (key / 65536) 48 ||| at64 (8 * (key % 65536)) 32 ||| at64 p.2.length 0) :: pairUp v
  | 0x13 => [at64 key 48 ||| at64 (g 0).toNat 0]
  | 0x22 => at64 key 0 :: pairUp v
  | _ => [at64 key 0]

/-- A run cut into parts that the N field of a CODE_WRITE or DATA_WRITE payload can count (Table 14-6).
(log entry 57, DEDUCED) -/
def snapParts (p : Nat × List CItem) : List (Nat × List CItem) :=
  let n := if p.1 / 2 ^ 48 = 0x11 then 4094 else 2047
  ((List.range ((p.2.length + n - 1) / n)).map fun i => (p.1 + n * i, (p.2.drop (n * i)).take n))

/-- The SNAP records of a compaction: canonical items, LOCAL items, latest SYSTEM records (Table 15-7 step 2). -/
def snapRecs (canon : Tbl CItem) (j : Journal) : List JRec :=
  (((runsOf true canon).flatMap snapParts).map fun p =>
    { id := 0, type := p.1 / 2 ^ 48, tenant := (p.2.head?.map (·.tenant)).getD 0, sched := none,
      payload := snapPayload p, replay := false }) ++
  (j.loc.map fun p => { plainRec 0x01 [at64 p.1 32 ||| at64 p.2.toNat 0] with replay := true }) ++ j.sys

/-- The suspects that are not resolved, listed or not (R444). -/
def unresolved (j : Journal) : List Suspect := j.suspects ++ j.unlisted

/-- Raw words of the suspects, as they stand in the active half. -/
def suspectRaw (s : State) : List W64 := (unresolved s.jr).flatMap fun x => rawWords (activeHalf s) x.start x.len

/-- The place in the free half of each suspect copied there from word a on. -/
def movedTo (a : Nat) : List Suspect → List (Nat × Nat)
  | [] => []
  | x :: t => (x.seq, a) :: movedTo (a + x.len) t

/-- A compaction starts, over a canonical configuration as of the last committed record (R440).
(log entry 57, DEDUCED) -/
def compactStart (canon : Tbl CItem) (s : State) : State :=
  if s.jr.compact.isSome then s
  else
    let j := s.jr
    let q := j.commitSeq
    let ws := jrWords q (headRec (j.gen + 1)) true ++ (snapRecs canon j).flatMap (fun r => jrWords q r true) ++
      (j.sched ++ j.deferred.filter fun d => d.r.sched.isSome).flatMap (fun d => jrWords d.seq d.r false)
    let c : Compaction :=
      { s := q, words := ws ++ suspectRaw s ++ jrWords q (snapEnd q) true, pos := 0, step5 := false,
        moved := movedTo ws.length (unresolved j), gen := j.gen + 1 }
    modJr (fun j => { j with compact := some c }) s

/-- The records of the active half from word a on with SEQ above q, as raw words (Table 15-7 step 5): walks at most n
records, and word by word over what cannot be read. -/
def rawAfter (h : Tbl W64) (fill q : Nat) : Nat → Nat → List W64
  | 0, _ => []
  | n + 1, a =>
    if fill ≤ a then []
    else
      let h1 := tget 0 (a + 1) h
      let len := if fld h1 56 8 = 0xA7 && decide (a + fld h1 0 16 + 5 ≤ fill) then fld h1 0 16 + 5 else 1
      let ws := if len = 1 then [] else if fld h1 28 1 = 0 && q < (tget 0 a h).toNat then rawWords h a len else []
      ws ++ rawAfter h fill q n (a + len)

/-- The new half becomes active (Table 15-7 steps 6 and 7): its HALF_HEAD is committed. -/
def flip (c : Compaction) (s : State) : State :=
  let s := putHalf (!s.jr.activeB) 5 (recK endCommit c.s) s
  let newAt (x : Suspect) : Nat := ((c.moved.find? fun p => p.1 == x.seq).map (·.2)).getD x.start
  let bad := (unresolved s.jr).flatMap fun x =>
    (s.jr.bad.filter fun b => decide (x.start ≤ b) && decide (b < x.start + x.len)).map fun b => newAt x + (b - x.start)
  raise .jrEvents 4 (count .jrFlipCnt (modJr (fun j => { j with
    activeB := !j.activeB, fill := c.pos, gen := c.gen, compact := none, bad := bad
    suspects := j.suspects.map fun x => { x with start := newAt x }
    unlisted := j.unlisted.map fun x => { x with start := newAt x } }) s))

/-- One word of compaction is written in the free half. -/
def writeCompact (s : State) : State :=
  match s.jr.compact with
  | none => s
  | some c =>
    match c.words with
    | w :: t =>
      -- word 5, the commit word of HALF_HEAD, is left for step 6
      let (w, t, at') := if c.pos = 5 then (t.headD 0, t.tail, 6) else (w, t, c.pos)
      modJr (fun j => { j with compact := some { c with words := t, pos := at' + 1 } }) (putHalf (!s.jr.activeB) at' w s)
    | [] =>
      if c.step5 then flip c s
      else
        let ws := rawAfter (activeHalf s) s.jr.fill c.s (s.jr.fill + 1) 0
        let s := modJr (fun j => { j with compact := some { c with words := ws, step5 := true } }) s
        match ws with
        | w :: t =>
          modJr (fun j => { j with compact := some { c with words := t, step5 := true, pos := c.pos + 1 } })
            (putHalf (!s.jr.activeB) c.pos w s)
        | [] => flip c s

/-- The next word goes to compaction: alternately while both wait (R424). -/
def compactNext (j : Journal) : Bool := compactWaits j && (!recordWaits j || j.compactTurn)

/-- One word is written, by the record in progress or by compaction. -/
def writeWord (s : State) : State :=
  let s := toLc (writerLc s) s
  let s := modJr (fun j => { j with lastLc := some (lc s) }) s
  if compactNext s.jr then modJr (fun j => { j with compactTurn := false }) (writeCompact s)
  else modJr (fun j => { j with compactTurn := true }) (writeRec s)

/-- The writer has work. -/
def writerWorks (s : State) : Bool := recordWaits s.jr || compactWaits s.jr

/-! ### Power removal (R428) -/

/-- The Byre ends the record in progress before VDD_MRAM is removed: it commits an unscheduled one whose CRC is written, and
abandons any other. -/
def byreEnds (s : State) : State :=
  match s.jr.cur with
  | none => s
  | some w =>
    if w.seq = 0 then modJr (fun j => { j with cur := none, fill := 0, gen := 0 }) s
    else
      let ok := w.r.sched.isNone && w.written + 1 == w.words.length
      let at' := w.start + w.words.length - 1
      let s := putHalf s.jr.activeB at' (recK (if ok then endCommit else endAbandon) w.seq) s
      modJr (fun j => { j with cur := none, fill := at' + 1 }) s

end Sys2Proof.Machine
end

