-- ==== Sys2Proof/Machine/Synth.lean ====
section
/-! DEFINITION. The auxiliary synthesizer and the CKO outputs (02_timebase.md, R70-R77). -/
namespace Sys2Proof.Machine

/-- The ratio of plan p in units of 2^-24. -/
def planRatio (s : State) (p : Nat) : Nat := rfld s (.asPlanRatio p) 0 28

/-- Plan p is usable: INT from 6 to 10, and 2,000 to 3,200 MHz at 312.5 MHz times the ratio (R70). -/
def planUsable (s : State) (p : Nat) : Bool :=
  let r := planRatio s p
  6 ≤ r / 2 ^ 24 && r / 2 ^ 24 ≤ 10 && 64 * 2 ^ 24 ≤ 10 * r && 100 * r ≤ 1024 * 2 ^ 24

/-- Every CKO output stops after the half-period in progress; it starts again after AS lock, its divider restarted (R71,
R76). -/
def stopCkos (s : State) : State :=
  forL (fun n s => modCko n (fun u => { u with sync := none }) (stopCko true n s)) (List.range 8) s

/-- A HOP or a SEARCH begins: the outputs stop before retuning (R71). -/
def asRetune (w : AsWork) (s : State) : State :=
  modSyn (fun y => { y with work := w, locked := false, relock := y.locked, workLc := lc s }) (stopCkos s)

/-- A HOP to plan p, or a SEARCH where it has no valid band (R71, R72). -/
def asHopTo (p : Nat) (s : State) : State :=
  if !planUsable s p then raise .asEvents 3 s
  else if rbit s (.asPlanBand p) 31 then asRetune (.hop p) s
  else asRetune (.search p false) s

/-- A SEARCH of plan p (R71). -/
def asSearchOf (p : Nat) (s : State) : State :=
  if planUsable s p then asRetune (.search p false) s else raise .asEvents 3 s

/-- The AS stops with every output (R70, Table AS_CTRL). -/
def asOff (s : State) : State :=
  modSyn (fun y => { y with work := .idle, locked := false, relock := false }) (stopCkos s)

/-- A write of AS_CTRL: PLAN and EN, then SEARCH, or HOP, or the HOP of a change of EN to 1. With EN at 0 both bits are
ignored, and of both at 1 SEARCH acts (log entry 74, DESIGN CHOICE). -/
def asCtrlApply (v : W32) (s : State) : State :=
  let was := rbit s .asCtrl 0
  let s := setRfld .asCtrl 0 1 (fld v 0 1) (setRfld .asCtrl 4 4 (fld v 4 4) s)
  let p := fld v 4 4
  if fld v 0 1 = 0 then (if was then asOff s else s)
  else if fld v 9 1 = 1 then asSearchOf p s
  else if fld v 8 1 = 1 || !was then asHopTo p s
  else s

/-- The frequency of output n is at least 0.5 MHz and its phase is less than its period, on the active plan with its ratio
as written (R74; log entry 74, DESIGN CHOICE). -/
def ckoAllowed (s : State) (n : Nat) : Bool :=
  let r := planRatio s s.syn.active
  let d := rfld s (.asCkoCfg n) 16 12 + 1
  d * 2 ^ 24 ≤ 625 * r && rfld s (.asCkoPhase n) 0 20 * r < d * 2 ^ 24 * 16384

/-- A write of AS_CKOn_CFG: EN enables the output for its next start, or stops it; a setting that R74 does not allow is
refused (R74, R76). (log entry 23, DEDUCED) -/
def ckoCfgApply (n : Nat) (v : W32) (s : State) : State :=
  let was := rbit s (.asCkoCfg n) 0
  let s := writeRw (.asCkoCfg n) v s
  let on := rbit s (.asCkoCfg n) 0
  if on && !was then
    if s.syn.locked && !ckoAllowed s n then raise .asEvents 3 (modCko n (fun u => { u with waiting := false }) s)
    else modCko n (fun u => { u with waiting := true, sync := none }) s
  else if was && !on then modCko n (fun u => { u with waiting := false }) (stopCko false n s)
  else s

/-- A write of AS_PLANp_RATIO clears the plan's band (R70). -/
def planRatioApply (p : Nat) (v : W32) (s : State) : State :=
  setRfld (.asPlanBand p) 31 1 0 (writeRw (.asPlanRatio p) v s)

/-- The enabled outputs start at the next tick (R76). -/
def armCkos (s : State) : State :=
  forL (fun n s => if rbit s (.asCkoCfg n) 0 then modCko n (fun u => { u with waiting := true }) s else s) (List.range 8) s

/-- AS_LOCK: AS lock is declared, with the band a search found (R71-R73). The end of a HOP that fell back to a search sets
HOP_DONE (log entry 74, DESIGN CHOICE). -/
def asLock (band : Nat) (s : State) : State :=
  let done (p : Nat) (s : State) : State :=
    modSyn (fun y => { y with locked := true, active := p, work := .idle, relock := false }) (armCkos s)
  match s.syn.work with
  | .hop p => raise .asEvents 1 (done p s)
  | .search p fb =>
    let s := setReg (.asPlanBand p) (at32 1 31 ||| at32 (band % 256) 0) s
    let s := sysRecord 0x0100 [at64 (0x10 + p) 56 ||| at64 (band % 256) 0] s
    raise .asEvents (if fb then 1 else 2) (done p s)
  | .idle => modSyn (fun y => { y with locked := true, relock := false }) s

def execAsLock (band : Nat) (s : State) : Res :=
  onUnit (band < 256) (when (s.released && (s.syn.work != .idle || s.syn.relock)) (asLock band) s)

/-- AS_LOSS_OF_LOCK: 8 cycles outside 20 ps (R73): the CKO outputs come under timebase gating. -/
def asLoss (s : State) : State :=
  let s := raise .asEvents 0 (modSyn (fun y => { y with locked := false, relock := y.work == .idle }) s)
  let s := forL (fun n => modCko n fun u => { u with sync := none }) (List.range 8) s
  let s := logFault 0x1A 2 0 s
  gateCkos false (cancelUngates 0 true s)

/-- AS lock is held, or was when the HOP or SEARCH of this lane cycle began (R79). -/
def asHeld (s : State) : Bool :=
  s.syn.locked || (s.syn.relock && s.syn.work != .idle && s.syn.workLc == lc s)

def execAsLossOfLock (s : State) : Res := .next (when (s.released && asHeld s) asLoss s)

/-- AS_HOP_TIMEOUT: a HOP is not locked within 40 µs and falls back to a search (R72). -/
def asHopTimeout (s : State) : State :=
  match s.syn.work with
  | .hop p => raise .asEvents 4 (modSyn (fun y => { y with work := .search p true }) (toLc (s.syn.workLc + 12500) s))
  | _ => s

def execAsHopTimeout (s : State) : Res := .next (when s.released asHopTimeout s)

/-- The first rising edge at or after run time x of an output of period num / den drops whose edges fall at run time t and
whole periods after it. -/
def firstEdge (t num den x : Nat) : Nat := if x ≤ t then t else t + (((x - t) * den + (num - 1)) / num * num + (den - 1)) / den

/-- CKO output n started at the tick in the present lane cycle: its divider restarts the whole lane cycles of PHASE after the
tick, its edges lie the rest of PHASE later, and a SYNC since its enable keeps the points of its T0 (R64, R75, R76). -/
def ckoStart (n : Nat) (s : State) : State :=
  let phase := rfld s (.asCkoPhase n) 0 20
  let div := rfld s (.asCkoCfg n) 16 12
  let r := planRatio s s.syn.active
  modCko n (fun u =>
    let t := u.sync.getD (rdNow s)
    { u with
      started := true, waiting := false, div := div, phase := phase, pol := rbit s (.asCkoCfg n) 1, ratio := r, startAt := lc s
      restartAt := t / 16384 + phase / 16384, fine := phase % 16384
      first := firstEdge (t + phase) (16384 * (div + 1) * 2 ^ 24) r (rdNow s), stopAt := none }) s

/-- A waiting output starts at the tick in the present lane cycle, if nothing holds it; a setting that R74 does not allow
is refused (R74-R76). (log entry 23, DEDUCED) -/
def ckoTick (n : Nat) (s : State) : State :=
  let u := cko s n
  if u.waiting && !ckoRuns s n && rbit s (.asCkoCfg n) 0 && s.syn.locked && fld s.tb.ckoGated n 1 == 0 && !safeOn s then
    if ckoAllowed s n then ckoStart n s
    else raise .asEvents 3 (modCko n (fun u => { u with waiting := false }) s)
  else s

/-- The outputs at a frame tick (R76). -/
def ckosTick (s : State) : State := forL ckoTick (List.range 8) s

/-- At T0 of a SYNC, the present lane cycle, the fractional modulator and every divider restart: a running output starts
anew, and an enabled one has its edges at the points of T0 (R64). -/
def ckosRestart (s : State) : State :=
  forL (fun n s => modCko n (fun u => { u with
    waiting := u.waiting || u.runs (rdNow s) && u.stopAt.isNone, started := false, stopAt := none
    sync := if rbit s (.asCkoCfg n) 0 then some (rdNow s) else u.sync }) s) (List.range 8)
    (modSyn (fun y => { y with modLc := some (lc s) }) s)

end Sys2Proof.Machine
end

