-- ==== Sys2Proof/Machine/RegRead.lean ====
section
/-! DEFINITION. Register reads (20_address_map.md): the value each register shows, who may read it (R375 and the owning
chapters), peeks, shadows and read side effects (R15, R16, R187, R539). -/
namespace Sys2Proof.Machine

/-! ### Values of registers that are views -/

/-- Bits of a list of conditions, the first at bit 0. -/
def bitsOf (l : List Bool) : Nat := (l.zipIdx.map fun p => b2n p.1 * 2 ^ p.2).foldl (· + ·) 0

/-- Part i, of 32 bits, of a wider number. -/
def part32 (n i : Nat) : W32 := BitVec.ofNat 32 (n / 2 ^ (32 * i))

/-- The code of a TS state (Table 2-2) and of a context state (Table 7-1). -/
def tsCode : TsState → Nat
  | .off => 0
  | .qualify => 1
  | .check => 2
  | .search => 3
  | .acquire => 4
  | .locked => 5
  | .holdover => 6
def ctxCode : CtxState → Nat
  | .free => 0
  | .stopped => 1
  | .ready => 2
  | .running => 3
  | .waiting => 4
  | .preempted => 5
  | .halted => 6
  | .ended => 7
  | .faulted => 8

/-- The OTP value of a register. -/
def otpReg (s : State) (r : Reg) : W32 := tget (Config.otpWord (regAddr r)) (regAddr r) s.otp

/-- LN_OWNER and SL_OWNER. -/
def ownerWord : Option Nat → W32
  | some t => at32 1 31 ||| at32 t 0
  | none => 0

/-- Timebase gating is in force on an output. -/
def anyGated (s : State) : Bool := s.tb.gated != 0 || s.tb.ckoGated != 0

def tbStatusWord (s : State) : W32 :=
  at32 (tsCode s.tb.ts) 8 ||| at32 (bitsOf [tsLocked s, s.tb.refOk, s.tb.warm, s.tb.ts == .holdover || s.tb.frozenByLoss,
    anyGated s, reg s .tbFofsNow != reg s .tbFofs]) 0

def asStatusWord (s : State) : W32 :=
  at32 (bitsOf ((List.range 8).map fun n => ckoRuns s n)) 8 ||| at32 s.syn.active 4 |||
    at32 (bitsOf [s.syn.locked, s.syn.work != .idle]) 0

def lnStatusWord (s : State) (k : Nat) : W32 :=
  let l := pulse s k
  at32 (queuedCount l) 16 ||| at32 l.stdNow 0 ||| at32 (bitsOf [l.level, l.gateOpen, tbGated s k, safeOn s, l.ocDis,
    l.cal.valid, l.cal.stale, l.cal.busy]) 2

/-- Capture is enabled at the present lane cycle (R145). -/
def capEnNow (s : State) (l : StampLane) : Bool := captureEnabled l (rdNow s)

def slStatusWord (s : State) (k : Nat) : W32 :=
  let l := stamp s k
  at32 (inQueue s l).length 16 ||| at32 (bitsOf [capEnNow s l, l.sA, l.sB, blankedAt l (rdNow s), l.thrPend.isSome, l.cal.valid,
    l.cal.stale, l.cal.busy, l.pair.isSome, frozenNow s]) 0

def rgStatusWord (s : State) (k : Nat) : W32 := at32 (meas s k).gate.accepted 0

/-- The gate state bits, which R554 puts into RG_STATUS without naming their places: PEND, RUN and WAIT above NCUR (log
entry 8, DESIGN CHOICE). -/
def rgStateBits (s : State) (k : Nat) : W32 :=
  let m := meas s k
  at32 (bitsOf [m.state == .waitTick || m.state == .waitEvent, m.state == .running, m.held]) 24

def sqStatusWord (s : State) (c : Nat) : W32 :=
  let u := cluster s c
  let resp := (ctxsOf s c).find? fun x => isResp (ctx s x)
  at32 (bitsOf [u.run.isSome, resp.isSome, u.lock.isSome]) 21 ||| at32 ((u.lock.map (·.ctx % 64)).getD 0) 12 |||
    at32 ((resp.map (· % 64)).getD 0) 6 ||| at32 (u.run.getD 0) 0

/-- The contexts of cluster c, half i, in a state, that tenant t may see. -/
def ctxBits (s : State) (t c i : Nat) (st : CtxState) : W32 :=
  at32 (bitsOf ((List.range 32).map fun j =>
    let x := 64 * c + 32 * i + j
    let u := ctx s x
    u.state == st && (t == 0 || (ctxValid u && ctxTenant u == t)))) 0

def ctxStateWord (u : Ctx) : W32 :=
  at32 (ctxCode u.state) 0 ||| at32 (if u.state = .ready ∨ u.state = .running then u.cls else 0) 4 |||
    at32 (bitsOf [u.lockBrk, u.bpHit, u.stepped, u.haltPend && u.l]) 8

/-- Parked states (Table 7-1). -/
def parked (u : Ctx) : Bool := u.state == .stopped || u.state == .halted || u.state == .ended || u.state == .faulted

def ctxFlagsWord (u : Ctx) : W32 :=
  at32 (bitsOf [u.r.flags.z, u.r.flags.n, u.r.flags.c, u.r.flags.v, u.con.pending.isSome, u.l]) 0

def ctxRstkWord (u : Ctx) : W32 := at32 u.r.rstk.length 28 ||| at32 (u.r.rstk.headD 0).toNat 0

/-- A debug view: the value in a parked state, 0 in any other (R223). -/
def debugView (u : Ctx) (v : W32) : W32 := if parked u then v else 0

def sgStateWord (s : State) (k : Nat) : W32 :=
  let p := playback s k
  at32 (b2n p.play) 31 ||| at32 (b2n p.jump.isSome) 30 ||| at32 (p.jump.getD 0) 24 ||| at32 p.desc 16 ||| at32 (p.ctx % 64) 0

def sgPosWord (s : State) (k : Nat) : W32 :=
  let p := playback s k
  at32 (if p.endless then 0 else p.left) 16 ||| at32 ((p.fetched - p.buf.length) % 2048) 0

def portStatusWord (s : State) (p : Nat) : W32 :=
  let u := port s p
  at32 (bitsOf [u.up, u.helloOk, u.lock, u.hiber, u.lf, u.rf, p != 3 && u.xoff, p != 3 && u.pausedTo.isSome]) 0

/-- SESSION of the TQ-512 on a port (R394). -/
def sessWord (s : State) (p : Nat) : W32 := at32 (s.byre.boot % 65536) 16 ||| at32 ((port s p).linkup % 65536) 0

/-- SIZE plus the quotas of enabled streams. -/
def quotaSum (s : State) : Nat :=
  rfld s .spChin 0 11 + lsum ((streamNos s).map fun m => if streamOn s m then rfld s (.spSQuota m) 0 11 else 0)

def spStatusWord (s : State) : W32 :=
  at32 (fill s) 0 ||| at32 (bitsOf [isTail s, s.sp.xoff0, s.sp.xoff1, s.sp.xoffOut, s.sp.xoffIn]) 19

def jrStatusWord (s : State) : W32 :=
  let j := s.jr
  at32 (bitsOf [j.activeB, j.replayed, j.cur.isSome, j.compact.isSome, j.busyTo.isSome, !j.suspects.isEmpty,
    decide (494182 < j.fill)]) 0

/-- The suspect shown by JR_SUSP_IDX. -/
def suspectShown (s : State) : Option Suspect := s.jr.suspects[rfld s .jrSuspIdx 0 4]?

/-- The key-area entry of tenant t. -/
def keyOf (s : State) (t : Nat) : KeyEntry := keyIn s.tn.keys t

/-- A reservation write of a command waits (R369). -/
def resvWaits (s : State) : Bool := s.tn.jobs.any fun j => match j.write with
  | .resv _ _ => true
  | _ => false

def tnStatusWord (s : State) : W32 :=
  at32 (bitsOf [(keyOf s 0).valid, false, false, s.tn.zeroising, !s.tn.clearing.isEmpty, resvWaits s]) 0

/-- The tenant that tenant t's TN_SEL selects (R385). -/
def selected (s : State) (t : Nat) : Nat := if t = 0 then fld (tenant s 0).sel 0 10 else t

def tenCode : TenState → Nat
  | .absent => 0
  | .active => 1
  | .suspended => 2

def tnStateWord (s : State) (t : Nat) : W32 :=
  let k := keyOf s t
  at32 (tenCode (tenant s t).state) 30 ||| at32 (b2n k.valid) 29 |||
    at32 (if k.valid then fld (keyWord s.tn.keys t 3) 32 24 else 0) 0

/-- The start of the system window in progress where its conversion is still to end (R510, R514). -/
def adWindow (s : State) : Option Nat :=
  let w := s.now / 32768 * 32768
  if (scanChan (w / 32768 % 64)).isSome && decide (s.ad.sysEnd < w + 1) && !s.ad.test then some w else none

/-- A system conversion is in progress: it begins with its window, or after the start-up (R510). -/
def adSysBusy (s : State) : Bool :=
  match adWindow s with
  | some w => let c := if s.ad.powered then w else w + 1250; decide (c ≤ s.now) && decide (s.now < c + 625)
  | none => false

/-- A start-up is under way: the one of a system window, or of the sequence at the head of the queue, from the instant its
conversion could otherwise have begun (R511). -/
def adStarting (s : State) : Bool :=
  !s.ad.powered && !s.ad.test &&
    ((match adWindow s with
      | some w => decide (s.now < w + 1250)
      | none => false) ||
    (match s.ad.seqs with
      | q :: _ => adEn s && !poweredFor s q.r && decide (unreserved (max (2 * q.r) s.ad.endAt) ≤ s.now)
      | [] => false))

def adStatusWord (s : State) : W32 :=
  let a := s.ad
  let act (ft : Bool) : Bool := a.seqs.any (fun q => q.ft == ft) || a.conv.any fun v => v.ft == ft
  at32 (if a.powered || a.test || a.conv.isSome || adSysBusy s then 2 else if adStarting s then 1 else 0) 8 |||
    at32 (bitsOf [act false, act true, a.test, adSysBusy s]) 4 ||| at32 a.lastEntry 0

def stStatusWord (s : State) : W32 :=
  at32 s.st.slices.length 4 ||| at32 s.st.astSrc 2 ||| at32 (bitsOf [s.st.lbPend != 0, !s.st.astTodo.isEmpty]) 0

/-- The blown fuses of a group. -/
def blown (g : BitVec 16) : Nat := lsum ((List.range 16).map fun i => fld g i 1)

/-- A fuse group is partly blown (R478). -/
def partlyBlown (s : State) : Bool :=
  (List.range 5).any fun i => let n := blown (tget 0 (i + 1) s.st.fuses); n != 0 && n != 16

def lcStatusWord (s : State) : W32 :=
  at32 (63 - s.st.compatFuses) 16 ||| at32 (bitsOf [s.st.compat, s.st.compatDis, s.jtag.scanMode]) 8 |||
    at32 (b2n (partlyBlown s)) 4 ||| at32 s.st.lcState 0

/-- The interrupt source of an events register (Table 19-8): its bit, and the bits of the register that count. -/
def irqOf (s : State) : Reg → Option (Nat × W32)
  | .tbEvents => some (0, at32 (rfld s .flTbasMask 0 12) 0)
  | .asEvents => some (1, at32 (rfld s .flTbasMask 16 5) 0)
  | .frEvents => some (2, 0xFFFFFFFF)
  | .evEvents => some (3, 0xFFFFFFFF)
  | .clEvstat _ => some (3, 0xFFFFFFFF)
  | .clLovr _ => some (3, 0xFFFFFFFF)
  | .ptEvents _ => some (4, 0xFFFFFFFF)
  | .ptTtcEvents => some (4, 0xFFFFFFFF)
  | .spEvents => some (5, 0xFFFFFFFF)
  | .rgLevents _ => some (6, 0xFFFFFFFF)
  | .jrEvents => some (7, 0xFFFFFFFF)
  | .tnEvents => some (8, 0xFFFFFFFF)
  | .adEvents => some (9, 0xFFFFFFFF)
  | .stEvents => some (10, 0xFFFFFFFF)
  | .byEvents => some (11, 0xFFFFFFFF)
  | .sqEvents _ => some (12, 0xFFFFFFFF)
  | .clBudStatus _ => some (12, 0xFFFFFFFF)
  | .lnEvents _ => some (13, 0xFFFFFFFF)
  | .sgLEvents _ => some (13, 0xFFFFFFFF)
  | .slEvents _ => some (14, 0xFFFFFFFF)
  | .flEvents => some (15, 0xFFFFFFFF)
  | _ => none

/-- FL_IRQ_SRC. -/
def irqSrc (s : State) : W32 :=
  s.regs.foldl (fun w p =>
    match (regOfAddr p.1).bind (irqOf s) with
    | some (b, m) => if p.2 &&& m != 0 then w ||| at32 1 b else w
    | none => w) 0

/-- FAULT_N and IRQ_N are driven low (R528). -/
def faultLow (s : State) : Bool := reg s .flFpend &&& reg s .flFmask != 0
def irqLow (s : State) : Bool := irqSrc s &&& reg s .flImask != 0

def flStatusWord (s : State) : W32 :=
  at32 (bitsOf [faultLow s, irqLow s, s.fl.ovf.any (fun p => p.2.ovf), reg s .flGrad != 0]) 0

/-- The registers that wrap with a sticky overflow flag (R540). -/
def isCounter : Reg → Bool
  | .tbFlushEdge | .tbFlushHit | .tbTrunc | .tbDisc => true
  | .evMcCnt _ | .evMcDis _ | .evAdcOvrCnt | .clCcCnt _ _ | .clCcDis _ _ | .clLovrCnt _ | .clWovr _ _ => true
  | .ptBlkCnt _ | .ptFcsCnt _ | .ptMalfCnt _ | .ptGapCnt _ | .ptAbortCnt _ | .ptDropCnt _ | .ptDownCnt _ => true
  | .ptTtcTrigCnt | .ptTtcBadCnt | .ptTtcMarkCnt | .ptQintCnt => true
  | .spSLoss _ | .spLateCnt | .spTlateCnt | .spTlossCnt | .spChbadCnt | .spChdropCnt | .spNostrCnt => true
  | .jrLateCnt | .jrApprejCnt | .jrAbandonCnt | .jrSuspCnt | .jrEccCnt | .jrFlipCnt => true
  | .tnTAfail | .tnTReplay | .tnAfailCnt | .tnReplayCnt => true
  | .adFtOvrCnt | .adConvCnt | .adECnt _ => true
  | .clBudExh _ | .ctxExh _ => true
  | .lnLateCnt _ | .lnFullCnt _ | .lnDiscCnt _ | .lnTruncCnt _ | .lnOcCnt _ => true
  | .slDeadCnt _ | .slQlossCnt _ | .slBlankCnt _ | .slOvfCnt _ | .slToterrCnt _ | .slFlushCnt _ | .sgLPasses _ => true
  | .stLbCnt | .stLbFailCnt => true
  | .flGradCnt | .flEccDataCnt | .flEccChkCnt | .flEccUncCnt | .flTmrCnt | .flScrubCnt | .flLogDropCnt => true
  | _ => false

/-- An address names a counter with a flag entry. -/
def hasFlag (a : Nat) : Bool := match regOfAddr a with
  | some r => isCounter r
  | none => false

/-- The counter that FL_OVF_ADDR names. -/
def ovfAddr (s : State) : Nat := (reg s .flOvfAddr).toNat / 4 * 4

def flOvfWord (s : State) : W32 :=
  let o := ovfFlag s (ovfAddr s)
  at32 (bitsOf [hasFlag (ovfAddr s), o.lost, o.ovf]) 29

/-- A counter of the memory that FL_ECC_SEL shows: class 0, 1 or 2. -/
def eccShown (s : State) (cls : Nat) : W32 := tget 0 (3 * rfld s .flEccSel 0 4 + cls) s.fl.ecc

def flSafeWord (s : State) : W32 := at32 (b2n s.byre.pinLow) 8 ||| at32 s.byre.safe.toNat 0

def byStatusWord (s : State) : W32 :=
  let b := s.byre
  at32 (b2n b.xk) 24 ||| at32 b.win.toNat 20 ||| at32 b.pwren.toNat 16 ||| at32 b.rails.toNat 8 |||
    at32 (bitsOf [b.ready, safeOn s, b.nolock, b.wpend.isSome]) 4 ||| at32 b.state.code 0

/-- The word of the retention RAM that BY_RRAM_ADDR names. -/
def rramIdx (s : State) : Nat := rfld s .byRramAddr 2 10

/-- Present values of the 64-bit views: low word first. -/
def wide (s : State) (t : Nat) : Reg → Option W64
  | .tbTimeLo => some (absNow s)
  | .frCountLo => some (at64 s.fr.count 0)
  | .frStartLo => some s.fr.start
  | .lnFiredLo k => some (pulse s k).fired
  | .slHitLo k => some (stamp s k).hits
  | .ctxRetLo x => some (ctx s x).ret
  | .sgLBaseLo k => some (playback s k).base
  | .idUidLo => some (cat64 (otpReg s .idUidHi) (otpReg s .idUidLo))
  | .jrSeqLo => some (at64 s.jr.commitSeq 0)
  | .jrGenLo => some (at64 s.jr.gen 0)
  | .jrDframeLo => some (at64 s.jr.digest.frame 0)
  | .jrSuspLo => some (at64 ((suspectShown s).map (·.seq) |>.getD 0) 0)
  | .tnCtrLo => some (at64 (tenant s (selected s t)).last 0)
  | .tnResvLo => some (at64 (keyOf s (selected s t)).resv 0)
  | .flOvfFrameLo => some (at64 (ovfFlag s (ovfAddr s)).frame 0)
  | .adEResLo i => some (cat64 (reg s (.adEResHi i)) (reg s (.adEResLo i)))
  | .ctxT x j => if j % 2 = 0 then
      let u := ctx s x
      some (if parked u then tget 0 (j / 2) u.r.t else 0) else none
  | _ => none

/-- The high word of a pair whose low word latches it (R539). -/
def highOf : Reg → Option Reg
  | .tbTimeLo => some .tbTimeHi
  | .frCountLo => some .frCountHi
  | .frStartLo => some .frStartHi
  | .lnFiredLo k => some (.lnFiredHi k)
  | .slHitLo k => some (.slHitHi k)
  | .ctxRetLo x => some (.ctxRetHi x)
  | .sgLBaseLo k => some (.sgLBaseHi k)
  | .idUidLo => some .idUidHi
  | .jrSeqLo => some .jrSeqHi
  | .jrGenLo => some .jrGenHi
  | .jrDframeLo => some .jrDframeHi
  | .jrSuspLo => some .jrSuspHi
  | .tnCtrLo => some .tnCtrHi
  | .tnResvLo => some .tnResvHi
  | .flOvfFrameLo => some .flOvfFrameHi
  | .adEResLo i => some (.adEResHi i)
  | .ctxT x j => if j % 2 = 0 then some (.ctxT x (j + 1)) else none
  | _ => none

/-- A register that reads its shadow: the high word of a pair, and RG_RES1 to RG_RES9 (R187, R539). -/
def readsShadow : Reg → Bool
  | .tbTimeHi | .frCountHi | .frStartHi | .idUidHi | .jrSeqHi | .jrGenHi | .jrDframeHi | .jrSuspHi | .tnCtrHi | .tnResvHi => true
  | .flOvfFrameHi => true
  | .lnFiredHi _ => true
  | .slHitHi _ => true
  | .ctxRetHi _ => true
  | .sgLBaseHi _ => true
  | .adEResHi _ => true
  | .ctxT _ j => j % 2 == 1
  | .rgRes _ r => r != 0
  | _ => false

/-- Word r of the result registers of lane k (RG_RES). -/
def rgResWord (s : State) (k r : Nat) : W32 :=
  let w := (meas s k).words.getD (r / 2) 0
  if r % 2 = 0 then lo32 w else hi32 w

/-- The lanes of word i of a 256-lane register that tenant t may see. -/
def laneMask (s : State) (t i : Nat) : W32 :=
  if t = 0 then 0xFFFFFFFF else at32 (bitsOf ((List.range 32).map fun j => ownsStamp s t (32 * i + j))) 0

/-- The bits of CL_LOVR of cluster c that belong to the lanes of tenant t (R582). -/
def lovrMask (s : State) (t c : Nat) : W32 :=
  if t = 0 then 0xFFFFFFFF
  else
    let b := bitsOf ((List.range 16).map fun n => laneOwner s c n == some t)
    at32 b 16 ||| at32 b 0

/-- The groups of word i on which tenant t holds CONTROL. -/
def groupMask (s : State) (t i : Nat) : W32 :=
  at32 (bitsOf ((List.range 32).map fun j => groupRight s t (32 * i + j))) 0

/-- The value of an entry of a log that a read takes. -/
def headWord (l : List W32) : W32 := l.headD 0

/-- The value register r shows to tenant t. -/
def regView (s : State) (t : Nat) (r : Reg) : W32 :=
  match wide s t r with
  | some v => lo32 v
  | none =>
    match r with
    | .tbPherrMax => rcValue s .tbPherrMax
    | .clBudSysMin c => rcValue s (.clBudSysMin c)
    | .tbGated i => part32 s.tb.gated.toNat i
    | .tbStatus => tbStatusWord s
    | .asStatus => asStatusWord s
    | .frPeriod => at32 s.fr.period 0
    | .frStatus => at32 (bitsOf [!s.fr.running, s.fr.pend.isSome]) 0
    | .pwStart => at32 s.byre.cause 28 ||| at32 (b2n s.byre.warm) 8 ||| at32 (bitsOf [s.byre.readyRisen, s.byre.nolock]) 0
    | .pwTready => at32 s.byre.tready 0
    | .pwStep => at32 s.byre.steps.toNat 0
    | .clInfo c => at32 (b2n (quarantined s c)) 23 ||| at32 c 16 ||| at32 (b2n (16 ≤ c)) 8 ||| at32 (16 * (c % 16)) 0
    | .clBudCap _ => at32 (9 * s.fr.period / 20) 0
    | .clBudSum c => at32 (lsum ((ctxsOf s c).map fun x => (ctx s x).bud)) 0
    | .sqStatus c => sqStatusWord s c
    | .sqFaulted c i => ctxBits s t c i .faulted
    | .sqHalted c i => ctxBits s t c i .halted
    | .clLovr c => reg s r &&& lovrMask s t c
    | .evGrpEn i => at32 (bitsOf ((List.range 32).map fun j => rbit s (.evGrpCfg (32 * i + j)) 31)) 0 &&& groupMask s t i
    | .lnCfg k => reg s r ||| at32 (b2n (pulse s k).cfgPend) 8
    | .lnStatus k => lnStatusWord s k
    | .lnOwner k => ownerWord (pulseOwner s k)
    | .lnSkew k => at32 (pulse s k).bank.ofs.toNat 0
    | .lnCtabData k =>
      let b := if rbit s (.lnCtabIdx k) 31 then (pulse s k).shadow else (pulse s k).bank
      at32 (tget (0 : W8) (rfld s (.lnCtabIdx k) 0 10) b.delta).toNat 0
    | .lnCalInfo k => at32 (pulse s k).bank.resid 16 ||| (ofInt32 (pulse s k).bank.temp &&& 0xFFFF)
    | .lnSkewSh k => at32 (pulse s k).shadow.ofs.toNat 0
    | .lnCalpath _ => otpReg s r
    | .lnDropLog k => headWord (pulse s k).dropLog
    | .slCfg k => reg s r ||| at32 (b2n (stamp s k).cfgPend) 16
    | .slStatus k => slStatusWord s k
    | .slOwner k => ownerWord (stampOwner s k)
    | .slThrNow k => (stamp s k).thrNow
    | .slLatch k => latchNow s k
    | .slInpath _ => otpReg s r
    | .slBinData k =>
      let b := if rbit s (.slBinIdx k) 31 then (stamp s k).binsSh else (stamp s k).bins
      at32 (tget (0 : BitVec 14) (rfld s (.slBinIdx k) 0 6) b).toNat 0
    | .slCalInfo k => at32 (stamp s k).info.1 16 ||| (ofInt32 (stamp s k).info.2 &&& 0xFFFF)
    | .rgDone i => reg s r &&& laneMask s t i
    | .rgStatus k => rgStatusWord s k ||| rgStateBits s k
    | .rgResult k => at32 (meas s k).seq 0
    | .rgRes k i => rgResWord s k i
    | .rgSlot => at32 (rgSlotNow s) 0
    | .sgActive c => at32 (bitsOf ((List.range 16).map fun n => (playback s (16 * c + n)).play)) 0
    | .sgLState k => sgStateWord s k
    | .sgLPos k => sgPosWord s k
    | .ctxCfg x => (ctx s x).cfg
    | .ctxBud x => at32 (ctx s x).bud 0
    | .ctxIwin x => (ctx s x).iwin
    | .ctxDwin x => (ctx s x).dwin
    | .ctxEntry x => (ctx s x).entry
    | .ctxState x => ctxStateWord (ctx s x)
    | .ctxPc x => debugView (ctx s x) (at32 (ctx s x).pc.toNat 0)
    | .ctxFlags x => debugView (ctx s x) (ctxFlagsWord (ctx s x))
    | .ctxFault x => (ctx s x).fault
    | .ctxRem x => at32 (left s x) 0
    | .ctxDbg x => (ctx s x).dbg
    | .ctxRstk x => debugView (ctx s x) (ctxRstkWord (ctx s x))
    | .ctxG x i => debugView (ctx s x) (gOf s x i)
    | .idPart => at32 0x0512 16 ||| at32 0xC0 8 ||| at32 (fld (otpReg s .idPart) 0 2) 0
    | .lcStatus => lcStatusWord s
    | .lcRev => at32 (fld (otpReg s .lcRev) 8 1) 8 ||| at32 0xC0 0
    | .ptStatus p => portStatusWord s p
    | .ptSess p => sessWord s p
    | .ptTtcStatus => at32 s.ttc.phase 16 ||| at32 (bitsOf [s.ttc.lock, s.ttc.lock && s.ttc.matched && rbit s .ptTtcCfg 0]) 0
    | .ptTtcBc => headWord s.ttc.bc
    | .spQsum => at32 (quotaSum s) 0
    | .spStatus => spStatusWord s
    | .spSStat m => at32 (stream s m).window.length 25 ||| at32 (streamUsed s m) 0
    | .jrStatus => jrStatusWord s
    | .jrFill => at32 s.jr.fill 0
    | .jrPend => at32 (pendCount s) 0
    | .jrTuse => at32 (journalUse s (selected s t)) 0
    | .jrCsize => at32 s.jr.digest.size 0
    | .jrDigest i => s.jr.digest.value.getD i 0
    | .jrSuspInfo => match suspectShown s with
      | some x => at32 1 31 ||| at32 x.cause 28 ||| at32 x.len 0
      | none => 0
    | .tnStatus => tnStatusWord s
    | .tnSel => (tenant s t).sel
    | .tnCapData => recW (recordOf s (selected s t)) (fld (tenant s t).sel 16 9)
    | .tnState => tnStateWord s (selected s t)
    | .tnTAfail => (tenant s (selected s t)).afail
    | .tnTReplay => (tenant s (selected s t)).replays
    | .tnFailLog => headWord s.tn.failLog
    | .tnSelf => at32 t 0
    | .adStatus => adStatusWord s
    | .stStatus => stStatusWord s
    | .stLbPend => s.st.lbPend
    | .stLbRun => s.st.lbRun
    | .stLbOk => s.st.lbOk
    | .stQuar => s.byre.quar
    | .stAstLog => headWord s.st.astLog
    | .flStatus => flStatusWord s
    | .flIrqSrc => irqSrc s
    | .flLogSeq => at32 s.fl.seq 0
    | .flSafe => flSafeWord s
    | .flEccDataCnt => eccShown s 0
    | .flEccChkCnt => eccShown s 1
    | .flEccUncCnt => eccShown s 2
    | .flOvfData => flOvfWord s
    | .flOvfLog => headWord s.fl.ovfLog
    | .byStatus => byStatusWord s
    | .byClk => reg s r ||| at32 (b2n s.byre.xok) 8
    | .byKclkMeas => if s.tb.ts == .locked then reg s r else 0
    | .byKcThr i => reg s r ||| at32 (b2n (kcomp s i).pend) 31
    | .byKcLatch i => reg s r ||| at32 (bitsOf [(kcomp s i).sA, (kcomp s i).sB]) 4
    | .byKtCount => at32 (ktCount s) 0
    | .byBoot => at32 s.byre.boot 0
    | .byRramData => rramGet s (rramIdx s)
    | _ => reg s r

/-! ### Who may read (R375) -/

/-- Tenant t holds some right, or CONSUME, on a channel numbered as in `Ev`. -/
def chanRight (s : State) (t ch : Nat) (m c : Nat) : Bool :=
  if ch < 256 then milkRight s t m ch else clusRight s t ((ch - 256) / 32) c ((ch - 256) % 32)
def consumes (s : State) (t ch : Nat) : Bool := chanRight s t ch 17 3
def controls (s : State) (t ch : Nat) : Bool := chanRight s t ch 33 5
def anyRight (s : State) (t ch : Nat) : Bool := consumes s t ch || chanRight s t ch 25 4 || controls s t ch

/-- Tenant t has a context in cluster c. -/
def hasCtx (s : State) (t c : Nat) : Bool := !(validCtxs s t c).isEmpty
/-- Tenant t owns context x. -/
def ownsCtx (s : State) (t x : Nat) : Bool := ctxValid (ctx s x) && ctxTenant (ctx s x) == t
/-- Tenant t owns a lane of cluster c. -/
def hasLane (s : State) (t c : Nat) : Bool := (List.range 16).any fun n => laneOwner s c n == some t

/-- Tenant t may read register r, besides the steward (R78, R134, R168, R186, R224, R303, R340, R375, R385, R447, R521,
R551, R582). -/
def tenantReads (s : State) (t : Nat) : Reg → Bool
  | .idPart | .idJtag | .idUidLo | .idUidHi => true
  | .tbCtrl | .tbLockCfg | .tbStatus | .tbEvents | .tbPherr | .tbPherrMax | .tbFofs | .tbFofsNow | .tbSyncCfg => true
  | .tbSyncDiff | .tbTsetLo | .tbTsetHi | .tbTimeLo | .tbTimeHi | .tbEpoch | .tbBand | .tbFlushEdge | .tbFlushHit => true
  | .tbTrunc | .tbDisc | .tbGated _ => true
  | .asCtrl | .asStatus | .asEvents | .asPlanRatio _ | .asPlanBand _ | .asCkoCfg _ | .asCkoPhase _ => true
  | .frSetLo | .frSetHi | .frCountLo | .frCountHi | .frPeriod => true
  | .clInfo c => hasLane s t c || hasCtx s t c
  | .clBudCap c | .clBudSum c | .clBudStatus c | .clBudExh c | .clBudSysLast c | .clBudSysMin c => hasCtx s t c
  | .sqFaulted _ _ | .sqHalted _ _ => true
  | .ctxCfg x | .ctxBud x | .ctxIwin x | .ctxDwin x | .ctxEntry x | .ctxCtrl x | .ctxState x | .ctxPc x | .ctxFlags x
  | .ctxFault x | .ctxRem x | .ctxExh x | .ctxRetLo x | .ctxRetHi x | .ctxDbg x | .ctxRstk x | .ctxG x _ | .ctxT x _ =>
    ownsCtx s t x
  | .clWovr c n => ownsCtx s t (64 * c + n)
  | .clLovr c => hasLane s t c
  | .evMcCtl n | .evMcProd n _ => anyRight s t n
  | .evMcCnt n | .evMcDis n => consumes s t n
  | .clCcCtl c n | .clCcProd c n _ => anyRight s t (256 + 32 * c + n)
  | .clCcCnt c n | .clCcDis c n => consumes s t (256 + 32 * c + n)
  | .evGrpCfg g => groupRight s t g
  | .evGrpEn _ => true
  | .lnCfg k | .lnCtrl k | .lnStatus k | .lnEvents k | .lnOwner k | .lnSkew k | .lnCtabIdx k | .lnCtabData k | .lnCalInfo k
  | .lnSpot k | .lnSkewSh k | .lnCalpath k | .lnLateCnt k | .lnFullCnt k | .lnDiscCnt k | .lnTruncCnt k | .lnFiredLo k
  | .lnFiredHi k | .lnOcCnt k | .lnDropLog k => ownsPulse s t k
  | .sgLState k | .sgLPos k | .sgLBaseLo k | .sgLBaseHi k | .sgLCtrl k | .sgLEvents k | .sgLPasses k => ownsPulse s t k
  | .slCfg k | .slCtrl k | .slStatus k | .slEvents k | .slOwner k | .slThr k | .slThrNow k | .slLatch k | .slBlnk k
  | .slEvcfg k | .slCapwin k | .slInpath k | .slTrim k | .slBinIdx k | .slBinData k | .slCalInfo k | .slHitLo k | .slHitHi k
  | .slDeadCnt k | .slQlossCnt k | .slBlankCnt k | .slOvfCnt k | .slToterrCnt k | .slFlushCnt k => ownsStamp s t k
  | .rgCfg k | .rgGate k | .rgCtrl k | .rgStatus k | .rgLevents k | .rgResult k | .rgRes k _ => ownsStamp s t k
  | .rgDone _ => true
  | .sgCfg _ | .sgActive _ => true
  | .sgDOwn c d | .sgDLoc c d | .sgDLen c d | .sgDSeq c d => descHeld s c d t
  | .spSCfg m | .spSQuota m | .spSLoss m | .spSStat m => streamOwner s m == t
  | .spWCfg u _ | .spWMask u _ | .spWOfs u _ | .spWWid u _ => u == t
  | .jrDigest _ | .jrDframeLo | .jrDframeHi | .jrCsize | .jrTuse => true
  | .tnSel | .tnCapData | .tnState | .tnCtrLo | .tnCtrHi | .tnResvLo | .tnResvHi | .tnTAfail | .tnTReplay | .tnSelf => true
  | .adECfg i | .adEResLo i | .adEResHi i | .adECnt i => rfld s (.adECfg i) 0 10 == t
  | .adSys _ | .adStatus => service s t 4
  | _ => false

/-- Tenant t may read register r. -/
def mayRead (s : State) (t : Nat) (r : Reg) : Bool := t == 0 || tenantReads s t r

/-! ### A read (R15-R19, R539, R547-R549) -/

def pathNo : Path → Nat
  | .p0 => 0
  | .p1 => 1
  | .mspi => 2
  | .jtag => 3

/-- The shadow of the word at address a on a path. -/
def shadowAt (s : State) (p : Path) (a : Nat) : W32 := tget 0 (pathNo p * 2 ^ 32 + a) s.shadow
def setShadow (p : Path) (a : Nat) (v : W32) (s : State) : State :=
  { s with shadow := tset 0 (pathNo p * 2 ^ 32 + a) v s.shadow }

/-- What reading register r leaves behind: shadows latched, RC fields cleared, RP entries removed. -/
def readEffect (w : Who) (r : Reg) (s : State) : State :=
  let s := match highOf r, wide s w.tenant r with
    | some h, some v => setShadow w.path (regAddr h) (hi32 v) s
    | _, _ => s
  match r with
  | .rgRes k 0 => forL (fun i s => setShadow w.path (regAddr (.rgRes k i)) (rgResWord s k i) s)
      ((List.range 10).filter (· != 0)) s
  | .tbPherrMax => rcRead .tbPherrMax 0 s
  | .clBudSysMin c => rcRead (.clBudSysMin c) 0xFFFF s
  | .lnDropLog k => modPulse k (fun l => { l with dropLog := l.dropLog.tail }) s
  | .tnFailLog => { s with tn := { s.tn with failLog := s.tn.failLog.tail } }
  | .ptTtcBc => { s with ttc := { s.ttc with bc := s.ttc.bc.tail } }
  | .stAstLog => { s with st := { s.st with astLog := s.st.astLog.tail } }
  | .flOvfLog => { s with fl := { s.fl with ovfLog := s.fl.ovfLog.tail } }
  | .byRramData => setRfld .byRramAddr 2 10 (rramIdx s + 1) s
  | _ => s

/-- The cluster whose address range holds a. -/
def clusterAt (a : Nat) : Option Nat := if 0x1000000 ≤ a ∧ a < 0x3000000 then some ((a - 0x1000000) / 0x100000) else none

/-- The word of a cluster memory at address a: cluster, whether of data memory, word, and whether the upper half
(R545, R546, R548). -/
def memAt (a : Nat) : Option (Nat × Bool × Nat × Bool) :=
  match clusterAt a with
  | none => none
  | some c =>
    let o := a % 0x100000
    if a % 4 ≠ 0 then none
    else if 0x40000 ≤ o ∧ o < 0x48000 then some (c, false, (o - 0x40000) / 4, false)
    else if 0x60000 ≤ o ∧ o < 0x64000 then some (c, true, (o - 0x60000) / 8, o % 8 == 4)
    else none

/-- Tenant t reads word i of a memory of cluster c: it lies in the tenant's grant. -/
def memReads (s : State) (t c : Nat) (data : Bool) (i : Nat) : Bool :=
  t == 0 || (let g := if data then dataGrant (capWord s t (64 + 8 * c + 2)) else codeGrant (capWord s t (64 + 8 * c + 1))
    decide (g.1 ≤ i) && decide (i < g.1 + g.2))

/-- A read of a word of a cluster memory (R548): 0 and a report for a word with an uncorrectable error (R532). -/
def memRead (w : Who) (peek : Bool) (a c : Nat) (data : Bool) (i : Nat) (upper : Bool) (s : State) : W32 × State :=
  if !memReads s w.tenant c data i then (0, s)
  else
    if data && upper then (shadowAt s w.path a, s)
    else if (if data then dataBad s c i else codeBad s c i) then
      (0, if peek then s else eccMulti (b2n data) c i 0 (if data then setShadow w.path (a + 4) 0 s else s))
    else if data then
      let v := dataAt s c i
      (lo32 v, if peek then s else setShadow w.path (a + 4) (hi32 v) s)
    else (codeAt s c i, s)

/-- The value that a read of register r returns: of a counter that increments in the present lane cycle, the value before
(R540). -/
def readView (w : Who) (r : Reg) (s : State) : W32 :=
  if readsShadow r then shadowAt s w.path (regAddr r)
  else match (accNow s).olds.find? fun p => p.1 == regAddr r && isCounter r with
    | some p => p.2
    | none => regView s w.tenant r

/-- One register read at an address by an issuer, with its side effects. -/
def busRead (w : Who) (addr : Nat) (s : State) : W32 × State :=
  let peek := decide (2 ^ 31 ≤ addr)
  let a := addr % 2 ^ 31
  let out := (clusterAt a).any (outOfService s)
  if out then (0, s)
  else match memAt a with
    | some (c, data, i, upper) => memRead w peek a c data i upper s
    | none => match regOfAddr a with
      | none => (0, s)
      | some r =>
        if !mayRead s w.tenant r then (0, s)
        else
          (readView w r s, if peek then s else readEffect w r s)

/-- The registers at COUNT consecutive addresses. -/
def busReads (w : Who) : Nat → Nat → State → List W32 × State
  | 0, _, s => ([], s)
  | n + 1, a, s =>
    let (v, s) := busRead w a s
    let (l, s) := busReads w n (a + 4) s
    (v :: l, s)

/-- What has come due by the present lane cycle has come about before a register is read: truncations, broadcasts at their
WAITs, the boundaries of playbacks, the pins of R338. -/
def upToNow (s : State) : State := xoffs (broadcastsDue (lc s) (boundariesDue (lc s) (cutsDue s)))

/-- A row that reads one register. -/
def readRow (w : Who) (a : Nat) (s : State) : State :=
  let (v, s) := busRead w a (upToNow s)
  { s with busData := [v] }

/-- The row's condition: the core runs, and its registers answer (R450, R469). -/
def readable (s : State) : Bool := s.released

def execClBudSysMinRead (who : Who) (c : Nat) (s : State) : Res :=
  onUnit (c < 32) (when (readable s) (readRow who (regAddr (.clBudSysMin c))) s)
def execTbPherrMaxRead (who : Who) (s : State) : Res := .next (when (readable s) (readRow who (regAddr .tbPherrMax)) s)
def execLnDropLogRead (who : Who) (k : Nat) (s : State) : Res :=
  onUnit (k < 256) (when (readable s) (readRow who (regAddr (.lnDropLog k))) s)
def execRgRes0Read (who : Who) (k : Nat) (s : State) : Res :=
  onUnit (k < 256) (when (readable s) (readRow who (regAddr (.rgRes k 0))) s)
def execTnFailLogRead (who : Who) (s : State) : Res := .next (when (readable s) (readRow who (regAddr .tnFailLog)) s)
def execPtTtcBcRead (who : Who) (s : State) : Res := .next (when (readable s) (readRow who (regAddr .ptTtcBc)) s)
def execByRramDataRead (who : Who) (s : State) : Res := .next (when (readable s) (readRow who (regAddr .byRramData)) s)
def execStAstLogRead (who : Who) (s : State) : Res := .next (when (readable s) (readRow who (regAddr .stAstLog)) s)
def execFlOvfLogRead (who : Who) (s : State) : Res := .next (when (readable s) (readRow who (regAddr .flOvfLog)) s)

/-- LOW_WORD_READ: a read of the low word of a pair, or of data memory, latches its high word (R539). -/
def execLowWordRead (who : Who) (addr : Nat) (s : State) : Res := .next (when (readable s) (readRow who addr) s)

end Sys2Proof.Machine
end

