-- ==== Sys2Proof/Machine/RegApply.lean ====
section
/-! DEFINITION. Registers whose writes are journal records (R423): which they are, the checks of step 8 that are made again at
the application (R429, R432), and the effect of the record at its tick. -/
namespace Sys2Proof.Machine

/-- A write of the register becomes a REG record (R224, R287, R340, R355, R476, R521). -/
def isRecord : Reg → Bool
  | .ctxCfg _ | .ctxBud _ | .ctxIwin _ | .ctxDwin _ | .ctxEntry _ => true
  | .sgDOwn _ _ | .sgDLoc _ _ | .sgDLen _ _ | .sgDSeq _ _ => true
  | .spCfg | .spDevid | .spChain | .spChin | .spWm0 | .spWm1 | .spWmc | .spTev _ | .spSCfg _ | .spSQuota _ => true
  | .spWCfg _ _ | .spWMask _ _ | .spWOfs _ _ | .spWWid _ _ => true
  | .evMcProd _ _ | .clCcProd _ _ _ | .evTtf _ | .evAdcSel => true
  | .adCfg | .adFt | .adECfg _ => true
  | .byCfg | .byPseq | .byWake | .byClk | .byKtCfg | .byKtReload | .byKcCfg _ | .byKcThr _ | .byKcBlnk _ => true
  | _ => false

/-- A register kept by a replay record (R580, Table 20-4). -/
def isReplayed : Reg → Bool
  | .tbCtrl | .tbLockCfg | .tbFofs | .tbSyncCfg | .asCtrl | .asPlanRatio _ | .asPlanBand _ | .asCkoCfg _ | .asCkoPhase _ => true
  | .frBudJr | .frBudLb | .frCtrl => true
  | .lnCfg _ | .slCfg _ | .slThr _ | .slBlnk _ | .slEvcfg _ | .slCapwin _ | .slTrim _ => true
  | .rgCfg _ | .rgGate _ | .sqCfg _ | .sgCfg _ => true
  | _ => false

/-- A register of the Byre: its clock is the keeper clock (R32, R352, R550). -/
def isByre : Reg → Bool
  | .byStatus | .byEvents | .byCtrl | .byCfg | .byPseq | .byWake | .byClk | .byKclkMeas | .byKtCfg | .byKtReload => true
  | .byKtCount | .byBoot | .byRramAddr | .byRramData => true
  | .byKcCfg _ | .byKcThr _ | .byKcBlnk _ | .byKcLatch _ => true
  | .evMcCtl n | .evMcProd n _ | .evMcCnt n | .evMcDis n => 248 ≤ n
  | _ => false

/-! ### Context entries (R100, R198, R203) and admission (R91) -/

/-- The configuration as committed: what waits for a lock to end counts (R429). -/
def settled (s : State) : State :=
  forL (fun x s => match (ctx s x).next with
    | some v => modCtx x (fun u => { u with cfg := v.1, iwin := v.2.1, dwin := v.2.2, next := none }) s
    | none => s) (s.cx.map (·.1)) s

/-- Windows lie inside the grants of tenant t in cluster c: the one in force and, while a grant waits, the new one too
(R198, R373). -/
def winsGranted (s : State) (t c : Nat) (iw dw : W32) : Bool :=
  let old := (codeGrant (capWord s t (64 + 8 * c + 1)), dataGrant (capWord s t (64 + 8 * c + 2)))
  let new := grantsOf (recordOf s t) c
  inside (codeGrant iw) old.1 && inside (codeGrant iw) new.1 && inside (dataGrant dw) old.2 && inside (dataGrant dw) new.2

/-- The valid contexts of cluster c other than x. -/
def othersOf (s : State) (x : Nat) : List Nat :=
  (ctxsOf s (x / 64)).filter fun y => y != x && ctxValid (ctx s y)

/-- An entry for context x is refused (R100, R198, R203). The checks against a tenant's record apply where VALID is 1, since
otherwise the context belongs to no tenant (R188). -/
def entryBad (s : State) (x : Nat) (cfg iw dw : W32) (bud : Nat) : Bool :=
  let c := x / 64
  let t := fld cfg 0 10
  let share := fld cfg 20 8
  let mine := (othersOf s x).filter fun y => ctxTenant (ctx s y) == t
  let w0 := capWord s t (64 + 8 * c)
  decide (128 < fld iw 0 7 + fld iw 16 8) || decide (256 < fld dw 0 8 + fld dw 16 9) ||
  (fld cfg 30 1 == 1 && (ctxsOf s c).any fun y => y != x && fld (ctx s y).cfg 30 1 == 1) ||
  (fld cfg 31 1 == 1 &&
    (!winsGranted s t c iw dw || decide (fld w0 16 7 < mine.length + 1) ||
     decide (fld w0 0 14 < bud + lsum (mine.map fun y => (ctx s y).bud)) ||
     (share != 0 && (othersOf s x).any fun y => shareOf (ctx s y) == share && ctxTenant (ctx s y) != t)))

/-- The admission capacity of a cluster for a period of P lane cycles, granules (R90). -/
def capacity (p : Nat) : Nat := 9 * p / 20

/-- The sum of the budgets of cluster c. -/
def clusterSum (s : State) (c : Nat) : Nat := lsum ((ctxsOf s c).map fun x => (ctx s x).bud)

/-- A budget for context x does not fit its cluster, and raises the sum (R91). -/
def budgetBad (s : State) (x bud : Nat) : Bool :=
  let old := clusterSum s (x / 64)
  let new := old - (ctx s x).bud + bud
  decide (capacity s.fr.period < new) && decide (old < new)

/-! ### Producer slots (R342, Table 12-1) -/

/-- The lane or cluster an index names belongs to cluster c. -/
def ownUnit (kind idx c : Nat) : Bool :=
  match kind with
  | 1 => pulseCl idx == c
  | 2 => stampCl idx == c
  | 3 => stampCl idx == c
  | 4 => idx == c
  | _ => true

/-- Table 12-1: a producer code may stand in a slot of channel ch. -/
def codeAllowed (ch code : Nat) : Bool :=
  let kind := code / 256
  let idx := code % 256
  let keeper := decide (248 ≤ ch) && decide (ch < 256)
  let clus := decide (256 ≤ ch)
  match kind with
  | 0 => idx == 0
  | 1 => !keeper && (!clus || ownUnit 1 idx ((ch - 256) / 32))
  | 2 => !keeper && (!clus || ownUnit 2 idx ((ch - 256) / 32))
  | 3 => !keeper && (!clus || ownUnit 3 idx ((ch - 256) / 32))
  | 4 => !keeper && idx < 32 && (!clus || ownUnit 4 idx ((ch - 256) / 32))
  | 5 => !keeper && idx == 0
  | 6 => !keeper && idx < 2
  | 7 => !keeper && idx < 8
  | 8 => !keeper && !clus && idx == 0
  | 9 => keeper && idx < 8
  | 0xA => keeper && idx == 0
  | 0xB => keeper && idx < 4
  | 0xC => clus
  | _ => false

/-- A producer word of channel ch is refused. -/
def prodBad (ch : Nat) (v : W32) : Bool := !codeAllowed ch (fld v 0 12) || !codeAllowed ch (fld v 16 12)

/-! ### Streams (R305, R336) -/

/-- The stream configuration with SP_Sm_CFG written: every tenant with enabled streams has one home stream. -/
def homesBad (s : State) (m : Nat) (v : W32) : Bool :=
  let s := setReg (.spSCfg m) (v &&& regRwMask (.spSCfg m)) s
  let on := (streamNos s).filter (streamOn s)
  on.any fun a => (on.filter fun b => streamOwner s b == streamOwner s a && rbit s (.spSCfg b) 30).length != 1

/-- SIZE and the quotas exceed the buffer in a configuration. -/
def quotaBad (s : State) : Bool := decide (1024 < quotaSum s)

/-! ### The checks of a REG record (R429, R432) -/

/-- CHAN and SEL of an ADC entry written by tenant t (R521). -/
def adcEntryBad (s : State) (t : Nat) (v : W32) : Bool :=
  let chan := fld v 21 6
  let sel := fld v 12 9
  decide (0x14 ≤ chan) && decide (chan < 0x20) ||
  (chan != 0x12 && chan != 0x13 && sel != 0) ||
  (t != 0 && (chan == 0x13 || (chan == 0x12 && !ownsStamp s t (sel % 256))))

/-- A window configuration of tenant u is refused (R319; SRC 0b11 by its field table). -/
def windowBad (s : State) (u w : Nat) (v : W32) : Bool :=
  fld v 28 2 == 3 ||
  (fld v 31 1 == 1 && decide (fld (capWord s u 0) 8 4 ≤ w)) ||
  (fld v 28 2 == 1 && !milkRight s u 17 (rfld s (.spTev (fld v 24 4)) 0 8))

/-- A descriptor's LOC is refused: outside its owner's data grant, or no entries (R287); one that no tenant holds has no
grant. -/
def locBad (s : State) (c d : Nat) (v : W32) : Bool :=
  let a := fld v 0 11
  let n := fld v 16 12
  n == 0 || decide (2048 < a + n) || !rbit s (.sgDOwn c d) 31 ||
    !inside (a, n) (dataGrant (capWord s (rfld s (.sgDOwn c d) 0 10) (64 + 8 * c + 2)))

/-- Whether a write of value v to register r by tenant t is refused with CAPABILITY_DENIED, against the configuration in s.
(log entry 47, DEDUCED) -/
def regBad (s : State) (t : Nat) (r : Reg) (v : W32) : Bool :=
  match r with
  | .ctxCfg x => entryBad s x v (ctx s x).iwin (ctx s x).dwin (ctx s x).bud
  | .ctxIwin x => entryBad s x (ctx s x).cfg v (ctx s x).dwin (ctx s x).bud
  | .ctxDwin x => entryBad s x (ctx s x).cfg (ctx s x).iwin v (ctx s x).bud
  | .ctxBud x => entryBad s x (ctx s x).cfg (ctx s x).iwin (ctx s x).dwin (fld v 0 14)
  | .sgDLoc c d => locBad s c d v
  | .sgDLen _ _ => v == 0
  | .spChin => quotaBad (setReg .spChin (v &&& regRwMask .spChin) s)
  | .spSQuota m => quotaBad (setReg (.spSQuota m) (v &&& regRwMask (.spSQuota m)) s)
  | .spSCfg m => homesBad s m v || quotaBad (setReg (.spSCfg m) (v &&& regRwMask (.spSCfg m)) s)
  | .spWm0 | .spWm1 | .spWmc => decide (fld v 16 11 ≤ fld v 0 11)
  | .spWCfg u w => windowBad s u w v
  | .spWWid _ _ => v == 0
  | .evMcProd n _ => prodBad n v
  | .clCcProd c n _ => prodBad (256 + 32 * c + n) v
  | .adECfg _ => adcEntryBad s t v
  | _ => false

/-- The event bit a refused write of register r sets. -/
def rejectFlag (r : Reg) (v : W32) (s : State) : State :=
  match r with
  | .spChin | .spSQuota _ => raise .spEvents 7 s
  | .spSCfg m => if quotaBad (setReg (.spSCfg m) (v &&& regRwMask (.spSCfg m)) s) then raise .spEvents 7 s else s
  | .spWm0 | .spWm1 | .spWmc => raise .spEvents 6 s
  | .evMcProd _ _ => raise .evEvents 0 s
  | .clCcProd c _ _ => raise (.clEvstat c) 0 s
  | .adCfg | .adFt | .adECfg _ => raise .adEvents 4 s
  | _ => s

/-! ### The effect of a REG record at its tick -/

/-- Part of a context's entry comes into force (R207). -/
def entryPart (x : Nat) (f : W32 × W32 × W32 → W32 × W32 × W32) (s : State) : State := ctxEntryApply x (f (ctxEntryNow s x)) s

/-- A mirror write of the bits `mask` is under way: it applies at the second keeper-clock edge from now (R550). -/
def toMirror (a : Nat) (mask v : W32) (s : State) : State :=
  modBy (fun b => { b with mirror := b.mirror ++ [{ due := b.kc + 2, addr := a, mask := mask, value := v &&& mask }] }) s

/-- The steward-only fields of a channel's CTL or a group's CFG (R355). -/
def stewardPart : Reg → W32
  | .evMcCtl _ => 0x0000BF00
  | .clCcCtl _ _ => 0x0000BF00
  | .evGrpCfg _ => 0x01FF01FF
  | _ => 0

/-- A number at least m. -/
def atLeast (r : Reg) (lo n m : Nat) (s : State) : State := setRfld r lo n (max m (rfld s r lo n)) s

/-- Register r takes the value of its REG record. -/
def regTakes (r : Reg) (v : W32) (s : State) : State :=
  match r with
  | .ctxCfg x => entryPart x (fun e => (v &&& regRwMask r, e.2.1, e.2.2)) s
  | .ctxIwin x => entryPart x (fun e => (e.1, v &&& regRwMask r, e.2.2)) s
  | .ctxDwin x => entryPart x (fun e => (e.1, e.2.1, v &&& regRwMask r)) s
  | .ctxBud x => modCtx x (fun u => { u with bud := fld v 0 14 }) s
  | .ctxEntry x => modCtx x (fun u => { u with entry := v &&& regRwMask r }) s
  | .spCfg => atLeast .spCfg 16 16 128 (writeRw r v s)
  | .spSQuota m => atLeast (.spSQuota m) 20 12 1 (writeRw r v s)
  | .spChain => followUp 3 (xoffInActs (writeRw r v s))
  | .spSCfg _ => xoffs (writeRw r v s)
  | .spWm0 | .spWm1 | .spWmc => xoffs (writeRw r v s)
  | .evAdcSel => adcSelSet v s
  | .evMcProd n _ => if n < 248 then producersChanged n (writeRw r v s) else toMirror (regAddr r) (regRwMask r) v s
  | .clCcProd c n _ => producersChanged (256 + 32 * c + n) (writeRw r v s)
  | .adFt => atLeast .adFt 16 12 1 (writeRw r v s)
  | .evMcCtl n =>
    if 248 ≤ n then toMirror (regAddr r) (stewardPart r) v s
    else setReg r ((reg s r &&& ~~~(stewardPart r)) ||| (v &&& stewardPart r)) s
  | .clCcCtl _ _ => setReg r ((reg s r &&& ~~~(stewardPart r)) ||| (v &&& stewardPart r)) s
  | .evGrpCfg _ => setReg r ((reg s r &&& ~~~(stewardPart r)) ||| (v &&& stewardPart r)) s
  | _ => if isByre r then toMirror (regAddr r) (regRwMask r) v s else writeRw r v s

end Sys2Proof.Machine
end

