-- ==== Sys2Proof/Machine/Direct.lean ====
section
/-! DEFINITION. Register writes that act directly: the effect of each register's value, in the unit it belongs to. Rights, and
what becomes a journal record, stand in RegWrite.lean. -/
namespace Sys2Proof.Machine

/-! ### Frames (R101) -/

/-- A frame period in range. -/
def periodOk (p : Nat) : Bool := decide (80 ≤ p) && decide (p ≤ 20480)

/-- A request to change the period waits for the next tick, in the place of one that waits for it already; one out of range is
ignored (R101). (log entry 24, DEDUCED) -/
def periodRequest (p : Nat) (byRecord : Bool) (s : State) : State :=
  if periodOk p then { s with fr := { s.fr with pend := some p, pendBy := byRecord } } else raise .frEvents 4 s

/-- A write of FR_CTRL; APPLY takes FR_PERIOD_REQ as it stands at the write (R101; log entry 24, DEDUCED). -/
def frCtrlApply (v : W32) (s : State) : State :=
  let s := writeRw .frCtrl v s
  if fld v 0 1 = 1 then periodRequest (rfld s .frPeriodReq 0 15) false s else s

/-- A write of FR_BUD_LB: SLICE of 0 or above 40 is stored as 40, MAXCL of 0 as 1 and above 4 as 4. -/
def frBudLbApply (v : W32) (s : State) : State :=
  let sl := fld v 8 6
  let mc := fld v 0 3
  setReg .frBudLb (at32 (if sl = 0 ∨ 40 < sl then 40 else sl) 8 ||| at32 (if mc = 0 then 1 else min mc 4) 0) s

/-! ### Contexts (R190, R219-R223, R491) -/

/-- A run-control request is refused with a code. -/
def cmdRefused (x code : Nat) (s : State) : Nat × State := (code, raise (.sqEvents (x / 64)) 3 s)

/-- A run-control request on context x, by its bit of SQ_CTX_CTRL: START 0, STOP 1, HALT 2, RESUME 3, STEP 4, FORCE 5. The
answer is 0 or the code of the refusal. -/
def ctxCommand (k x : Nat) (s : State) : Nat × State :=
  let u := ctx s x
  let ok (c : Bool) (f : State → State) : Nat × State := if c then (0, f s) else cmdRefused x 0x0A s
  let free (c : Bool) (f : State → State) : Nat × State :=
    match held s (x / 64) with
    | some code => cmdRefused x code s
    | none => ok c f
  match k with
  | 0 => free (startOk u) (modCtx x fun u => { u with startPend := true, autoStart := false })
  | 1 => ok (u.state != .free) (stopCtx x)
  | 2 => ok (haltOk u) (haltReq x)
  | 3 => ok (u.state == .halted) (resumeCtx x false)
  | 4 => free (u.state == .halted) (resumeCtx x true)
  | _ => ok (u.haltPend && u.l) (forceCtx x)

/-- A write of SQ_CTX_CTRL: STOP acts alone; the other bits act in order, to the first that is refused (R190). -/
def ctxCtrlApply (x : Nat) (v : W32) (s : State) : Nat × State :=
  if fld v 1 1 = 1 then ctxCommand 1 x s
  else ([0, 2, 3, 4, 5].filter fun b => fld v b 1 == 1).foldl
    (fun p b => if p.1 = 0 then ctxCommand b x p.2 else p) (0, s)

/-- A write of a debug register of context x: taken in STOPPED and HALTED only (R223). -/
def debugWrite (x : Nat) (f : State → State) (s : State) : State :=
  if (ctx s x).state = .stopped ∨ (ctx s x).state = .halted then f s else raise (.sqEvents (x / 64)) 2 s

/-- The flags that a word spells. -/
def flagsWritten (v : W32) : Flags := { z := bitAt v 0, n := bitAt v 1, c := bitAt v 2, v := bitAt v 3 }

/-- Word j of the time registers of context x written. -/
def tWordWrite (x j : Nat) (v : W32) (s : State) : State :=
  let w := tOf s x (j / 2)
  setT x (j / 2) (if j % 2 = 0 then cat64 (hi32 w) v else cat64 v (lo32 w)) s

/-! ### Ports, tenants, counters -/

/-- A write of PT_Pn_CFG: HTMO and HPER below 10 are stored as 10; EN takes the port DOWN (R393). -/
def ptCfgApply (p : Nat) (v : W32) (s : State) : State :=
  followUp p (atLeast (.ptCfg p) 4 12 10 (atLeast (.ptCfg p) 16 16 10 (writeRw (.ptCfg p) v s)))

/-- A write of PT_TTC_CFG: MGAP of 0 is stored as 1; EN at 0 stops the receiver, and nothing is released. -/
def ttcCfgApply (v : W32) (s : State) : State :=
  let s := ttcChange (fun s => atLeast .ptTtcCfg 4 12 1 (writeRw .ptTtcCfg v s)) s
  if ttcEn s then s else noLink (modTtc (fun t => { t with lock := false, matched := false, release := [] }) s)

/-- A write of TN_SEL by tenant t (R385). -/
def tnSelApply (t : Nat) (v : W32) (s : State) : State :=
  modTenant t (fun u => { u with sel := at32 (min 319 (fld v 16 9)) 16 ||| at32 (if t = 0 then fld v 0 10 else t) 0 }) s

/-- A write of FL_OVF_DATA clears the flags of the counter named, but one set in the same lane cycle: a new carry leaves OVF
at 1 with the new frame (R15, R540). -/
def ovfClear (v : W32) (s : State) : State :=
  let a := ovfAddr s
  let o := ovfFlag s a
  let c := accNow s
  let new := bitAt v 31 && c.carries.contains a
  let o := { ovf := o.ovf && (!bitAt v 31 || new), lost := o.lost && (!bitAt v 30 || c.losts.contains a),
             frame := if new then s.fr.count else o.frame }
  if hasFlag a then { s with fl := { s.fl with ovf := tset OvfFlag.reset a o s.fl.ovf } } else s

/-- A write of FL_CTR_CLR: the counter is cleared at the start of the second lane cycle after (R541). -/
def ctrClear (v : W32) (s : State) : State :=
  let a := v.toNat / 4 * 4
  if hasFlag a then { s with fl := { s.fl with clears := s.fl.clears ++ [(lc s + 2, a)] } } else s

/-! ### The effect of a direct write -/

/-- The value v of a write by tenant t acts in register r. Byre registers and JR_CTRL act elsewhere. -/
def regActs (t : Nat) (r : Reg) (v : W32) (s : State) : State :=
  match r with
  | .tbCtrl => tbCtrlApply t v s
  | .tbLockCfg => tbLockCfgApply v s
  | .tbFofs => tbFofsApply v s
  | .asCtrl => asCtrlApply v s
  | .asPlanRatio p => planRatioApply p v s
  | .asCkoCfg n => ckoCfgApply n v s
  | .frCtrl => frCtrlApply v s
  | .frBudJr => setReg r (at32 (max 625 (fld v 0 16)) 0) s
  | .frBudLb => frBudLbApply v s
  | .evMcCtl n => enableRequest (lc s + 2) n (bitAt v 31) s
  | .clCcCtl c n => enableRequest (lc s + 2) (256 + 32 * c + n) (bitAt v 31) s
  | .evGrpCfg g => enableRequest (lc s + 2) (2048 + g) (bitAt v 31) s
  | .clLev c n => clLevApply c n v s
  | .lnCfg k => lnCfgApply k v s
  | .lnCtrl k => lnCtrlApply k v s
  | .lnSkewSh k => lnSkewShApply k v s
  | .lnCtabData k => lnCtabApply k v s
  | .slCfg k => slCfgApply k v s
  | .slCtrl k => slCtrlApply k v s
  | .slThr k => slThrApply k v s
  | .slLatch k => slLatchClear k v s
  | .slEvcfg k => slEvcfgApply k v s
  | .slTrim k => slTrimApply k v s
  | .slBinData k => slBinApply k v s
  | .rgCfg k => rgCfgApply k v s
  | .rgCtrl k => rgCtrlApply k v s
  | .sqCfg _ => setReg r (at32 (min 1024 (max 16 (fld v 0 11))) 0) s
  | .sgCfg _ => setReg r (at32 (max 12 (fld v 0 12)) 0) s
  | .sgLCtrl k => if bitAt v 0 then requestStop k (lc s) (boundaryDue k (lc s) s) else s
  | .ctxCtrl x => (ctxCtrlApply x v s).2
  | .ctxPc x => debugWrite x (modCtx x fun u => { u with pc := v.setWidth 13 }) s
  | .ctxFlags x => debugWrite x (setFlags x (flagsWritten v)) s
  | .ctxRstk x => debugWrite x id s
  | .ctxG x i => debugWrite x (setG x i v) s
  | .ctxT x j => debugWrite x (tWordWrite x j v) s
  | .ctxDbg x => modCtx x (fun u => { u with dbg := v &&& 0x80001FFF }) s
  | .ptCfg p => ptCfgApply p v s
  | .ptTtcCfg => ttcCfgApply v s
  | .tnSel => tnSelApply t v s
  | .flOvfData => ovfClear v s
  | .flCtrClr => ctrClear v s
  | _ => writeW1c r v (writeRw r v (noteWrite r s))

/-- The event bits by which the unit of register r reports a value it refuses. -/
def refusalBits : Reg → List (Reg × Nat)
  | .tbCtrl => [(.tbEvents, 9), (.tbEvents, 11)]
  | .tbFofs => [(.tbEvents, 4)]
  | .asCtrl => [(.asEvents, 3)]
  | .asCkoCfg _ => [(.asEvents, 3)]
  | .frCtrl => [(.frEvents, 4)]
  | .lnCfg k => [(.lnEvents k, 10)]
  | .lnSkewSh k => [(.lnEvents k, 10)]
  | .slCfg k => [(.slEvents k, 7)]
  | .slCtrl k => [(.slEvents k, 7)]
  | .slThr k => [(.slEvents k, 7)]
  | .slTrim k => [(.slEvents k, 7)]
  | .rgCtrl k => [(.rgLevents k, 2)]
  | .ctxPc x => [(.sqEvents (x / 64), 2)]
  | .ctxFlags x => [(.sqEvents (x / 64), 2)]
  | .ctxRstk x => [(.sqEvents (x / 64), 2)]
  | .ctxG x _ => [(.sqEvents (x / 64), 2)]
  | .ctxT x _ => [(.sqEvents (x / 64), 2)]
  | _ => []

/-- A change that refuses by setting one of some event bits: whether it set one, and the state with the bits that were set
before still set. -/
def refusing (bits : List (Reg × Nat)) (f : State → State) (s : State) : Bool × State :=
  let was := bits.filter fun b => rbit s b.1 b.2
  let s' := f (forL (fun b s => setRfld b.1 b.2 1 0 s) bits s)
  (bits.any fun b => rbit s' b.1 b.2, forL (fun b s => setRfld b.1 b.2 1 1 s) was s')

/-- The refusal of a write that a cluster held drained or quarantined does not take (R491, R496). -/
def heldRefusal (s : State) (r : Reg) (v : W32) : Option Nat :=
  match r with
  | .slCfg k => if bitAt v 0 then held s (stampCl k) else none
  | .rgCtrl k => if bitAt v 0 && !bitAt v 1 then held s (stampCl k) else none
  | _ => none

/-- A direct write: the code of its answer, and its effect. A value that its unit refuses is answered with CHECK_MISMATCH. -/
def writeActs (t : Nat) (r : Reg) (v : W32) (s : State) : Nat × State :=
  match heldRefusal s r v with
  | some code => (code, s)
  | none =>
    match r with
    | .ctxCtrl x => ctxCtrlApply x v s
    | .rgCtrl k => if bitAt v 1 then (0, rgCtrlApply k v s) else
        let p := refusing (refusalBits r) (rgCtrlApply k v) s
        (if p.1 then 0x0A else 0, p.2)
    | _ =>
      let p := refusing (refusalBits r) (regActs t r v) s
      (if p.1 then 0x0A else 0, p.2)

end Sys2Proof.Machine
end

