-- ==== Sys2Proof/Machine/Apply.lean ====
section
/-! DEFINITION. Payloads of commands and records (Tables 14-6, 15-4, 15-9, 17-8), the checks of step 8 that are made again at
the application, and the application of records at a frame tick (R91, R92, R101, R102, R217, R429-R434, R493). -/
namespace Sys2Proof.Machine

/-! ### Payloads -/

/-- No bit of a word outside the mask is 1. -/
def only (w mask : W64) : Bool := w &&& ~~~mask == 0

/-- Word i of a payload. -/
def pw (ws : List W64) (i : Nat) : W64 := ws.getD i 0

/-- The payload of a command has its length, and every field not named is 0 (R400). -/
def formOk (op : Nat) (ws : List W64) : Bool :=
  let n := ws.length
  let w := pw ws 0
  match op with
  | 0x01 => n == 1 && only w 0x0000FFFFFFFFFFFF && decide (1 ≤ fld w 32 16) && decide (fld w 32 16 ≤ 256)
  | 0x02 => decide (1 ≤ n) && decide (n ≤ 256)
  | 0x03 => n == 0
  | 0x04 => n == 1 && only w 0x03FFFFFFFFFFFFFF
  | 0x05 => n == 1 && only w 0x07FFFF00FFFFFFFF
  | 0x06 => n == 1 && only w 0x7FFF
  | 0x10 => n == 3 && only w 0x07FF0000FFFFFFFF && only (pw ws 2) 0x3FFF
  | 0x11 =>
    let m := fld w 0 12
    n == 1 + (m + 1) / 2 && only w 0x001F1FFF00000FFF && decide (1 ≤ m) && decide (m ≤ 4094) &&
      decide (fld w 32 13 + m ≤ 8192) && (m % 2 == 0 || fld (pw ws (n - 1)) 0 32 == 0)
  | 0x12 =>
    let m := fld w 0 11
    n == 1 + m && only w 0x001F3FFF000007FF && decide (1 ≤ m) && fld w 32 3 == 0 && decide (fld w 35 11 + m ≤ 2048)
  | 0x13 => n == 1 && only w 0x07FF000000001FFF
  | 0x14 | 0x15 | 0x16 | 0x17 | 0x18 | 0x19 => n == 1 && only w 0x07FF000000000000
  | 0x20 => n == 2
  | 0x21 => n == 3 && only w 0x3FF
  | 0x22 => n == 161 && only w 0x3FF
  | 0x23 | 0x24 | 0x25 => n == 1 && only w 0x3FF
  | 0x26 => n == 1 && w == 0x5A45524F
  | 0x30 | 0x34 | 0x43 | 0x46 => n == 0
  | 0x31 => n == 1 && decide (1 ≤ fld w 48 16) && decide (fld w 48 16 ≤ 256)
  | 0x32 | 0x33 | 0x35 => n == 1
  | 0x36 => n == 1 && w == 0x0000004552415345
  | 0x40 => n == 1 && only w 0x3F
  | 0x41 => n == 1 && only w 0xFFFFFFFF && w != 0
  | 0x42 => n == 1 && only w 0x1F
  | 0x44 => n == 1 && w == 0x000000434F4D5044
  | 0x45 => n == 1 && only w 7
  | _ => false

/-- The device-wide context a payload names. -/
def pCtx (ws : List W64) : Nat := fld (pw ws 0) 48 11

/-- The cluster, the first word and the number of words of a CODE_WRITE or a DATA_WRITE. -/
def pCluster (ws : List W64) : Nat := fld (pw ws 0) 48 5
def pRange (code : Bool) (ws : List W64) : Nat × Nat :=
  if code then (fld (pw ws 0) 32 13, fld (pw ws 0) 0 12) else (fld (pw ws 0) 35 11, fld (pw ws 0) 0 11)

/-- The instruction words of a CODE_WRITE. -/
def codeWords (ws : List W64) : List W32 :=
  (ws.tail.flatMap fun w => [hi32 w, lo32 w]).take (fld (pw ws 0) 0 12)

/-- The register values of a CTX_ALLOC: SQ_CTX_CFG, SQ_CTX_IWIN, SQ_CTX_DWIN, with the bits their tables name. -/
def allocEntry (ws : List W64) : W32 × W32 × W32 :=
  let x := pCtx ws
  (lo32 (pw ws 0) &&& regRwMask (.ctxCfg x), hi32 (pw ws 1) &&& regRwMask (.ctxIwin x),
    lo32 (pw ws 1) &&& regRwMask (.ctxDwin x))

/-- The tenant a payload names, and the record words of a CAP_SET. -/
def pTenant (ws : List W64) : Nat := fld (pw ws 0) 0 10
def capWords (ws : List W64) : List W32 := ws.tail.flatMap fun w => [hi32 w, lo32 w]

/-- Words of a cluster's memory lie inside the issuer's grant; the steward's writes may go anywhere (Table 7-9). -/
def grantCovers (s : State) (t : Nat) (code : Bool) (ws : List W64) : Bool :=
  let w := 64 + 8 * pCluster ws
  t == 0 || inside (pRange code ws) (if code then codeGrant (capWord s t (w + 1)) else dataGrant (capWord s t (w + 2)))

/-! ### Checks made at step 8 and again at the application (R432) -/

/-- The code with which a command or record of a type is refused, against a configuration with no change waiting for a
lock. (log entry 47, DEDUCED) -/
def cfgBad (s : State) (type t : Nat) (ws : List W64) : Option Nat :=
  let u := pTenant ws
  let deny (b : Bool) : Option Nat := if b then some 0x04 else none
  let st := (tenant s u).state
  match type with
  | 0x01 => match regOfAddr (fld (pw ws 0) 32 32) with
    | some r => deny (regBad s t r (lo32 (pw ws 0)))
    | none => some 0x0A
  | 0x10 => let e := allocEntry ws
    deny (entryBad s (pCtx ws) e.1 e.2.1 e.2.2 (fld (pw ws 2) 0 14))
  | 0x11 => deny (!grantCovers s t true ws)
  | 0x12 => deny (!grantCovers s t false ws)
  | 0x22 => deny (capRefused s u (recTbl (capWords ws)))
  | 0x23 => if u = 0 then some 0x04 else if st = .active && (tenant s u).leaving.isNone then none else some 0x0A
  | 0x24 => if st = .suspended && (tenant s u).leaving.isNone then none else some 0x0A
  | 0x25 => if u = 0 then some 0x04
    else if st != .absent && (tenant s u).leaving.isNone then none else some 0x0A
  | _ => none

/-- The context whose budget a record changes, with the new budget (R91). -/
def budgetOf (r : JRec) : Option (Nat × Nat) :=
  match r.type with
  | 0x10 => some (pCtx r.payload, fld (pw r.payload 2) 0 14)
  | 0x01 => match regOfAddr (fld (pw r.payload 0) 32 32) with
    | some (.ctxBud x) => some (x, fld (pw r.payload 0) 0 14)
    | _ => none
  | _ => none

/-! ### The effect of a record at its tick (R431) -/

/-- A REG record of the address and value in its payload; its canonical item keeps the value as written, with what was written
to reserved bits (R14, R436; log entry 78, DESIGN CHOICE). -/
def regRecTakes (r : JRec) (s : State) : State :=
  let a := fld (pw r.payload 0) 32 32
  let v := lo32 (pw r.payload 0)
  match regOfAddr a with
  | some g =>
    if isReplayed g then s
    else
      let s := regTakes g v s
      if isLocal r then s else canonSet 0x01 a r.tenant [v] s
  | none => s

/-- CTX_ALLOC: the four registers of a context. -/
def allocTakes (r : JRec) (s : State) : State :=
  let x := pCtx r.payload
  let e := allocEntry r.payload
  let b := fld (pw r.payload 2) 0 14
  let s := modCtx x (fun u => { u with bud := b }) (entryPart x (fun _ => e) s)
  canonSet 0x10 x r.tenant [e.1, e.2.1, e.2.2, at32 b 0] s

/-- CODE_WRITE and DATA_WRITE. -/
def codeTakes (r : JRec) (s : State) : State :=
  let c := pCluster r.payload
  let a := (pRange true r.payload).1
  forL (fun p s => canonSet 0x11 (c * 65536 + a + p.2) r.tenant [p.1] (writeCode c (a + p.2) p.1 s))
    (codeWords r.payload).zipIdx s
def dataTakes (r : JRec) (s : State) : State :=
  let c := pCluster r.payload
  let a := (pRange false r.payload).1
  forL (fun p s => canonSet 0x12 (c * 65536 + a + p.2) r.tenant [hi32 p.1, lo32 p.1] (writeData c (a + p.2) p.1 s))
    r.payload.tail.zipIdx s

/-- A record takes effect in the configuration, with its canonical item (R423, R431, R436). A PERIOD record requests its
period for the period row of the tick. -/
def recTakes (r : JRec) (s : State) : State :=
  let u := pTenant r.payload
  match r.type with
  | 0x01 => regRecTakes r s
  | 0x06 => periodRequest (fld (pw r.payload 0) 0 15) true s
  | 0x10 => allocTakes r s
  | 0x11 => codeTakes r s
  | 0x12 => dataTakes r s
  | 0x13 =>
    let x := pCtx r.payload
    let pc : W32 := at32 (fld (pw r.payload 0) 0 13) 0
    canonSet 0x13 x r.tenant [pc] (modCtx x (fun c => { c with entry := pc }) s)
  | 0x22 => canonSet 0x22 u r.tenant (capWords r.payload) (applyCap u (recTbl (capWords r.payload)) s)
  | 0x23 => canonSet 0x23 u r.tenant [2] (suspend u s)
  | 0x24 => canonDrop 0x23 u (resume u s)
  | 0x25 => remove u s
  | 0x33 => modJr (dropSuspect (pw r.payload 0).toNat) s
  | 0x35 => modJr (dropSched (pw r.payload 0).toNat) s
  | 0x37 => modJr (dropSched (pw r.payload 0).toNat) s
  | n => if 0x100 ≤ n ∧ n < 0x200 then modJr (fun j => { j with sys := (j.sys.filter fun q => sysKind q != sysKind r) ++ [r] }) s
    else s

/-- A CONFIG record (Table 15-4). -/
def isConfig (r : JRec) : Bool := decide (r.type < 0x30) && !isLocal r

/-- The committed configuration: what is in force with every committed unscheduled record that has not applied (R429). -/
def committed (s : State) : State :=
  let waiting := s.jr.deferred.filter (fun d => d.r.sched.isNone) ++ s.jr.done
  forL (fun d s => if (cfgBad s d.r.type d.r.tenant d.r.payload).isSome then s else settled (recTakes d.r s)) waiting
    (settled s)

/-! ### A tick's records (R91, R217, R431, R432, R493) -/

/-- The words of a CODE_WRITE or DATA_WRITE overlap the window of a context inside a locked sequence (R217). -/
def lockOverlaps (s : State) (r : JRec) : Bool :=
  let c := pCluster r.payload
  let locked := (ctxsOf s c).filter fun x => (ctx s x).l
  match r.type with
  | 0x11 => locked.any fun x => overlap (pRange true r.payload) (codeGrant (ctx s x).iwin)
  | 0x12 => locked.any fun x => overlap (pRange false r.payload) (dataGrant (ctx s x).dwin)
  | _ => false

/-- The cluster that alone a record affects (R493). -/
def recCluster (r : JRec) : Option Nat :=
  match r.type with
  | 0x10 | 0x13 => some (pCtx r.payload / 64)
  | 0x11 | 0x12 => some (pCluster r.payload)
  | 0x01 =>
    let a := fld (pw r.payload 0) 32 32
    if 0x1000000 ≤ a ∧ a < 0x3000000 then some ((a - 0x1000000) / 0x100000) else none
  | _ => none

/-- A record fails at its application (R432). (log entry 56, DEDUCED) -/
def recFails (d : JDone) (code : Nat) (s : State) : State :=
  let s := raise .jrEvents 1 (count .jrApprejCnt s)
  let s := faultRec d.r.tenant (2 * 2 ^ 24 + code * 2 ^ 16 + d.seq % 65536) s
  if d.r.sched.isSome then resolve 0x35 d.seq s else s

/-- A record waits for a later tick. -/
def recWaits (d : JDone) (s : State) : State := modJr (fun j => { j with deferred := j.deferred ++ [d] }) s

/-- The record changes a budget in a cluster whose set is rejected. (log entry 25, DEDUCED) -/
def budgetRejected (s : State) (bad : List Nat) (r : JRec) : Option Nat :=
  match budgetOf r with
  | some (x, b) => if bad.contains (x / 64) && (ctx s x).bud != b then some (x / 64) else none
  | none => none

/-- One record of a tick, where the budget sets of the clusters `bad` do not fit. (log entry 56, DEDUCED) -/
def applyOne (bad : List Nat) (d : JDone) (s : State) : State :=
  let away := match recCluster d.r with
    | some c => outOfService s c
    | none => false
  if away then recWaits d s
  else if lockOverlaps s d.r then recWaits d (raise (.sqEvents (pCluster d.r.payload)) 4 s)
  else match cfgBad (settled s) d.r.type d.r.tenant d.r.payload with
    | some code => recFails d code s
    | none => match budgetRejected s bad d.r with
      | some c => recFails d 0x04 (raise (.clBudStatus c) 0 s)
      | none =>
        let s := recTakes d.r s
        let s := if isConfig d.r && d.r.type != 0x06 then digestStart s else s
        if d.r.sched.isSome then resolve 0x37 d.seq s else s

/-- The records of a tick in order of SEQ (R431). -/
def insertDone (d : JDone) : List JDone → List JDone
  | [] => [d]
  | e :: l => if d.seq ≤ e.seq then d :: e :: l else e :: insertDone d l

/-- The records that apply at a tick at which the frame counter takes the value in force (R431). -/
def dueRecs (s : State) : List JDone :=
  (s.jr.deferred ++ s.jr.done.filter (fun d => decide (d.lc < lc s)) ++
    s.jr.sched.filter (fun d => d.r.sched == some s.fr.count)).foldr insertDone []

/-- They no longer wait. -/
def takeDue (s : State) : State :=
  modJr (fun j => { j with
    deferred := []
    done := j.done.filter fun d => lc s ≤ d.lc
    sched := j.sched.filter fun d => d.r.sched != some s.fr.count }) s

/-- Scheduled records whose frame a load of the counter has passed are discarded (R432). -/
def dropLate (s : State) : State :=
  let late := s.jr.sched.filter fun d => decide (d.r.sched.getD 0 < s.fr.count)
  let s := modJr (fun j => { j with sched := j.sched.filter fun d => decide (s.fr.count ≤ d.r.sched.getD 0) }) s
  forL (fun d s => resolve 0x35 d.seq (faultRec d.r.tenant (2 * 2 ^ 24 + 0x0E * 2 ^ 16 + d.seq % 65536)
    (raise .jrEvents 0 (count .jrLateCnt s)))) late s

/-- Every record of a tick, the sets of the clusters `bad` rejected. -/
def applyAll (bad : List Nat) (ds : List JDone) (s : State) : State := forL (applyOne bad) ds s

/-- The clusters whose set does not fit a period of p lane cycles. -/
def failing (p : Nat) (s : State) : List Nat :=
  (List.range 32).filter fun c => decide (capacity p < clusterSum s c)

/-- The canonical items of a context's budget become 0 (R102). -/
def canonBudZero (x : Nat) (s : State) : State :=
  modCanon (fun l => l.map fun p =>
    if p.1 = itemNo 0x10 x then (p.1, { p.2 with value := p.2.value.take 3 ++ [0] })
    else if p.1 = itemNo 0x01 (regAddr (.ctxBud x)) then (p.1, { p.2 with value := [0] }) else p) s

/-- The whole set of cluster c is rejected by a period change: every budget is 0 in the context table and in the journal,
which takes a REG record for each, and the owners of its contexts are told (R102). -/
def setZeroed (c : Nat) (s : State) : State :=
  let xs := (ctxsOf s c).filter fun x => (ctx s x).bud != 0
  let owners := ((ctxsOf s c).filter fun x => ctxValid (ctx s x)).map fun x => ctxTenant (ctx s x)
  let s := forL (fun x s =>
    let r := { plainRec 0x01 [at64 (regAddr (.ctxBud x)) 32] with replay := false }
    modJr (fun j => { j with cmdQ := j.cmdQ ++ [r] }) (canonBudZero x (modCtx x (fun u => { u with bud := 0 }) s))) xs s
  let s := forL (fun t => faultGen t 0x04 c) owners.eraseDups s
  raise (.clBudStatus c) 2 s

/-- The new period is in force from this tick (R102, R103). -/
def periodTakes (p : Nat) (s : State) : State :=
  let by' := s.fr.pendBy
  let s := { s with fr := { s.fr with period := p } }
  if by' then digestStart (canonSet 0x06 0 0 [at32 p 0] s) else s

/-- The period row of Table 3-2, where the sets of the clusters `bad` do not fit the new period with the budget changes of the
tick (R102). A change that takes effect with sets zeroed raises SET_REJECTED and not PERIOD_DONE. (log entry 24, DEDUCED) -/
def periodRow (bad : List Nat) (s : State) : State :=
  match s.fr.pend with
  | none => s
  | some p =>
    let s := setReg .frPchkFail (at32 (lsum (bad.map fun c => 2 ^ c)) 0) s
    let s := if bad.isEmpty then raise .frEvents 3 (periodTakes p s)
      else if rbit s .frCtrl 1 then raise .frEvents 6 (forL setZeroed bad (periodTakes p s))
      else raise .frEvents 5 s
    { s with fr := { s.fr with pend := none, pendBy := false } }

/-- The clusters whose set, as the records of the tick would leave it, is not admitted at period p (R91).
(log entry 25, DEDUCED) -/
def rejectedSets (p : Nat) (old new : State) : List Nat :=
  (failing p new).filter fun c => decide (clusterSum old c < clusterSum new c)

/-- The journal and period rows of Table 3-2, at a tick at which time runs: budget sets are checked whole, at the period
that will be in force (R92, R102). -/
def journalRows (s : State) : State :=
  let s := dropLate s
  let ds := dueRecs s
  let s0 := takeDue s
  let s1 := applyAll [] ds s0
  let unfit := match s1.fr.pend with
    | some p => failing p s1
    | none => []
  let changes := s1.fr.pend.isSome && (unfit.isEmpty || rbit s1 .frCtrl 1)
  let bad := if changes then [] else rejectedSets s1.fr.period s0 s1
  periodRow unfit (if bad.isEmpty then s1 else applyAll bad ds s0)

end Sys2Proof.Machine
end

