-- ==== Sys2Proof/Machine/RegWrite.lean ====
section
/-! DEFINITION. A register write by an issuer: its rights (R78, R134, R168, R186, R224, R303, R340, R355, R375, R385, R447,
R476, R521, R582), what becomes a journal record (R423, R429, R580), and what acts directly. -/
namespace Sys2Proof.Machine

/-! ### Rights -/


/-- A name that a lane consumer of cluster c may hold: a channel of the cluster or of the Milkline (R348). -/
def nameKnown (valid name : Nat) : Bool := valid == 0 || decide (name < 0x20) || (decide (0x100 ≤ name) && decide (name < 0x200))

/-- A source of CL_LEV for which tenant t has the right: not valid, no channel's name, or one whose channel it may consume
(R348, Table 12-4). -/
def mayName (s : State) (t c valid name : Nat) : Bool := !nameKnown valid name || !sourceLost s t c valid name

/-- A tenant other than the steward may write value v to register r. -/
def tenantWrites (s : State) (t : Nat) (r : Reg) (v : W32) : Bool :=
  match r with
  | .tbCtrl => service s t 0 && (fld v 9 1 == 0 || service s t 2)
  | .tbLockCfg | .tbStatus | .tbEvents | .tbPherr | .tbPherrMax | .tbFofs | .tbFofsNow | .tbSyncCfg | .tbSyncDiff
  | .tbTsetLo | .tbTsetHi | .tbTimeLo | .tbTimeHi | .tbEpoch | .tbBand | .tbFlushEdge | .tbFlushHit | .tbTrunc | .tbDisc
  | .tbGated _ => service s t 0
  | .asCtrl | .asStatus | .asEvents | .asPlanRatio _ | .asPlanBand _ | .asCkoCfg _ | .asCkoPhase _ => service s t 0
  | .frSetLo | .frSetHi => service s t 0
  | .lnCfg k | .sgLCtrl k => ownsPulse s t k
  | .lnCtrl k => ownsPulse s t k && zeros v 0x70
  | .slCtrl k => ownsStamp s t k && zeros v 0x70
  | .slCfg k | .slThr k | .slLatch k | .slBlnk k | .slEvcfg k | .slCapwin k => ownsStamp s t k
  | .rgCfg k | .rgGate k | .rgCtrl k | .rgLevents k => ownsStamp s t k
  | .rgDone _ => true
  | .sgDLoc c d | .sgDLen c d | .sgDSeq c d => descHeld s c d t
  | .ctxEntry x | .ctxCtrl x | .ctxState x | .ctxPc x | .ctxFlags x | .ctxFault x | .ctxRem x | .ctxExh x | .ctxRetLo x
  | .ctxRetHi x | .ctxDbg x | .ctxRstk x | .ctxG x _ | .ctxT x _ => ownsCtx s t x
  | .clLev c n => laneOwner s c n == some t && mayName s t c (fld v 31 1) (fld v 16 10) &&
      mayName s t c (fld v 15 1) (fld v 0 10)
  | .clLovr c => hasLane s t c
  | .evMcCtl n => controls s t n
  | .clCcCtl c n => controls s t (256 + 32 * c + n)
  | .evGrpCfg g => groupRight s t g
  | .spWCfg u _ | .spWMask u _ | .spWOfs u _ | .spWWid u _ => u == t
  | .adECfg i => rfld s (.adECfg i) 0 10 == t && service s t 4
  | .tnSel => true
  | _ => false

def mayWrite (s : State) (t : Nat) (r : Reg) (v : W32) : Bool := t == 0 || tenantWrites s t r v

/-- The event by which a unit reports a write without the right (R135, R168, R186, R342, R521). -/
def rightsFlag (r : Reg) (s : State) : State :=
  match r with
  | .lnCfg k | .lnCtrl k | .lnStatus k | .lnEvents k | .lnOwner k | .lnSkew k | .lnSkewSh k | .lnCtabIdx k | .lnCtabData k
  | .lnCalInfo k | .lnSpot k | .lnCalpath k | .lnLateCnt k | .lnFullCnt k | .lnDiscCnt k | .lnTruncCnt k | .lnFiredLo k
  | .lnFiredHi k | .lnOcCnt k | .lnDropLog k => raise (.lnEvents k) 10 s
  | .slCfg k | .slCtrl k | .slThr k | .slLatch k | .slBlnk k | .slEvcfg k | .slCapwin k | .slTrim k | .slBinIdx k
  | .slBinData k | .slStatus k | .slEvents k | .slOwner k | .slThrNow k | .slInpath k | .slCalInfo k | .slHitLo k | .slHitHi k
  | .slDeadCnt k | .slQlossCnt k | .slBlankCnt k | .slOvfCnt k | .slToterrCnt k | .slFlushCnt k => raise (.slEvents k) 7 s
  | .rgCfg k | .rgGate k | .rgCtrl k | .rgLevents k => raise (.rgLevents k) 2 s
  | .adCfg | .adFt | .adECfg _ => raise .adEvents 4 s
  | _ => s

/-- The part of a value that tenant t may write: fields it may not write keep what they hold (R186, R355, R521, R582). -/
def writable (s : State) (t : Nat) (r : Reg) (v : W32) : W32 :=
  if t = 0 then v else
  match r with
  | .rgDone i => v &&& laneMask s t i
  | .clLovr c => v &&& lovrMask s t c
  | .adECfg i => setFld v 0 10 (rfld s (.adECfg i) 0 10)
  | _ => v

/-! ### Records -/

/-- The refusals of Table 15-5 for a record of n payload words by tenant t, in their order. -/
def journalRefused (s : State) (t : Nat) (sched : Option Nat) (n : Nat) : Option Nat :=
  let late : Bool := match sched with
    | some f => decide (f ≤ s.fr.count)
    | none => false
  if late then some 0x0E
  else if sched.isSome && decide (256 ≤ pendCount s + schedWaiting s) then some 0x02
  else if fillRefused s n then some 0x02
  else if t != 0 && decide (fld (capWord s t 0) 16 16 ≤ journalUse s t) then some 0x04
  else none

/-- A command's payload becomes a record, or the command is refused: the code and the number of the record to wait for
(R429, R430). -/
def submit (type t : Nat) (sched : Option Nat) (payload : List W64) (s : State) : Nat × List Nat × State :=
  match journalRefused s t sched payload.length with
  | some code =>
    let full := code == 0x02 && fillRefused s payload.length
    (code, [], if full then raise .jrEvents 7 s else s)
  | none =>
    let p := journal type t sched payload false s
    (0, [p.1], p.2)

/-- The payload of a REG record. -/
def regPayload (a : Nat) (v : W32) : List W64 := [cat64 (at32 a 0) v]

/-- A write of value v to register r leaves a replay record, where `code` answers it: an accepted one, and one of TB_CTRL or
AS_CTRL of which a command alone is refused while its fields act (R78). -/
def leavesReplay (r : Reg) (code : Nat) : Bool := code == 0 || ((r == .tbCtrl || r == .asCtrl) && code == 0x0A)

/-- A replay record of an accepted write, where the fill limit allows one (R580). -/
def replayRecord (t : Nat) (r : Reg) (v : W32) (s : State) : State :=
  if !isReplayed r then s
  else if fillRefused s 1 then raise .jrEvents 7 s
  else (journal 0x01 t none (regPayload (regAddr r) v) true s).2

/-- A write of a register whose writes are records (R423, R429): checked against the committed configuration. -/
def writeRecorded (t : Nat) (sched : Option Nat) (r : Reg) (v : W32) (s : State) : Nat × List Nat × State :=
  let c := committed s
  let payload := regPayload (regAddr r) v
  if regBad c t r v then (0x04, [], rejectFlag r v s)
  else match r with
    | .ctxBud x =>
      if budgetBad c x (fld v 0 14) then (0x04, [], raise (.clBudStatus (x / 64)) 0 s) else submit 0x01 t sched payload s
    | _ => submit 0x01 t sched payload s

/-! ### Direct writes -/

/-- A write of a Byre register: its mirror write takes until the second keeper-clock edge (R550). -/
def writeMirror (r : Reg) (v : W32) (s : State) : State :=
  match r with
  | .byCtrl | .byRramData => toMirror (regAddr r) 0xFFFFFFFF v s
  | .evMcCtl _ => toMirror (regAddr r) 0x80000000 v s
  | _ =>
    let s := if regRwMask r = 0 then s else toMirror (regAddr r) (regRwMask r) v s
    let ones := v &&& regW1cMask r &&& reg s r
    if ones = 0 then s else toMirror (regAddr r) ones 0 s

/-- A direct write by tenant t, wherever its register lies: it waits while its cluster is out of service (R493). -/
def writeDirect (t : Nat) (r : Reg) (v : W32) (s : State) : Nat × State :=
  let away := match clusterAt (regAddr r) with
    | some c => outOfService s c
    | none => false
  let unknown := match r with
    | .clLev _ _ => !(nameKnown (fld v 31 1) (fld v 16 10) && nameKnown (fld v 15 1) (fld v 0 10))
    | _ => false
  if away && !unknown then (0, { s with st := { s.st with heldW := s.st.heldW ++ [(regAddr r, v)] } })
  else if isByre r then (0, writeMirror r v s)
  else match r with
    | .jrCtrl => (0, if bitAt v 0 then compactStart (committed s).jr.canon s else s)
    | .clLev c _ =>
      if nameKnown (fld v 31 1) (fld v 16 10) && nameKnown (fld v 15 1) (fld v 0 10) then writeActs t r v s
      else (0x04, raise (.clEvstat c) 0 s)
    | _ => writeActs t r v s

/-- A register written in two parts (R355): EN acts; steward-only fields that the steward changes become a record. -/
def writeTwoParts (t : Nat) (sched : Option Nat) (r : Reg) (v : W32) (s : State) : Nat × List Nat × State :=
  let part := stewardPart r
  let now' := reg (committed s) r
  let changes := t = 0 ∧ (v &&& part) ≠ (now' &&& part)
  if changes then
    let p := submit 0x01 t sched (regPayload (regAddr r) ((v &&& part) ||| 0x80000000)) s
    if p.1 != 0 then p else (0, p.2.1, (writeDirect t r v p.2.2).2)
  else if sched.isSome then (0x0A, [], s)
  else let p := writeDirect t r v s
    (p.1, [], p.2)

/-! ### One register write (R375, R401, R547) -/

/-- Addresses that a write names no register at: the peek alias, whose writes are ignored, the memories of clusters,
and none (R16, R547, R548). -/
def writeNowhere (addr : Nat) : Nat :=
  if 0x80000000 ≤ addr then 0 else if (memAt addr).isSome then 0x04 else 0x0A

/-- Tenant t writes v to register r. -/
def writeReg (t : Nat) (sched : Option Nat) (r : Reg) (v : W32) (s : State) : Nat × List Nat × State :=
  if !mayWrite s t r v then (0x04, [], rightsFlag r s)
  else
    let w := writable s t r v
    if isRecord r then writeRecorded t sched r w s
    else if stewardPart r != 0 then writeTwoParts t sched r w s
    else if sched.isSome then (0x0A, [], s)
    else
      let p := writeDirect t r w s
      (p.1, [], if leavesReplay r p.1 then replayRecord t r w p.2 else p.2)

/-- A register write: the code of its answer, the records it waits for, and the state. -/
def regWrite (who : Who) (sched : Option Nat) (addr : Nat) (v : W32) (s : State) : Nat × List Nat × State :=
  if addr % 4 != 0 then (0x05, [], s)
  else match regOfAddr addr with
    | some r => writeReg who.tenant sched r v s
    | none => (writeNowhere addr, [], s)

/-- A tenant other than the steward writes only while ACTIVE (R368, R378). -/
def writerActive (s : State) (t : Nat) : Bool := t == 0 || (tenant s t).state == .active

/-- A row that writes one register: the code is left in `busStatus` (log entry 7, DESIGN CHOICE). -/
def writeRow (who : Who) (r : Reg) (v : W32) (s : State) : State :=
  let p := if writerActive s who.tenant then regWrite who none (regAddr r) v s else (0x04, [], s)
  { p.2.2 with busStatus := p.1 }

/-- A register write by address, REGISTER_WRITE. -/
def writeAt (who : Who) (addr : Nat) (v : W32) (s : State) : State :=
  let p := if writerActive s who.tenant then regWrite who none addr v s else (0x04, [], s)
  { p.2.2 with busStatus := p.1 }

end Sys2Proof.Machine
end

