-- ==== Sys2Proof/Machine/Replay.lean ====
section
/-! DEFINITION. Reading the journal at a start (R218, R369, R442-R444, R553, R580): the valid half, its records, and what they
restore. -/
namespace Sys2Proof.Machine

/-! ### The valid half (R442) -/

/-- A half has a committed HALF_HEAD with a correct CRC; its GEN. -/
def headGen (h : Tbl W64) : Option Nat :=
  let ws := rawWords h 0 6
  let body := ws.take 4
  if fld (pw ws 1) 56 8 = 0xA7 && fld (pw ws 1) 40 16 = 0x200 && fld (pw ws 5) 32 32 = endCommit &&
      lo32 (pw ws 4) = crc32c (wordsBytes body) && fld (pw ws 4) 32 32 = 0 then some (pw ws 3).toNat
  else none

/-- The GEN of half A or B, unless a word of its HALF_HEAD reads as failed (R419, R442). -/
def halfGen (s : State) (b : Bool) : Option Nat :=
  if s.jr.activeB == b && s.jr.bad.any (decide <| · < 6) then none else headGen (if b then s.jr.halfB else s.jr.halfA)

/-- Whether half B is the valid one, with its GEN; none of an empty store. -/
def validHalf (s : State) : Option (Bool × Nat) :=
  match halfGen s false, halfGen s true with
  | some a, some b => if a < b then some (true, b) else some (false, a)
  | some a, none => some (false, a)
  | none, some b => some (true, b)
  | none, none => none

/-! ### Records found (Table 15-8) -/

/-- What is found at a place of a half. -/
inductive FoundKind where
  | good | abandoned | unfinished
  | suspect (cause : Nat)
  deriving DecidableEq, Repr

/-- A record found: its place, its words, and how it stands. -/
structure Found where
  kind : FoundKind
  pos : Nat
  len : Nat
  seq : Nat
  r : JRec
  deriving DecidableEq, Repr

/-- The first place from a on at which a record numbered q begins, looking at n places. -/
def resyncAt (h : Tbl W64) (fill q : Nat) : Nat → Nat → Nat
  | 0, _ => fill
  | n + 1, a =>
    if fill ≤ a + 1 then fill
    else if (tget 0 a h).toNat = q && fld (tget 0 (a + 1) h) 56 8 = 0xA7 then a
    else resyncAt h fill q n (a + 1)

/-- The record that the words from a on spell. -/
def readRec (h : Tbl W64) (a plen : Nat) : JRec :=
  let h1 := tget 0 (a + 1) h
  let type := fld h1 40 16
  let ws := rawWords h (a + 3) plen
  let at' := fld (tget 0 (a + 2) h) 0 48
  let named := match regOfAddr (fld (pw ws 0) 32 32) with
    | some r => isReplayed r
    | none => false
  { id := 0, type := type, tenant := fld h1 30 10, sched := if fld h1 29 1 = 1 then some at' else none, payload := ws,
    replay := type == 1 && named }

/-- How the record of n words at place a stands. -/
def standing (h : Tbl W64) (bad : List Nat) (fill a n : Nat) : FoundKind :=
  let k := tget 0 (a + n - 1) h
  let crc := tget 0 (a + n - 2) h
  if fill < a + n then .unfinished
  else if bad.any fun b => decide (a ≤ b) && decide (b < a + n) then .suspect 2
  else if fld k 32 32 = endAbandon then .abandoned
  else if fld k 32 32 = endCommit then
    if fld crc 32 32 = 0 && lo32 crc = crc32c (wordsBytes (rawWords h a (n - 2))) then .good else .suspect 1
  else if a + n = fill then .unfinished else .suspect 1

/-- The records of a half from place a on, where the next one is numbered q; within what a compaction wrote (`snap`)
numbers are not checked. A record whose PLEN passes the written words is the last one, unless the next one is found.
(log entry 55, DEDUCED) -/
def findRecs (h : Tbl W64) (bad : List Nat) (fill : Nat) : Nat → Nat → Nat → Bool → List Found
  | 0, _, _, _ => []
  | n + 1, a, q, snap =>
    if fill ≤ a then []
    else
      let h1 := tget 0 (a + 1) h
      let plen := fld h1 0 16
      let seq := (tget 0 a h).toNat
      let copied := snap || fld h1 28 1 == 1
      if fill < a + 2 then [{ kind := .unfinished, pos := a, len := fill - a, seq := q, r := readRec h a 0 }]
      else if fld h1 56 8 = 0xA7 && !copied && seq == q && decide (fill < a + plen + 5) &&
          decide (resyncAt h fill (q + 1) (fill - a) (a + 1) < fill) then
        let b := resyncAt h fill (q + 1) (fill - a) (a + 1)
        { kind := .suspect 3, pos := a, len := b - a, seq := q, r := readRec h a 0 } :: findRecs h bad fill n b (q + 1) snap
      else if fld h1 56 8 = 0xA7 && (copied || seq == q) then
        let r := readRec h a plen
        let kind := standing h bad fill a (plen + 5)
        let isEnd := r.type == 0x201
        let q' := if isEnd then (pw r.payload 0).toNat + 1 else if copied then q else q + 1
        { kind := kind, pos := a, len := plen + 5, seq := seq, r := r } ::
          findRecs h bad fill n (a + plen + 5) q' (snap && !isEnd)
      else
        let b := resyncAt h fill q (fill - a) (a + 1)
        { kind := .suspect 3, pos := a, len := b - a, seq := q, r := readRec h a 0 } :: findRecs h bad fill n b q snap

/-- The words written of half A or B, and those of them that read as failed: of the half that is not active, what its words
show. -/
def halfFill (s : State) (b : Bool) : Nat :=
  if s.jr.activeB == b then s.jr.fill else ((halfOf s b).getLast?.map (·.1 + 1)).getD 0
def halfBad (s : State) (b : Bool) : List Nat := if s.jr.activeB == b then s.jr.bad else []

/-- The records of the valid half, in order of address: the first ones carry the S of HALF_HEAD (R441). -/
def foundRecs (s : State) (b : Bool) : List Found :=
  let fill := halfFill s b
  findRecs (halfOf s b) (halfBad s b) fill (fill + 1) 0 (tget 0 0 (halfOf s b)).toNat true

/-- The last epoch that the journal records (R53). -/
def storedEpoch (s : State) : Option W32 :=
  match validHalf s with
  | none => none
  | some (b, _) =>
    (((foundRecs s b).filter fun f => f.kind == .good && f.r.type == 0x101).map fun f => lo32 (pw f.r.payload 0)).getLast?

/-! ### What a record restores -/

/-- The fields of a LOCAL item that a start restores (Table 20-4). -/
def restoredBits : Reg → W32
  | .tbCtrl => 0x1F
  | .tbSyncCfg => 0xFFFF0000
  | .asCtrl => 0xF1
  | .frCtrl => 0x02
  | .lnCfg _ => 0x07
  | _ => 0xFFFFFFFF

/-- A LOCAL item restored. -/
def localRestored (r : Reg) (v : W32) (s : State) : State :=
  match r with
  | .spDevid | .spChain => regTakes r v s
  | .asPlanBand _ => setReg r v s
  | _ => regActs 0 r (v &&& restoredBits r) s

/-- A PERIOD record: its period is restored where it took effect, which is checked as R102 states (R553). -/
def periodRestored (p : Nat) (s : State) : State :=
  let bad := failing p s
  if !periodOk p || (!bad.isEmpty && !rbit s .frCtrl 1) then s
  else
    let s := canonSet 0x06 0 0 [at32 p 0] { s with fr := { s.fr with period := p } }
    forL (fun c s => forL (fun x s => canonBudZero x (modCtx x (fun u => { u with bud := 0 }) s)) (ctxsOf s c) s) bad s

/-- Nothing of a removal or a clearing outlasts a start: keys, memories and streams are as the start left them. -/
def settleRemovals (s : State) : State :=
  finishRemovals { s with tn := { s.tn with jobs := [], clearing := [] } }

/-- A TB_BAND or AS_PLANp_BAND, an epoch, or a calibration table restored (R131, R157, R581); on a cold start the tables
stay without CAL_VALID until the lane is calibrated (R469, R472). -/
def sysRestored (r : JRec) (s : State) : State :=
  let w := pw r.payload 0
  let k := fld w 56 8
  match r.type with
  | 0x100 =>
    if k = 0 then setReg .tbBand (at32 1 31 ||| at32 (fld w 0 6) 0) s
    else if 0x10 ≤ k ∧ k < 0x20 then setReg (.asPlanBand (k - 0x10)) (at32 1 31 ||| at32 (fld w 0 8) 0) s
    else s
  | 0x101 => { s with tb := { s.tb with lastEpoch := some (lo32 w) } }
  | 0x102 =>
    let d := (List.range 1024).foldl (fun t p =>
      tset 0 p (BitVec.ofNat 8 (fld (pw r.payload (1 + p / 8)) (56 - 8 * (p % 8)) 8)) t) []
    let b : CalBank := { ofs := BitVec.ofNat 16 (fld w 32 16), delta := d, resid := fld w 16 16, temp := sgn 16 (fld w 0 16) }
    modPulse k (fun l => { l with bank := b, cal := { l.cal with valid := s.byre.warm } }) s
  | 0x103 =>
    let e := (List.range 64).foldl (fun t b =>
      tset 0 b (BitVec.ofNat 14 (fld (pw r.payload (1 + b / 4)) (48 - 16 * (b % 4)) 14)) t) []
    modStamp k (fun l => { l with bins := e, info := (fld w 32 16, sgn 16 (fld w 0 16)), cal := { l.cal with valid := s.byre.warm } }) s
  | _ => s

/-- A CONFIG or LOCAL record at replay: it passed its checks when it applied. The Byre takes its registers at CAUSE 0x1
only (R476). -/
def replayRec (r : JRec) (s : State) : State :=
  match r.type with
  | 0x01 =>
    let a := fld (pw r.payload 0) 32 32
    let v := lo32 (pw r.payload 0)
    match regOfAddr a with
    | none => s
    | some g =>
      if isReplayed g || isLocal r then
        modJr (fun j => { j with loc := tset 0 a v j.loc }) (localRestored g v s)
      else if isByre g && s.byre.cause != 1 then canonSet 0x01 a r.tenant [v] s
      else regRecTakes r s
  | 0x06 => periodRestored (fld (pw r.payload 0) 0 15) s
  | 0x25 => settleRemovals (recTakes r s)
  | 0x22 => settleRemovals (recTakes r s)
  | n => if 0x100 ≤ n ∧ n < 0x200 then sysRestored r (recTakes r s) else recTakes r s

/-- A record found at replay (Table 15-8); its number counts as used, whatever became of it (R422). -/
def replayFound (f : Found) (s : State) : State :=
  let named := (pw f.r.payload 0).toNat
  let used (s : State) : State := modJr (fun j => { j with seq := max j.seq f.seq }) s
  match f.kind with
  | .abandoned => raise .jrEvents 2 (count .jrAbandonCnt (used s))
  | .unfinished =>
    if f.len < 5 then modJr (fun j => { j with fill := f.pos }) s
    else raise .jrEvents 2 (putHalf s.jr.activeB (f.pos + f.len - 1) (recK endAbandon f.seq) (modJr (fun j =>
      { j with fill := max j.fill (f.pos + f.len) }) (used s)))
  | .suspect c =>
    let s := if c = 3 then s else used s
    modJr (fun j => { j with suspects := j.suspects ++
      [{ seq := f.seq, start := f.pos, len := f.len, cause := c, known := c != 3 }] }) s
  | .good =>
    let s := modJr (fun j => { j with seq := max j.seq f.seq, commitSeq := max j.commitSeq f.seq }) s
    match f.r.type with
    | 0x33 => modJr (fun j => dropSched named (dropSuspect named j)) s
    | 0x35 => modJr (dropSched named) s
    | 0x37 =>
      match s.jr.sched.find? fun d => d.seq == named with
      | some d => modJr (dropSched named) (replayRec d.r s)
      | none => s
    | 0x32 => replayRec (acceptedRec f.r) (modJr (dropSuspect named) s)
    | 0x200 => s
    | 0x201 => s
    | _ =>
      if f.r.sched.isSome then modJr (fun j => { j with sched := j.sched ++ [{ seq := f.seq, r := f.r, lc := 0 }] }) s
      else replayRec f.r s

/-! ### The whole of step 3 (R443) -/

/-- Suspects that replay left unresolved: logged, counted, listed up to 16 (R444, JR_SUSP_CNT). -/
def listSuspects (s : State) : State :=
  let all := s.jr.suspects
  let s := forL (fun (x : Suspect) s => raise .jrEvents 3 (logFault 0x15 x.cause (BitVec.ofNat 64 x.seq) s)) all s
  countN .jrSuspCnt all.length (modJr (fun j => { j with suspects := all.take 16, unlisted := all.drop 16 }) s)

/-- LAST of every tenant is its RESERVED (R369). -/
def lastFromReserved (s : State) : State :=
  forL (fun t s => modTenant t (fun u => { u with last := (keyOf s t).resv, status := none }) s)
    ((s.tn.keys.map fun p => p.1 / 4).eraseDups) s

/-- Clusters whose set does not fit: no budget of it holds (R91). -/
def admitReplayed (s : State) : State :=
  forL (fun c s => raise (.clBudStatus c) 0 (forL (fun x => modCtx x fun u => { u with bud := 0 }) (ctxsOf s c) s))
    (failing s.fr.period s) s

/-- Valid contexts with AUTOSTART receive a START, due after READY (R218). -/
def autoStarts (s : State) : State :=
  forL (fun x => modCtx x fun u =>
    if ctxValid u && fld u.cfg 29 1 == 1 then { u with startPend := true, autoStart := true } else u) (s.cx.map (·.1)) s

/-- The records of the valid half applied. -/
def replayStore (s : State) : State :=
  match validHalf s with
  | none => modJr (fun j => { j with activeB := false, fill := 0, gen := 0, bad := [] }) s
  | some (b, gen) =>
    let s := modJr (fun j => { j with activeB := b, gen := gen, fill := halfFill s b, bad := halfBad s b }) s
    forL replayFound (foundRecs s b) s

/-- The journal is replayed. -/
def replayJournal (s : State) : State :=
  let flags := reg s .tnEvents
  let s := setReg .tnEvents flags (replayStore s)
  let s := digestStart (modJr (fun j => { j with replayed := true }) (listSuspects s))
  autoStarts (admitReplayed (lastFromReserved s))

end Sys2Proof.Machine
end

