-- ==== Sys2Proof/Machine/Power.lean ====
section
/-! DEFINITION. The Byre's states, starts and resets (16_power_byre_startup.md), with the writes of its registers (R463, R476,
R477, R529-R531, R550). -/
namespace Sys2Proof.Machine

/-! ### What outlasts a reset of the core -/

/-- The life-cycle state that the fuses hold (R478). -/
def lcOfFuses (f : Tbl (BitVec 16)) : Nat := lmax ((List.range 6).filter fun i => decide (9 ≤ blown (tget 0 i f)))

/-- An entry of the fault log in the retention RAM (Table 19-5). -/
def logAt (rram : Tbl W32) (k : Nat) : LogEntry :=
  let w (i : Nat) : W32 := tget 0 (0x200 + 8 * k + i) rram
  { seq := (w 0).toNat, code := fld (w 1) 24 8, rep := fld (w 1) 16 8, obj := fld (w 1) 0 16,
    frame := fld (w 3) 0 16 * 2 ^ 32 + (w 2).toNat, frozen := bitAt (w 3) 31, epoch := w 4, time := (w 5).toNat,
    detail := cat64 (w 7) (w 6) }

/-- The newest entry of the log: the nonempty one whose next slot does not hold its successor (R527). -/
def newestLog (rram : Tbl W32) : Option LogEntry :=
  ((List.range 64).map (logAt rram)).find? fun e => e.seq != 0 && (logAt rram (e.seq % 64)).seq != logSucc e.seq

/-- The fault unit of a start takes up the numbering of the log (R527). -/
def faultStart (rram : Tbl W32) : FaultUnit :=
  let e := newestLog rram
  { FaultUnit.reset with newest := e, seq := (e.map (·.seq)).getD 0 }

/-- Registers of the Byre keep their values; BY_KCLK_MEAS reads 0 while the core does not run (R454, R456). -/
def byreRegs (s : State) : Tbl W32 :=
  s.regs.filter fun p => match regOfAddr p.1 with
    | some .byKclkMeas => false
    | some r => isByre r
    | none => false

/-- The Byre's account of a start, as it is before one. -/
def byreAlone (b : Byre) : Byre :=
  { b with
    ready := false, readyRisen := false, nolock := false, warm := false, steps := 0, checks := false, spots := 0, tready := 0 }

/-- The fuses and the purge-pending mark outlast a start; the life-cycle state is read anew (R478, R480, R487). -/
def fusesKept (t : SelfTest) : SelfTest :=
  { SelfTest.reset with
    lcState := lcOfFuses t.fuses, fuses := t.fuses, compatFuses := t.compatFuses, compatDis := t.compatDis
    purgeMark := t.purgeMark }

/-- Blowing that a reset or a loss of power cuts short leaves fuses of the target group blown that nobody chose: a free value
(R481; log entry 6, DESIGN CHOICE). -/
def blowCut (s : State) : State :=
  match s.st.trans with
  | .blowing target _ _ =>
    let r := takeFree s
    { r.2 with st := { r.2.st with fuses := tset 0 target (tget 0 target r.2.st.fuses ||| BitVec.ofNat 16 r.1) r.2.st.fuses } }
  | _ => s

/-- The core is reset: what the Byre, the MRAM, the OTP and JTAG hold stays, everything else has its reset value.
(log entry 55, DEDUCED) -/
def coreLost (s : State) : State :=
  let s := blowCut s
  { State.reset with
    free := s.free, otp := s.otp, busData := s.busData, busStatus := s.busStatus, pending := s.pending
    regs := byreRegs s
    byre := byreAlone s.byre
    ev := { Ev.reset with lastEv := s.ev.lastEv.filter fun p => 248 ≤ p.1 && p.1 < 256 }
    tn := { TenUnit.reset with keys := s.tn.keys, zeroMark := s.tn.zeroMark }
    mspi := { Mspi.reset with wbuf := s.mspi.wbuf, applyAt := s.mspi.applyAt, out := s.mspi.out }
    jtag := { s.jtag with scanMode := false, chains := [] }
    jr := { Journal.reset with halfA := s.jr.halfA, halfB := s.jr.halfB, bad := s.jr.bad, activeB := s.jr.activeB, fill := s.jr.fill }
    st := fusesKept s.st
    fl := faultStart s.byre.rram }

/-- Every pending slice of logic BIST is cancelled; a slice in progress stops where it is, and its cluster stays out of service
until its state is lost with the core (R499). -/
def cancelSlices (s : State) : State :=
  if s.st.lbPend = 0 then s
  else
    let s := forN 32 (fun c s => if lbPending s c then setRfld (.stClRes c) 28 4 4 s else s) s
    raise .stEvents 2 { s with st := { s.st with lbPend := 0, slices := [] } }

/-! ### Falling rails (R428, R452, R453, R466) -/

/-- The Byre begins to lower the rails: the last enable raised falls at once, and the core is held in reset.
(log entry 58, DEDUCED) -/
def lowerRails (s : State) : State :=
  let s := coreLost s
  modBy (fun b => { b with state := .powerdown, stepAt := b.kc, pwren := b.pwren >>> 1, sleepHeld := false }) s

/-- PWR_EN0 has fallen: SLEEP, and a held wake is taken (R462, R467). -/
def enterSleep (s : State) : State :=
  let back := s.byre.downFor
  let s := modBy (fun b => { b with
    state := .sleep, sleptAt := b.kc, rails := 0, downFor := none
    restartAt := if back.isSome then some (b.kc + 32) else none }) { s with jtag := Jtag.reset }
  let s := raiseBy .byEvents 1 s
  match s.byre.wpend with
  | some w => wakeEvent w.cause w.mask (modBy (fun b => { b with wpend := none }) s)
  | none => s

/-- Rails lowered with none left to lower are down at once. -/
def lowerNow (s : State) : State :=
  let s := lowerRails s
  if s.byre.pwren = 0 then enterSleep s else s

/-- POWER_DOWN_STEP: the next enable falls. -/
def powerDownStep (s : State) : State :=
  let s := toKc (s.byre.stepAt + rfld s .byPseq 0 8) s
  let s := modBy (fun b => { b with stepAt := b.kc, pwren := b.pwren >>> 1 }) s
  if s.byre.pwren = 0 then enterSleep s else s

def execPowerDownStep (s : State) : Res := .next (when (s.byre.state == .powerdown) powerDownStep s)

/-- POWER_GOOD_TIMEOUT: the power-up is abandoned (R451). (log entry 58, DEDUCED) -/
def powerGoodTimeout (s : State) : State :=
  let s := toKc (s.byre.stepAt + 32 * rfld s .byPseq 24 8) s
  lowerNow (raiseBy .byEvents 5 s)

def execPowerGoodTimeout (s : State) : Res :=
  .next (when (s.byre.state == .powerup && s.byre.pwren != 0) powerGoodTimeout s)

/-- BROWNOUT: the rails named are lost while the core is released (R453). -/
def brownout (lost : BitVec 6) (s : State) : State :=
  let s := safeSet 5 (modBy (fun b => { b with rails := b.rails &&& ~~~lost, decided := (b.kc, 2) }) s)
  -- VDD_CORE is bit 0 and VDD_MRAM bit 5 of BY_STATUS.RAILS
  let s := if s.byre.rails &&& 0x21 = 0x21 then byreEnds s else s
  let again := rbit s .byCfg 8
  let s := lowerNow (modBy (fun b => { b with downFor := if again then some 4 else none }) s)
  raiseBy .byEvents 4 s

def execBrownout (rails : BitVec 6) (s : State) : Res :=
  .next (when ((s.released || s.jtag.scanMode) && rails != 0) (brownout rails) s)

/-- BROWNOUT_RESTART: 32 keeper cycles after the rails are down (R453). -/
def brownoutRestart (s : State) : State :=
  match s.byre.restartAt with
  | some n => powerUp 4 (writeCause 4 0 0 0 (toKc n s))
  | none => s

def execBrownoutRestart (s : State) : Res := .next (when (s.byre.state == .sleep) brownoutRestart s)

/-! ### Deep sleep and power-down (R466, R467) -/

/-- Words 5 to 10 of the wake record as they stand now (Table 16-4). (log entry 61, DEDUCED) -/
def wakeWords (s : State) : List W32 :=
  let t := absNow s
  let f := s.fr.count
  [lo32 t, hi32 t, BitVec.ofNat 32 f, at32 (f / 2 ^ 32) 0, reg s .tbEpoch, at32 (rfld s (.adSys 32) 0 16) 0]

/-- The drain begins (Table 16-7, time 0). (log entry 61, DEDUCED) -/
def enterDrain (s : State) : State :=
  let s := cancelSlices s
  let words := wakeWords s
  safeStart 2 (modBy (fun b => { b with state := .drain, ready := false, sleepHeld := false, drainAt := b.kc, drainSave := words }) s)

/-- A SLEEP reaches the Byre (R466). -/
def sleepReq (s : State) : State :=
  match s.byre.state with
  | .run => enterDrain s
  | .powerup | .start => modBy (fun b => { b with sleepHeld := true }) s
  | _ => s

/-- The wake record is written and the rails fall (Table 16-7, from + 2 keeper cycles). -/
def drained (s : State) : State :=
  let s := toKc (s.byre.kc + 2) s
  let v := rbit s .tbBand 31
  let w0 := at32 1 31 ||| at32 (b2n v) 30 ||| at32 (rfld s .tbBand 0 6) 24
  let s := rramSet 0 w0 s
  let s := forL (fun (p : W32 × Nat) s => rramSet (5 + p.2) p.1 s) s.byre.drainSave.zipIdx s
  lowerNow s

/-- DRAIN_COMPLETE: the writer's queue is empty. -/
def execDrainComplete (s : State) : Res := .next (when (s.byre.state == .drain && !writerWorks s) drained s)

/-- DRAIN_TIMEOUT: the limit of the drain is reached. -/
def drainTimeout (s : State) : State :=
  let s := toKc (s.byre.drainAt + 32 * rfld s .byPseq 16 8) s
  let s := if writerWorks s then raiseBy .byEvents 6 (byreEnds s) else s
  drained s

def execDrainTimeout (s : State) : Res := .next (when (s.byre.state == .drain) drainTimeout s)

/-- An OFF reaches the Byre (R466). -/
def offReq (s : State) : State :=
  match s.byre.state with
  | .sleep | .powerdown => s
  | _ => lowerNow (byreEnds (cancelSlices (safeSet 2 s)))

/-! ### Power-up and release (R450, R464, R468, R469) -/

/-- The rails of step i of Table 16-1, in the order of BY_STATUS.RAILS. -/
def railsOf (i : Nat) : BitVec 6 :=
  match i with
  | 1 => 0x30
  | 2 => 0x01
  | 3 => 0x0A
  | _ => 0x04

/-- Memories are initialised and the key area is read, after what a power loss left pending (R382, R480). -/
def earlySteps (s : State) : State :=
  if s.st.lcState = 5 then modBy (fun b => { b with steps := 1 }) s
  else
    let s := if s.st.purgeMark then
        { s with
          tn := { s.tn with keys := [] }
          jr := { s.jr with halfA := [], halfB := [], bad := [], fill := 0, activeB := false }
          st := { s.st with purgeMark := false } }
      else s
    let s := if s.tn.zeroMark then { s with tn := { s.tn with keys := [], zeroMark := false } } else s
    modBy (fun b => { b with steps := 3 }) s

/-- The TS of a warm start begins from the band of the wake record (R469). -/
def warmTs (w0 : W32) (s : State) : State :=
  let s := if bitAt w0 30 then setReg .tbBand (at32 1 31 ||| at32 (fld w0 24 6) 0) s else s
  toQualify (modTb (fun t => { t with cold := false }) s)

/-- The core is released: a start begins, warm or cold. -/
def releaseCore (s : State) : State :=
  let w0 := rramGet s 0
  let warm := (s.byre.cause == 6 || s.byre.cause == 7) && bitAt w0 31 && rbit s .byCfg 4
  let s := rramSet 0 (w0 &&& 0x7FFFFFFF) (coreLost s)
  let s := modBy (fun b => { b with state := .start, boot := (b.boot + 1) % 2 ^ 32, warm := warm, resetEnd := none }) s
  let s := if s.st.lcState = 5 then safeSet 6 s else s
  let s := earlySteps { s with released := true }
  let s := { s with tb := { s.tb with lastEpoch := storedEpoch s } }
  if warm && s.st.lcState != 5 then warmTs w0 s else s

/-- POWER_STEP: the Byre's next step up: an enable, or after the last step the release (R450). -/
def powerStep (s : State) : State :=
  let n := s.byre.pwren.toNat
  let wait := s.byre.stepAt + 1 + rfld s .byPseq 0 8
  let up (bit : Nat) (at' : Nat) (s : State) : State :=
    let s := toKc at' s
    modBy (fun b => { b with pwren := b.pwren ||| BitVec.ofNat 4 bit, stepAt := b.kc }) s
  let good (i : Nat) (s : State) : State := modBy (fun b => { b with rails := b.rails ||| railsOf i }) s
  match n with
  | 0 => up 1 (s.byre.stepAt + 1) s
  | 1 => up 2 wait (good 1 s)
  | 3 => up 4 wait (good 2 s)
  | 7 => up 8 wait (good 3 s)
  | _ => releaseCore (good 4 (toKc wait s))

def execPowerStep (s : State) : Res := .next (when (s.byre.state == .powerup) powerStep s)

/-- BYRE_POWER_ON_RESET: the whole device starts anew; the MRAM and the OTP keep their contents (R449, R454). -/
def byrePor (s : State) : State :=
  let old := s
  let s := coreLost { s with regs := [] }
  let s := { s with byre := Byre.reset, jtag := Jtag.reset, mspi := Mspi.reset, ev := Ev.reset, fl := FaultUnit.reset }
  { s with pending := old.pending }

def execByrePowerOnReset (s : State) : Res := .next (byrePor s)

/-! ### Hard reset (R474) -/

/-- The core is held in reset with the rails up: the cause, and the edge at which the reset ends by itself. -/
def holdReset (cause : Nat) (ends : Option Nat) (s : State) : State :=
  let s := byreEnds (cancelSlices (safeSet 3 s))
  let s := writeCause cause 0 0 0 (coreLost s)
  modBy (fun b => { b with
    state := .reset, cause := cause, resetEnd := ends, sleepHeld := false, wpend := none }) s

/-- A hard reset is recognised; in SLEEP it starts a power-up. -/
def hardReset (cause : Nat) (ends : Option Nat) (s : State) : State :=
  match s.byre.state with
  | .sleep => raiseBy .byEvents 2 (powerUp cause (writeCause cause 0 0 0 (safeSet 3 s)))
  | .powerdown => s
  | _ => raiseBy .byEvents 2 (holdReset cause ends s)

/-- RST_N is low at two consecutive keeper edges. -/
def execRstN (s : State) : Res := .next (request 3 (hardReset 2 none) (toKc (s.byre.kc + 1) s))

/-- HARD_RESET_END: the second edge after RST_N is sampled high. A power-up that the reset interrupted goes on. -/
def hardResetEnd (s : State) : State :=
  let s := match s.byre.resetEnd with
    | some n => toKc n s
    | none => toKc (s.byre.kc + 2) s
  if s.byre.pwren = 0xF && s.byre.rails = 0x3F then releaseCore s
  else modBy (fun b => { b with state := .powerup, resetEnd := none, stepAt := b.kc }) s

def execHardResetEnd (s : State) : Res := .next (when (s.byre.state == .reset) hardResetEnd s)

/-- A cold start that the core requests (Table 16-5, 0x5): the core is held in reset as by a hard reset. -/
def coldStart (s : State) : State := holdReset 5 (some (s.byre.kc + 2)) s

/-! ### READY (R469, R472, R473) -/

/-- The loopback pair of lane k has no lane in a quarantined cluster (R497, R503). -/
def pairUsable (s : State) (k : Nat) : Bool := !quarantined s (pulseCl k) && !quarantined s (stampCl k)

/-- Steps 5 and 6 begin: on a cold start every lane becomes due for a full pass and a full calibration; the analog
self-test waits; on a warm start every pair's spot check opens (R126, R132, R155, R501). -/
def beginChecks (s : State) : State :=
  let ks := (List.range 256).filter (pairUsable s)
  let s := modBy (fun b => { b with checks := true }) s
  let s := { s with st := { s.st with astTodo := [0, 1, 2, 3, 4, 5], astSrc := 1, astLog := [] } }
  let s := setReg .stAst 0 s
  if s.byre.warm then modBy (fun b => { b with spots := BitVec.ofNat 256 (lsum (ks.map fun k => 2 ^ k)) }) s
  else forL (fun k s =>
    modPulse k (fun l => { l with cal := { l.cal with due := .now, full := true } })
      (modStamp k (fun l => { l with cal := { l.cal with due := .now } }) s)) ks s

/-- Every lane has finished its calibration of the start. -/
def calDone (s : State) : Bool :=
  s.byre.warm ||
    (s.pl.all (fun p => p.2.cal.due != .now && !p.2.cal.busy) && s.sl.all (fun p => p.2.cal.due != .now && !p.2.cal.busy))

/-- A step of PW_STEP is complete. -/
def stepDone (n : Nat) (s : State) : State := modBy (fun b => { b with steps := b.steps ||| BitVec.ofNat 7 (2 ^ n) }) s

/-- The steps that are complete, sticky once they are (PW_STEP); the checks begin once the journal is replayed and the TS
has locked. -/
def checkSteps (s : State) : State :=
  let s := if !s.tb.firstLock then stepDone 3 s else s
  let s := if s.byre.steps &&& 0x0C = 0x0C && !s.byre.checks then beginChecks s else s
  if !s.byre.checks then s
  else
    let s := if calDone s then stepDone 4 s else s
    let s := if s.st.astTodo.isEmpty then stepDone 5 s else s
    if s.byre.warm && s.byre.spots = 0 && s.st.astTodo.isEmpty then stepDone 6 s else s

/-- READY rises. -/
def readyUp (s : State) : State :=
  let n := lc s
  let held := s.byre.sleepHeld
  let s := modBy (fun b => { b with state := .run, ready := true, readyRisen := true, tready := n % 2 ^ 32 }) s
  let s := safeClear 0x3C s
  if held then enterDrain s else s

/-- Every step of R469 that a start of its kind has is complete. -/
def stepsComplete (s : State) : Bool :=
  let need : BitVec 7 := if s.byre.warm then 0x7F else 0x3F
  s.byre.steps &&& need == need

/-- READY_RISE: every step is complete and the TS is locked. -/
def readyRise (s : State) : State :=
  let s := checkSteps s
  if stepsComplete s && tsLocked s then readyUp s else s

def execReadyRise (s : State) : Res := .next (when (s.released && s.byre.state == .start) readyRise s)

/-- NOLOCK_TIMEOUT: 200 ms after the release the TS is not locked (R472). -/
def nolockTimeout (s : State) : State :=
  let s := toLc 62500000 s
  let warm := s.byre.warm
  let s := forN 256 (fun k => modPulse k fun l => { l with cal := { l.cal with stale := l.cal.stale || warm } }) s
  let s := forN 256 (fun k => modStamp k fun l => { l with cal := { l.cal with stale := l.cal.stale || warm } }) s
  readyUp (logOnly 0x1A 3 0 (modBy (fun b => { b with nolock := true }) s))

def execNolockTimeout (s : State) : Res :=
  .next (when (s.released && s.byre.state == .start && s.jr.replayed && !tsLocked s) nolockTimeout s)

/-- JOURNAL_REPLAY_DONE: step 3 is complete; a cold start's TS begins (R443, R469). -/
def replayDone (s : State) : State :=
  let s := stepDone 2 (replayJournal s)
  let s := if !s.byre.warm && s.tb.ts == .off && rbit s .tbCtrl 4 then toQualify (modTb (fun t => { t with cold := true }) s)
    else s
  checkSteps s

/-! ### Byre registers (R463, R476, R477, R529, R530, R550) -/

/-- SAFE_CLR at a keeper edge, with SAFE_N high at it and at the one before (R530). -/
def safeClr (high : Bool) (s : State) : State :=
  if high && !s.byre.pinLow then safeClear 0x03 s else raiseBy .byEvents 7 s

/-- A write of BY_CTRL applies, with SAFE_N high or not (R462, R466, R474, R475, R530). -/
def byCtrlApply (high : Bool) (v : W32) (s : State) : State :=
  if v &&& 0xB0 != 0 && fld v 24 8 != 0xA5 then raiseBy .byEvents 7 s
  else
    let s := if bitAt v 1 then safeClr high s else s
    let s := if bitAt v 0 then safeStart 1 s else s
    if bitAt v 7 then request 3 (hardReset 3 (some (s.byre.kc + 6))) s
    else if bitAt v 5 then request 4 offReq s
    else if bitAt v 4 then request 5 sleepReq s
    else if bitAt v 6 then request 6 (wakeTaken 7) s
    else s

/-- A write of BY_RRAM_DATA: the wake record and the fault log ignore it (R463). -/
def rramWrite (v : W32) (s : State) : State :=
  let i := rramIdx s
  let s := if 0x10 ≤ i && i < 0x200 then rramSet i v s else raiseBy .byEvents 7 s
  setRfld .byRramAddr 2 10 (i + 1) s

/-- The bits `mask` of register r take those of v, by the register's own rules. -/
def byreTakes (high : Bool) (r : Reg) (mask v : W32) (s : State) : State :=
  let w := (reg s r &&& ~~~mask) ||| (v &&& mask)
  match r with
  | .byCtrl => byCtrlApply high v s
  | .byRramData => rramWrite v s
  | .byPseq => atLeast r 0 8 1 (atLeast r 16 8 1 (atLeast r 24 8 1 (setReg r w s)))
  | .byKtReload => setReg r (if w = 0 then 1 else w) s
  | .byKtCfg => ktCfgApply w s
  | .byClk => clkSrcApply (bitAt w 0) s
  | .byKcThr i => kcThrApply i w s
  | _ => setReg r w s

/-- A mirror write reaches its register (R550). -/
def mirrorApply (high : Bool) (m : ByWrite) (s : State) : State :=
  let s := toKc m.due s
  match regOfAddr m.addr with
  | some r => byreTakes high r m.mask m.value s
  | none => s

/-- The mirror writes due by keeper edge n apply, in order of acceptance. (log entry 59, DEDUCED) -/
def mirrorDue (high : Bool) (n : Nat) (s : State) : State :=
  let due := s.byre.mirror.filter fun m => decide (m.due ≤ n)
  forL (mirrorApply high) due (modBy (fun b => { b with mirror := b.mirror.filter fun m => decide (n < m.due) }) s)

/-- MIRROR_WRITE_APPLY: the earliest mirror writes under way apply. -/
def mirrorNext (s : State) : State :=
  match s.byre.mirror with
  | [] => s
  | m :: l => mirrorDue true (l.foldl (fun n x => min n x.due) m.due) s

def execMirrorWriteApply (s : State) : Res := .next (mirrorNext s)

/-- The MSPI may write register r (Table 16-10). -/
def mspiMay (s : State) (r : Reg) : Bool :=
  match r with
  | .byCtrl | .byEvents | .byRramAddr | .byRramData => true
  | .byStatus | .byKclkMeas | .byKtCount | .byBoot => false
  | _ => isByre r && !rbit s .byCfg 31

/-- An MSPI write to register r applies at the present keeper edge, where it is accepted (R342, R477). -/
def mspiTakes (high : Bool) (r : Reg) (v : W32) (s : State) : State :=
  let bad := match r with
    | .evMcProd n _ => prodBad n v
    | _ => false
  if bad then raiseBy .byEvents 7 (if s.released then raise .evEvents 0 s else s)
  else if !mspiMay s r then raiseBy .byEvents 7 s
  else match r with
    | .byCfg => byreTakes high r (regRwMask r) (v ||| (reg s r &&& 0x80000000)) s
    | .byCtrl | .byRramData => byreTakes high r 0xFFFFFFFF v s
    | _ =>
      let s := if regRwMask r = 0 then s else byreTakes high r (regRwMask r) v s
      setReg r (reg s r &&& ~~~(v &&& regW1cMask r)) s

/-- MSPI_WRITE_APPLY: the oldest buffered word applies at its keeper edge, after mirror writes due by then. -/
def mspiApply (s : State) : State :=
  match s.mspi.wbuf with
  | [] => s
  | (o, v) :: l =>
    let n := s.mspi.applyAt
    let s := toKc n (mirrorDue true n s)
    let s := { s with mspi := { s.mspi with wbuf := l, applyAt := n + 1 } }
    match regOfAddr (0x700000 + o) with
    | some r => mspiTakes true r v s
    | none => raiseBy .byEvents 7 s

/-- The buffered MSPI words due by keeper edge n apply. -/
def mspiDue (n : Nat) : Nat → State → State
  | 0, s => s
  | f + 1, s => if s.mspi.wbuf.isEmpty || n < s.mspi.applyAt then s else mspiDue n f (mspiApply s)

/-- Keeper edge n begins: the writes due by it apply, and hold for the events that begin at it (R346, R550). -/
def edgeBegins (n : Nat) (s : State) : State := mspiDue n 16 (mirrorDue true n s)

def execKeeperCrossing (i : Nat) (cmpB level : Bool) (kc : Nat) (s : State) : Res :=
  onUnit (i < 8) (when (rbit s (.byKcCfg i) 31 && kcState (kcomp s i) cmpB != level)
    (fun s => keeperCrossing i cmpB level (sampleEdge s (max kc s.byre.kc)) (edgeBegins (sampleEdge s (max kc s.byre.kc)) s)) s)

def execWakeIn (n : Nat) (level : Bool) (s : State) : Res :=
  onUnit (n < 4) (when (fld s.byre.win n 1 != b2n level) (fun s => wakeIn n level (edgeBegins (s.byre.kc + 1) s)) s)

/-- The keeper edge at which the keeper timer expires. -/
def expiryKc (s : State) : Nat := max s.byre.kc (s.byre.ktAt + s.byre.ktLoad * ktPre s)

def execKeeperTimerExpiry (s : State) : Res :=
  .next (when (rbit s .byKtCfg 31) (fun s => timerExpiry (edgeBegins (expiryKc s) s)) s)

/-- A write of register r through a path, carried to its keeper edge: the second after it is accepted (R412, R550).
(log entry 59, DEDUCED) -/
def byWrite (src : ByPath) (high : Bool) (r : Reg) (v : W32) (s : State) : State :=
  match src with
  | .mirror who =>
    if !s.released then s
    else
      let s := writeRow who r v s
      if s.busStatus != 0 then s else mirrorDue high (s.byre.kc + 2) s
  | .mspi =>
    let n := s.byre.kc + 2
    mspiTakes high r v (toKc n (mirrorDue high n s))

def execSleep (src : ByPath) (key : W8) (s : State) : Res :=
  .next (byWrite src true .byCtrl (at32 key.toNat 24 ||| 0x10) s)
def execOff (src : ByPath) (key : W8) (s : State) : Res :=
  .next (byWrite src true .byCtrl (at32 key.toNat 24 ||| 0x20) s)
def execWake (src : ByPath) (s : State) : Res := .next (byWrite src true .byCtrl 0x40 s)
def execHreset (src : ByPath) (key : W8) (s : State) : Res :=
  .next (byWrite src true .byCtrl (at32 key.toNat 24 ||| 0x80) s)
def execSafeClr (src : ByPath) (safeNHigh : Bool) (s : State) : Res := .next (byWrite src safeNHigh .byCtrl 0x02 s)
def execGateAll (src : ByPath) (s : State) : Res := .next (byWrite src true .byCtrl 0x01 s)

/-- SAFE_N: a low level of at least 5 ns sets PIN (R529). -/
def safeN (level : Bool) (s : State) : State :=
  let s := modBy (fun b => { b with pinLow := !level }) s
  if level then s else safeStart 0 s

def execSafeN (level : Bool) (s : State) : Res := .next (safeN level s)

def execByClkSrc (src : ByPath) (crystal : Bool) (s : State) : Res :=
  .next (byWrite src true .byClk (at32 (b2n crystal) 0) s)
def execKcThrWrite (src : ByPath) (i : Nat) (v : W32) (s : State) : Res :=
  onUnit (i < 8) (byWrite src true (.byKcThr i) v s)
def execKtCfgWrite (src : ByPath) (v : W32) (s : State) : Res := .next (byWrite src true .byKtCfg v s)
def execByRramDataWrite (src : ByPath) (v : W32) (s : State) : Res := .next (byWrite src true .byRramData v s)

end Sys2Proof.Machine
end

