-- ==== Sys2Proof/Machine/SelfTest.lean ====
section
/-! DEFINITION. Zeroisation (R381, R382), the life cycle (R478-R488), logic BIST (R489-R499) and the analog self-test
(R500-R503). The commands that start them stand in Commands.lean, the JTAG instructions in Jtag.lean. -/
namespace Sys2Proof.Machine

def modSt (f : SelfTest → SelfTest) (s : State) : State := { s with st := f s.st }
def modTn (f : TenUnit → TenUnit) (s : State) : State := { s with tn := f s.tn }

/-! ### Zeroisation (R381) -/

/-- The replay copies of protected streams are discarded (R366, R381). -/
def dropCopies (ms : List Nat) (s : State) : State :=
  forL (fun m s =>
    if usesCtr s m || usesMac s m then modStream m (fun u => { u with window := [], replays := [] }) s else s) ms s

/-- Zeroisation begins: the mark is written, post slots and replay copies are gone. -/
def zeroiseStart (s : State) : State :=
  let s := modTn (fun t => { t with zeroMark := true, zeroising := true }) s
  let s := forL (fun x => modCtx x freePost) (s.cx.map (·.1)) s
  dropCopies (s.sp.streams.map (·.1)) s

/-- The key area is overwritten: no key, LAST and RESERVED 0 for every tenant. -/
def zeroiseEnd (s : State) : State :=
  let s := modTn (fun t => { t with keys := [], jobs := [], zeroMark := false, zeroising := false }) s
  raise .tnEvents 4 (forL (fun t => modTenant t fun u => { u with last := 0 }) (tenantNos s) s)

/-- ZEROISE_DONE, with what COMPAT_SCAN does after it (R486). -/
def zeroiseDone (s : State) : State :=
  let s := zeroiseEnd s
  if s.st.compatPend then modSt (fun t => { t with compatPend := false, compat := true, compatFuses := min 63 (t.compatFuses + 1) }) s
  else s

def execZeroiseDone (s : State) : Res := .next (when (s.released && s.tn.zeroising) zeroiseDone s)

/-! ### Life-cycle transitions (R478-R482, Table 17-2) -/

/-- A transition by LC_ADVANCE that Table 17-2 lists. -/
def advanceListed (now' target : Nat) : Bool :=
  (now' == 2 && (target == 3 || target == 4 || target == 5)) || (now' == 3 && (target == 4 || target == 5))

/-- The golden set passes its CRC (LC_REV.GOLD_OK). -/
def goldOk (s : State) : Bool := fld (otpReg s .lcRev) 8 1 == 1

/-- A transition by LCADV that Table 17-2 lists; the golden set is checked before PROVISIONED. -/
def lcadvListed (s : State) (target : Nat) : Bool :=
  (s.st.lcState == 0 && target == 1) || (s.st.lcState == 1 && target == 2 && goldOk s) ||
  (s.st.lcState == 1 && target == 5) || (s.st.lcState == 4 && target == 5)

/-- No transition is under way. -/
def noTransition (s : State) : Bool := s.st.trans == .none

/-- A transition that begins with a purge, at lane cycle n at the latest. -/
def toPurge (target n : Nat) (s : State) : State := modSt (fun t => { t with trans := .toPurge target n }) s

/-- The fuses of a target group are being blown: at most 2 ms (R481). -/
def toBlow (target : Nat) (after : Bool) (s : State) : State :=
  modSt (fun t => { t with trans := .blowing target (lc s + 625000) after }) s

/-- The words that a purge overwrites, one in a lane cycle: the key area and both halves (Table 15-1, R480). -/
def purgeWords : Nat := 4096 + 2 * halfWords

/-- A purge begins: it zeroises, and writes its mark (R480). (log entry 62, DEDUCED) -/
def purgeStart (target : Nat) (s : State) : State :=
  let s := zeroiseEnd (zeroiseStart s)
  modSt (fun t => { t with purgeMark := true, trans := .purging target (lc s + purgeWords) }) s

/-- No response waits or leaves on the path that could still carry the one of LC_ADVANCE: nothing that is built is
unsent. -/
def responsesGone (s : State) : Bool :=
  s.pt.all (fun p => p.2.resps.isEmpty && (match p.2.sending with
    | some (.response, _) => false
    | _ => true)) && s.mspi.rsp.isNone

/-- PURGE_START: the response has left, or 1 ms has passed (R482). -/
def purgeBegins (s : State) : State :=
  match s.st.trans with
  | .toPurge target n => purgeStart target (if responsesGone s then s else toLc n s)
  | _ => s

def execPurgeStart (s : State) : Res := .next (when s.released purgeBegins s)

/-- PURGE_DONE: key area and halves hold zero words; the mark is cleared, and the fuses are blown (R480, R481).
(log entry 62, DEDUCED) -/
def purgeDone (s : State) : State :=
  match s.st.trans with
  | .purging target n =>
    let s := toLc n s
    let s := { s with jr := { s.jr with halfA := [], halfB := [], bad := [], fill := 0, activeB := false } }
    toBlow target true (modSt (fun t => { t with purgeMark := false }) s)
  | _ => s

def execPurgeDone (s : State) : Res := .next (when s.released purgeDone s)

/-- The 16 fuses of a group are blown. -/
def blowGroup (target : Nat) (s : State) : State := modSt (fun t => { t with fuses := tset 0 target 0xFFFF t.fuses }) s

/-- The fuses read back: a purge is followed by a cold start; FIELD takes effect at once (R481). -/
def fusesBlown (s : State) : State :=
  match s.st.trans with
  | .blowing target _ after =>
    let s := modSt (fun t => { t with trans := .none }) (blowGroup target s)
    if after then coldStart s
    else if target = 3 then modSt (fun t => { t with lcState := 3 }) s
    else s
  | _ => s

/-- COMPAT_SCAN may be accepted: 0, or the code of the refusal (R486). -/
def compatScanCode (s : State) : Nat :=
  if s.st.compatDis then 0x04
  else if s.st.lcState != 3 || s.st.compatFuses = 63 || s.jtag.scanMode || !noTransition s then 0x0A
  else 0

/-- COMPAT_SCAN is accepted (R486). -/
def compatScan (s : State) : State := zeroiseStart (modSt (fun t => { t with compatPend := true }) s)

/-! ### Logic BIST (R489-R499) -/

/-- A lane of a pulse cluster is drained. -/
def pulseDrained (s : State) (k : Nat) : Bool :=
  let l := pulse s k
  !(playback s k).play && !l.gateOpen && queuedCount l == 0 && !l.level

/-- A lane of a stamp cluster is drained. -/
def stampDrained (s : State) (k : Nat) : Bool :=
  !rbit s (.slCfg k) 0 && (stamp s k).queue.isEmpty && (meas s k).state == .idle

/-- A context at rest (R490). -/
def atRest (u : Ctx) : Bool := u.state == .free || u.state == .stopped || u.state == .ended || u.state == .faulted

/-- Cluster c is drained (R490); a quarantined cluster counts as drained (R489). -/
def clusterDrained (s : State) (c : Nat) : Bool :=
  quarantined s c ||
  ((ctxsOf s c).all (fun x => atRest (ctx s x)) &&
    (List.range 16).all fun n => if c < 16 then pulseDrained s (16 * c + n) else stampDrained s (16 * (c - 16) + n))

/-- The life-cycle state permits logic BIST (Table 17-3). -/
def lbistState (s : State) : Bool := 1 ≤ s.st.lcState && s.st.lcState ≤ 4

/-- The code of LBIST_RUN with a mask (R489). -/
def lbistCode (mask : W32) (s : State) : Nat :=
  if mask = 0 then 0x05
  else if lbistState s && s.st.lbPend &&& mask == 0 && s.st.astTodo.isEmpty &&
    ((List.range 32).all fun c => fld mask c 1 == 0 || clusterDrained s c) then 0
  else 0x0A

/-- The named clusters become pending together. -/
def lbistPend (mask : W32) (s : State) : State :=
  let s := modSt (fun t => { t with lbPend := t.lbPend ||| mask }) s
  forN 32 (fun c s => if fld mask c 1 = 1 then setReg (.stClRes c) 0 s else s) s

/-- Blocks done of the test of cluster c. -/
def blocksDone (s : State) (c : Nat) : Nat := rfld s (.stClRes c) 0 6

/-- The first lane cycle at which a slice of pending cluster c may start (R492). -/
def sliceFrom (s : State) (c : Nat) : Nat :=
  let other := match s.st.lastStart with
    | some n => n + 15625
    | none => 0
  let own := match tget 0 c s.st.lastEnd with
    | 0 => 0
    | n + 1 => n + 62500
  max (lc s) (max other own)

/-- The clusters that wait for a slice. -/
def sliceWaiting (s : State) : List Nat := (List.range 32).filter fun c => lbPending s c && !outOfService s c

/-- The next slice: the earliest edge at which one may start, and the lowest cluster that may start there. -/
def nextSlice (s : State) : Option (Nat × Nat) :=
  (sliceWaiting s).foldl (fun a c =>
    let n := sliceFrom s c
    match a with
    | some (m, d) => if n < m then some (n, c) else some (m, d)
    | none => some (n, c)) none

/-- LBIST_SLICE_START: the cluster leaves service (Table 17-5, time 0). -/
def sliceStart (s : State) : State :=
  match nextSlice s with
  | some (n, c) =>
    let s := toLc n s
    let k : Slice := { cluster := c, start := n, blocks := min (rfld s .frBudLb 8 6) (40 - blocksDone s c), restored := false,
                       failCause := 0 }
    modSt (fun t => { t with slices := t.slices ++ [k], lbRun := t.lbRun ||| at32 1 c, lastStart := some n }) s
  | none => s

def execLbistSliceStart (s : State) : Res :=
  .next (when (s.released && decide (s.st.slices.length < rfld s .frBudLb 0 3)) sliceStart s)

/-- How the blocks of a slice end: the first that differs, if one does. A golden set that fails its CRC makes every block
fail (R494). (log entry 63, DEDUCED) -/
def firstBad (s : State) (k : Slice) (v : BistVerdict) : Option Nat :=
  if !goldOk s then some (blocksDone s k.cluster) else match v with
    | .signature b => some b
    | _ => none

/-- A context's registers, flags and buffers are lost at a restore that failed (R495, R374). -/
def restoreFailed (c : Nat) (s : State) : State :=
  let r := takeFree s
  let s := eccMulti 6 c (r.1 % 2 ^ 22) 0 r.2
  forL (fun x s => if ctxValid (ctx s x) then resetReg (.ctxExh x) (modCtx x ctxCleared s) else s) (ctxsOf s c) s

/-- A slice with a change. -/
def modSlice (c : Nat) (f : Slice → Slice) (s : State) : State :=
  modSt (fun t => { t with slices := t.slices.map fun k => if k.cluster = c then f k else k }) s

/-- LBIST_SLICE_RESTORE: the blocks end and the state is restored (Table 17-5, 120 + 10n). (log entry 63, DEDUCED) -/
def sliceRestore (k : Slice) (v : BistVerdict) (s : State) : State :=
  let c := k.cluster
  let done := blocksDone s c
  let bad := firstBad s k v
  let n := match bad with
    | some b => b + 1 - done
    | none => k.blocks
  let s := toLc (k.start + 37500 + 3125 * n) s
  let s := setRfld (.stClRes c) 0 6 (done + n) s
  let s := match bad with
    | some b => setRfld (.stClRes c) 8 6 b s
    | none => s
  let lost := v == .restore
  let cause := if bad.isSome then 2 else if lost then 3 else 0
  let s := modSlice c (fun k => { k with blocks := n, restored := true, failCause := cause }) s
  if lost then restoreFailed c s else s

/-- The verdict names a block of the slice. -/
def verdictOf (s : State) (k : Slice) (v : BistVerdict) : Bool :=
  match v with
  | .signature b => decide (blocksDone s k.cluster ≤ b) && decide (b < blocksDone s k.cluster + k.blocks)
  | _ => true

/-- The slice of cluster c in progress. -/
def sliceOf (s : State) (c : Nat) : Option Slice := s.st.slices.find? fun k => k.cluster == c

/-- The slice of cluster c, where its blocks are running. -/
def sliceRestoreOf (c : Nat) (v : BistVerdict) (s : State) : State :=
  match sliceOf s c with
  | some k => if k.restored || !verdictOf s k v then s else sliceRestore k v s
  | none => s

def execLbistSliceRestore (c : Nat) (verdict : BistVerdict) (s : State) : Res :=
  onUnit (c < 32) (when s.released (sliceRestoreOf c verdict) s)

/-- Register writes that waited for the restore apply (R493). -/
def heldWrites (c : Nat) (s : State) : State :=
  let mine := s.st.heldW.filter fun p => clusterAt p.1 == some c
  let s := modSt (fun t => { t with heldW := t.heldW.filter fun p => clusterAt p.1 != some c }) s
  forL (fun p s => match regOfAddr p.1 with
    | some r => regActs 0 r p.2 s
    | none => s) mine s

/-- A failed cluster is quarantined (R496). -/
def quarantine (c cause block : Nat) (s : State) : State :=
  let s := modBy (fun b => { b with quar := b.quar ||| at32 1 c }) s
  let s := raise .stEvents 3 s
  let s := logFault 0x11 c (at64 cause 0 ||| at64 block 8) s
  forL (fun t => faultGen t 0x11 c) (clusterTenants s c) s

/-- The test of a cluster ends: pass, or fail with a cause (R495, R496, R498). -/
def testEnds (c cause : Nat) (s : State) : State :=
  let bit := at32 1 c
  let s := modSt (fun t => { t with
    lbPend := t.lbPend &&& ~~~bit
    lbOk := if cause = 0 then t.lbOk ||| bit else t.lbOk &&& ~~~bit }) s
  let s := setRfld (.stClRes c) 28 4 (if cause = 0 then 1 else cause) s
  let s := if cause = 0 then count .stLbCnt s else quarantine c cause (rfld s (.stClRes c) 8 6) (count .stLbFailCnt s)
  if s.st.lbPend = 0 then raise .stEvents 2 s else s

/-- LBIST_SLICE_END: the cluster returns to service (Table 17-5, 240 + 10n). -/
def sliceEnd (k : Slice) (s : State) : State :=
  let c := k.cluster
  let n := k.start + 75000 + 3125 * k.blocks
  let s := toLc n s
  let s := modSt (fun t => { t with
    slices := t.slices.filter fun k => k.cluster != c
    lbRun := t.lbRun &&& ~~~(at32 1 c), lastEnd := tset 0 c (n + 1) t.lastEnd }) s
  let s := heldWrites c s
  if k.failCause != 0 then testEnds c k.failCause s
  else if blocksDone s c = 40 then testEnds c 0 s
  else s

/-- The slice of cluster c, where it has restored the cluster. -/
def sliceEndOf (c : Nat) (s : State) : State :=
  match sliceOf s c with
  | some k => if k.restored then sliceEnd k s else s
  | none => s

def execLbistSliceEnd (c : Nat) (s : State) : Res := onUnit (c < 32) (when s.released (sliceEndOf c) s)

/-- The code of Q_RELEASE, and its effect (R498). -/
def qReleaseCode (c : Nat) (s : State) : Nat := if fld s.st.lbOk c 1 = 1 then 0 else 0x11
def qRelease (c : Nat) (s : State) : State := modBy (fun b => { b with quar := b.quar &&& ~~~(at32 1 c) }) s

/-! ### The analog self-test (R500-R503) -/

/-- The item in progress. (log entry 64, DEDUCED) -/
def astItem (s : State) : Option Nat := s.st.astTodo.head?

/-- The start-up self-test of a cold start has the windows of the cold column. -/
def astCold (s : State) : Bool := s.st.astSrc == 1 && !s.byre.warm

/-- A measured value lies outside the window of its item (Table 17-7). For item 2 the indices 0-32 are the sensors, 33 the
reference, further ones the rails. (log entry 64, DEDUCED) -/
def outOfWindow (s : State) (item idx : Nat) (v : Int) : Bool :=
  match item with
  | 0 => !inWindow s v
  | 1 => decide (100 < v.natAbs)
  | 2 => if idx ≤ 32 then decide (400 < v.natAbs) else if idx = 33 then decide (5 < v.natAbs) else decide (50 < v.natAbs)
  | 3 => decide (80 < v.natAbs)
  | 4 => decide ((if astCold s then 300 else 30) < v.natAbs)
  | _ => decide (8 < v.natAbs)

/-- A failing value enters ST_AST_LOG, which keeps the 16 earliest. -/
def astLogged (item : Nat) (p : Nat × Int) (s : State) : State :=
  let w := at32 1 31 ||| at32 item 28 ||| at32 p.1 16 ||| at32 ((p.2 % 65536).toNat) 0
  modSt (fun t => if t.astLog.length < 16 then { t with astLog := t.astLog ++ [w] } else t) s

/-- The item leaves lanes out: clusters of it are quarantined (R503). -/
def astSkips (s : State) (item : Nat) : Bool :=
  match item with
  | 3 | 4 => s.byre.quar &&& 0xFFFF0000 != 0
  | 5 => s.byre.quar != 0
  | _ => false

/-- The threshold settings in force are applied again, with their settling (R502). -/
def thresholdsBack (s : State) : State :=
  let n := lc s
  forN 256 (fun k s => if quarantined s (stampCl k) then s else
    raise (.slEvents k) 5 (modStamp k (fun l => { l with settling := blankFrom l.settling n (n + 2) }) s)) s

/-- The ADC leaves the self-test: a system window that began in that time is skipped (R514), the last conversion of the item
gives the range before the next one (R517), and it powers down where nothing is queued (R511). (log entry 65, DEDUCED) -/
def adcBack (item : Nat) (s : State) : State :=
  let w := lc s / 16384 * 16384
  modAd (fun a => { a with
    sysEnd := if w < lc s then max a.sysEnd (2 * w + 1) else a.sysEnd
    range := if item = 2 then 0 else 3, endAt := max a.endAt s.now, powered := staysOn s s.now }) s

/-- The next item begins: item 1 of a RECOVER is skipped while the AS or an output of it is in use; items 2 and 3 hold the
ADC (R502, R514). -/
def astEnter (s : State) : State :=
  let inUse := rbit s .asCtrl 0 || ckoRunning s
  let s := if astItem s == some 1 && s.st.astSrc == 3 && inUse then
      setRfld .stAst 17 1 1 (modSt (fun t => { t with astTodo := t.astTodo.tail }) s)
    else s
  let hold := astItem s == some 2 || astItem s == some 3
  let was := s.ad.test
  let s := modAd (fun a => { a with test := hold }) s
  if was && !hold && !s.ad.evBusy then evFree (lc s) s else s

/-- An analog self-test of the items of a mask begins, from a source of ST_STATUS.SRC. -/
def astBegin (src mask : Nat) (p : Option Path) (s : State) : State :=
  let items := (List.range 6).filter fun i => mask / 2 ^ i % 2 == 1
  let s := modSt (fun t => { t with astSrc := src, astTodo := items, astPath := p, astLog := [] }) s
  astEnter (setReg .stAst 0 s)

/-- The values that an item judges: those of a lane of a quarantined cluster are left out (R503). -/
def judged (s : State) (item : Nat) (l : List (Nat × Int)) : List (Nat × Int) :=
  if item = 5 then l.filter fun p => pairUsable s p.1 else l

/-- An item has failed: its bit, the event, the log and FAULT_N (R503). -/
def astFails (item first : Nat) (s : State) : State :=
  fpend 0x0A (logFault 0x0A (0x200 + item) (at64 first 0) (raise .stEvents 1 (setRfld .stAst (8 + item) 1 1 s)))

/-- An item has measured its values and is judged; the next one begins. -/
def astJudge (item : Nat) (r : AstResult) (s : State) : State :=
  let bad := (judged s item r.values).filter fun p => outOfWindow s item p.1 p.2
  let s := setRfld .stAst item 1 1 s
  let s := if astSkips s item then setRfld .stAst (16 + item) 1 1 s else s
  let s := forL (astLogged item) bad s
  let s := if bad.isEmpty && (item != 1 || r.locked) then s else astFails item ((bad.map (·.1)).headD 0) s
  let s := if item = 1 then
      forL (fun n => modCko n fun u => { u with started := false, stopAt := none }) (List.range 8) s
    else s
  let s := modSt (fun t => { t with astTodo := t.astTodo.tail }) s
  let s := if item = 2 || item = 3 then adcBack item s else s
  let s := if (item = 3 || item = 4) && !comparatorsTaken s then thresholdsBack s else s
  astEnter s

/-- Item 5 of a start waits for the calibration (R501). -/
def astMay (s : State) (item : Nat) : Bool := item != 5 || s.st.astSrc != 1 || fld s.byre.steps 4 1 == 1

/-- The last item is over. -/
def astOver (s : State) : State := checkSteps (raise .stEvents 0 s)

end Sys2Proof.Machine
end

