-- ==== Sys2Proof/Machine/Respond.lean ====
section
/-! DEFINITION. Command frames, responses and verification (R364-R371, R397-R403, R413). -/
namespace Sys2Proof.Machine

/-! ### The command frame (Table 14-5) -/

def cW (ws : List W64) (i : Nat) : W64 := ws.getD i 0
def cOp (ws : List W64) : Nat := fld (cW ws 0) 48 8
def cSched (ws : List W64) : Bool := fld (cW ws 0) 40 1 == 1
def cTenant (ws : List W64) : Nat := fld (cW ws 0) 30 10
def cPlen (ws : List W64) : Nat := fld (cW ws 0) 0 16
def cCounter (ws : List W64) : Nat := (cW ws 1).toNat
def cReqid (ws : List W64) : Nat := fld (cW ws 2) 48 16
def cFrame (ws : List W64) : Nat := fld (cW ws 2) 0 48
def cPayload (ws : List W64) : List W64 := (ws.drop 3).take (cPlen ws)

/-- The frame number of a scheduled command. -/
def cSchedFrame (ws : List W64) : Option Nat := if cSched ws then some (cFrame ws) else none

/-- The tag that a command carries, and M of R367. -/
def cTag (ws : List W64) : Nat := (cW ws (3 + cPlen ws)).toNat * 2 ^ 32 + fld (cW ws (4 + cPlen ws)) 32 32
def cMessage (ws : List W64) : List W64 := ws.take (3 + cPlen ws)

/-- Step 1 of Table 13-7 (R399): version, reserved bits, length. -/
def wellFormed (ws : List W64) : Bool :=
  let init := cOp ws == 0x20
  decide (3 ≤ ws.length) && fld (cW ws 0) 56 8 == 1 && only (cW ws 0) 0xFFFF01FFC000FFFF && decide (cPlen ws ≤ 2048) &&
    ws.length == (if init then 3 else 5) + cPlen ws && (init || fld (cW ws (4 + cPlen ws)) 0 32 == 0)

/-- The opcodes that Table 14-6 defines, with those of Tables 15-9 and 17-8. -/
def opDefined (op : Nat) : Bool :=
  [0x01, 0x02, 0x03, 0x04, 0x05, 0x06, 0x10, 0x11, 0x12, 0x13, 0x14, 0x15, 0x16, 0x17, 0x18, 0x19, 0x20, 0x21, 0x22, 0x23,
    0x24, 0x25, 0x26, 0x30, 0x31, 0x32, 0x33, 0x34, 0x35, 0x36, 0x40, 0x41, 0x42, 0x43, 0x44, 0x45, 0x46].contains op

/-! ### The command in execution on a path -/

/-- The paths that carry commands. -/
def cmdPaths : List Path := [.p0, .p1, .mspi]

def runOf (s : State) (p : Path) : Option Running :=
  match portNo p with
  | some n => (port s n).run
  | none => s.mspi.run

def setRun (p : Path) (r : Option Running) (s : State) : State :=
  match portNo p with
  | some n => modPort n (fun u => { u with run := r }) s
  | none => { s with mspi := { s.mspi with run := r } }

/-! ### Responses (Table 14-7, R402, R403) -/

/-- A response carries no tag: AUTH_FAIL, KEY_INIT, ZEROISE, an accepted COMPAT_SCAN, and an accepted LC_ADVANCE to
RETURNED or SCRAPPED (R402, R482, R486). -/
def untagged (ws : List W64) (status : Nat) : Bool :=
  let op := cOp ws
  status == 0x0F || op == 0x20 || op == 0x26 || (status == 0 && op == 0x43) ||
    (status == 0 && op == 0x45 && fld (pw (cPayload ws) 0) 0 3 != 3)

/-- The words of a response. -/
def responseWords (s : State) (ws : List W64) (counter status : Nat) (payload : List W64) : List W64 :=
  let t := cTenant ws
  let tagged := !untagged ws status
  let head : List W64 :=
    [at64 1 56 ||| at64 (cOp ws) 48 ||| at64 status 40 ||| at64 t 30 ||| at64 (b2n tagged) 29 ||| at64 payload.length 0,
      BitVec.ofNat 64 counter, at64 (cReqid ws) 48 ||| at64 (s.fr.count % 2 ^ 48) 0]
  let body := head ++ payload
  let tag := if tagged then tagOf (cmdKey (keyOf s t).key) body else 0
  body ++ [BitVec.ofNat 64 (tag / 2 ^ 32), at64 (tag % 2 ^ 32) 32]

/-- A response is ready on the path of its command; where the port is DOWN it is discarded (R395, R397, R413).
(log entry 49, DEDUCED) (log entry 53, DESIGN CHOICE) -/
def respond (p : Path) (ws : List W64) (s : State) : State :=
  match portNo p with
  | some n => modPort n (fun u => { u with run := none, resps := if u.up then u.resps ++ [ws] else u.resps }) s
  | none => { s with mspi := { s.mspi with run := none, rsp := some ws, cmdBusy := false } }

/-- The status of the command accepted with LAST is kept once its response is built (R403). -/
def keepStatus (t counter status : Nat) (s : State) : State :=
  modTenant t (fun u => if 0 < counter && u.last == counter then { u with status := some (counter, status) } else u) s

/-- The response to a command that passed step 5 is built. -/
def answer (p : Path) (ws : List W64) (status : Nat) (payload : List W64) (s : State) : State :=
  let r := responseWords s ws (cCounter ws) status payload
  respond p r (keepStatus (cTenant ws) (cCounter ws) status s)

/-- A command that passed step 8 and waits for nothing more is answered. -/
def finishRun (p : Path) (s : State) : State :=
  match runOf s p with
  | some r => if r.acted && r.waits.isEmpty && !r.keyWait then answer p r.words r.status r.payload s else s
  | none => s

/-! ### Failed verification (R364, R368, R371) -/

/-- The code of a port in TN_FAIL_LOG and in fault records. -/
def failPort : Path → Nat
  | .p0 => 0
  | .p1 => 1
  | _ => 2

/-- A failure enters TN_FAIL_LOG, unless it is full. -/
def failLogged (p : Path) (code t : Nat) (s : State) : State :=
  let w := at32 1 31 ||| at32 (failPort p) 24 ||| at32 code 16 ||| at32 t 0
  modTn (fun u => if u.failLog.length < 16 then { u with failLog := u.failLog ++ [w] } else u) s

/-- AUTH_FAIL: its counts, event, log entry, and one record in a frame to the steward. -/
def authFail (p : Path) (ws : List W64) (s : State) : State :=
  let t := cTenant ws
  let s := raise .tnEvents 0 (count .tnAfailCnt s)
  let s := failLogged p 0x0F t (modTenant t (fun u => { u with afail := u.afail + 1 }) s)
  let s := if s.tn.afailSent then s
    else faultGen 0 0x0F (t + 1024 * failPort p) (modTn (fun u => { u with afailSent := true }) s)
  respond p (responseWords s ws (cCounter ws) 0x0F []) s

/-- REPLAY: the same, with a record in a frame to the named tenant; the response carries LAST and the status kept with it
(R371, R403). -/
def replayFail (p : Path) (ws : List W64) (s : State) : State :=
  let t := cTenant ws
  let u := tenant s t
  let known := match u.status with
    | some (c, st) => if c = u.last && c = cCounter ws then 0x100 + st else 0
    | none => 0
  let obj := t + 1024 * failPort p
  let s := raise .tnEvents 1 (count .tnReplayCnt s)
  let s := failLogged p 0x10 t (modTenant t (fun u => { u with replays := u.replays + 1 }) s)
  let s := if s.tn.replaySent then s else faultGen 0 0x10 obj (modTn (fun u => { u with replaySent := true }) s)
  let s := if t = 0 || (tenant s t).replaySent then s
    else faultGen t 0x10 obj (modTenant t (fun u => { u with replaySent := true }) s)
  respond p (responseWords s ws u.last 0x10 [BitVec.ofNat 64 known]) s

/-- A transition with a purge is under way: every command ends with AUTH_FAIL (R482). -/
def purging (s : State) : Bool :=
  match s.st.trans with
  | .toPurge _ _ | .purging _ _ | .blowing _ _ true => true
  | _ => false

/-- The commands that wait for a key-area write end with AUTH_FAIL when every key goes (R381). -/
def endKeyWaits (s : State) : State :=
  let waits (r : Running) : Bool := r.keyWait && cOp r.words != 0x40 && cOp r.words != 0x45
  let s := forL (fun p s => match runOf s p with
    | some r => if waits r then authFail p r.words s else s
    | none => s) cmdPaths s
  modTn (fun u => { u with jobs := [] }) s

/-- Steps 2 and 3 of Table 13-7: the tenant has a key and the tag is right. The steward is never ABSENT. -/
def authentic (s : State) (ws : List W64) : Bool :=
  let t := cTenant ws
  let k := keyOf s t
  !s.tn.zeroising && !purging s && (t == 0 || (tenant s t).state != .absent) && k.valid &&
    tagOf (cmdKey k.key) (cMessage ws) == cTag ws

/-- The tenant unit verifies commands: the journal is replayed, the device does not drain, FIELD's fuses are not being
blown, and the part is not SCRAPPED (R469, R466, R482, R483). -/
def canVerify (s : State) : Bool :=
  s.released && s.jr.replayed && s.byre.state != .drain && s.st.lcState != 5 && !s.jtag.scanMode &&
    (match s.st.trans with
    | .blowing _ _ false => false
    | _ => true)

end Sys2Proof.Machine
end

