-- ==== Sys2Proof/Machine/Act.lean ====
section
/-! DEFINITION. What each command does once it is verified: the rights of step 7, the checks of step 8 and the effect
(Tables 7-9, 13-12, 14-6, 15-9, 17-8). -/
namespace Sys2Proof.Machine

/-! ### Results -/

def resDone (code : Nat) (payload : List W64) : CmdResult := { code := code, payload := payload, waits := [], wait := false }

/-- A command refused with a code. -/
def refuse (code : Nat) (s : State) : CmdResult × State := (resDone code [], s)

/-- A command accepted, with its response payload. -/
def accept (payload : List W64) (s : State) : CmdResult × State := (resDone 0 payload, s)

/-- A command answered with the code of an operation. -/
def coded (p : Nat × State) : CmdResult × State := (resDone p.1 [], p.2)

/-- A command whose record was submitted. -/
def submitted (p : Nat × List Nat × State) : CmdResult × State :=
  ({ code := p.1, payload := [], waits := p.2.1, wait := false }, p.2.2)

/-- A command that waits for an event before its response. -/
def waiting (s : State) : CmdResult × State := ({ code := 0, payload := [], waits := [], wait := true }, s)

/-! ### Step 7 (R216, R305, R334, R384, R445, R504) -/

/-- The issuer may give the command on the object it names. -/
def rightsOk (s : State) (t op : Nat) (ws : List W64) : Bool :=
  t == 0 || match op with
  | 0x01 | 0x02 | 0x30 | 0x35 => true
  | 0x03 => service s t 2
  | 0x04 => streamOn s (fld (pw ws 0) 48 10) && streamOwner s (fld (pw ws 0) 48 10) == t
  | 0x11 => grantCovers s t true ws
  | 0x12 => grantCovers s t false ws
  | 0x13 | 0x14 | 0x15 | 0x16 | 0x17 | 0x18 | 0x19 => ownsCtx s t (pCtx ws)
  | 0x21 => pTenant ws == t
  | 0x05 | 0x06 | 0x10 | 0x22 | 0x23 | 0x24 | 0x25 | 0x26 | 0x31 | 0x32 | 0x33 | 0x34 | 0x36
  | 0x40 | 0x41 | 0x42 | 0x43 | 0x44 | 0x45 | 0x46 => false
  | _ => true

/-- The commands that are stored in the journal, or whose entries may be (R400). -/
def stored (op : Nat) : Bool := [0x02, 0x06, 0x10, 0x11, 0x12, 0x13, 0x22, 0x23, 0x24, 0x25].contains op

/-! ### Registers (R401, R547) -/

/-- The entries of a REG_WRITE, to the first that is refused: its code, the number applied, the records to wait for. -/
def regWrites (w : Who) (sched : Option Nat) : List W64 → Nat → List Nat → State → Nat × Nat × List Nat × State
  | [], n, ids, s => (0, n, ids, s)
  | e :: l, n, ids, s =>
    let p := regWrite w sched (fld e 32 32) (lo32 e) s
    if p.1 = 0 then regWrites w sched l (n + 1) (ids ++ p.2.1) p.2.2 else (p.1, n, ids, p.2.2)

def actRegRead (w : Who) (ws : List W64) (s : State) : CmdResult × State :=
  let a := fld (pw ws 0) 0 32
  if a % 4 != 0 then refuse 0x05 s
  else
    let p := busReads w (fld (pw ws 0) 32 16) a (upToNow s)
    accept (pairUp p.1) p.2

def actRegWrite (w : Who) (sched : Option Nat) (ws : List W64) (s : State) : CmdResult × State :=
  let p := regWrites w sched ws 0 [] s
  ({ code := p.1, payload := [BitVec.ofNat 64 p.2.1], waits := p.2.2.1, wait := false }, p.2.2.2)

/-! ### UNGATE, REPLAY, REQ_REPLY (R57, R251, R334) -/

def actUngate (t : Nat) (s : State) : CmdResult × State :=
  let p := issueUngate t s
  (resDone (if p.1 then 0 else 0x0A) [], p.2)

/-- A packet of the window as REPLAY sends it: REPLAYED set, with a new MAC and CRC (R334). -/
def replayed (s : State) (m : Nat) (x : Sent) : Sent :=
  let flagged := x.words.set 2 (x.words.getD 2 0 ||| at64 1 42)
  { x with words := sealWords s m (keyOf s (streamOwner s m)) flagged }

def actReplay (ws : List W64) (s : State) : CmdResult × State :=
  let m := fld (pw ws 0) 48 10
  match (stream s m).window.find? fun x => x.frame == fld (pw ws 0) 0 48 with
  | some x => accept [] (modStream m (fun u => { u with replays := u.replays ++ [replayed s m x] }) s)
  | none => refuse 0x16 (raise .spEvents 8 s)

/-- A post that is outstanding takes the reply that names its ticket (R251). -/
def postReplied (ticket : Nat) (v : W32) (q : Post) : Post :=
  if q.ticket == ticket && q.reply.isNone then { q with reply := some v } else q

/-- A reply that names a post that is no longer outstanding is discarded (R251). -/
def actReqReply (ws : List W64) (s : State) : CmdResult × State :=
  let w := pw ws 0
  accept [] (modCtx (pCtx ws) (fun u => { u with post := u.post.map (postReplied (fld w 40 8) (lo32 w)) }) s)

/-! ### Commands that become records (R429) -/

/-- The refusals of a journaled command's own checks, with the events they set (R91, R360). -/
def recordRefused (type : Nat) (code : Nat) (s : State) : State :=
  if type = 0x22 && code = 0x04 then raise .tnEvents 2 s else s

/-- A record passes the checks of step 8 against the committed configuration, or the code of its refusal. -/
def stepEight (type t : Nat) (ws : List W64) (s : State) : Option (Nat × State) :=
  let c := committed s
  match cfgBad c type t ws with
  | some code => some (code, recordRefused type code s)
  | none => match budgetOf { plainRec type ws with tenant := t } with
    | some (x, b) => if budgetBad c x b then some (0x04, raise (.clBudStatus (x / 64)) 0 s) else none
    | none => none

def actRecord (type t : Nat) (sched : Option Nat) (ws : List W64) (s : State) : CmdResult × State :=
  match stepEight type t ws s with
  | some (code, s) => refuse code s
  | none => submitted (submit type t sched ws s)

/-! ### Keys (R365, R366, R381) -/

/-- KEY_SET: the new key travels under the issuer's wrap key. (log entry 48, DEDUCED) -/
def actKeySet (p : Path) (t : Nat) (counter : Nat) (ws : List W64) (s : State) : CmdResult × State :=
  let u := pTenant ws
  let ok := u == 0 || ((tenant s u).state != .absent && (tenant s u).leaving.isNone)
  if !ok then refuse 0x0A s
  else
    let b := counter * 2 ^ 64 + u
    let sent := (pw ws 1).toNat * 2 ^ 64 + (pw ws 2).toNat
    let key : W128 := BitVec.ofNat 128 sent ^^^ BitVec.ofNat 128 (aes (wrapKey (keyOf s t).key) b)
    waiting (keyJob (.set u key) 4 (some p) s)

def actZeroise (s : State) : CmdResult × State := accept [] (zeroiseStart (endKeyWaits s))

/-! ### The journal store (Table 15-9) -/

def actDigest (s : State) : CmdResult × State :=
  accept (pairUp s.jr.digest.value ++ [at64 s.jr.digest.frame 0]) s

/-- SUSPECT_READ: the suspect whose SEQ has the low bits named. -/
def actSuspectRead (ws : List W64) (s : State) : CmdResult × State :=
  let w := pw ws 0
  match s.jr.suspects.find? fun x => x.seq % 2 ^ 32 == fld w 0 32 with
  | some x =>
    let n := fld w 48 16
    let a := fld w 32 16
    if x.len < a + n then refuse 0x0A s else accept (rawWords (activeHalf s) (x.start + a) n) s
  | none => refuse 0x0A s

/-- The form of a record's payload: that of its command, or an address and a value for REG; records of the writer's own
have no command. -/
def recFormOk (type : Nat) (ws : List W64) : Bool :=
  if type = 1 then ws.length == 1 else decide (0x100 ≤ type) || type == 0x37 || formOk type ws

/-- ACCEPT_SUSPECT: the record's own checks, as for the tenant that issued it (R445). -/
def actAccept (ws : List W64) (s : State) : CmdResult × State :=
  match s.jr.suspects.find? fun x => x.seq == (pw ws 0).toNat with
  | some x =>
    if !x.known then refuse 0x0A s
    else
      let raw := rawWords (activeHalf s) x.start x.len
      let h1 := pw raw 1
      let payload := (raw.drop 3).take (fld h1 0 16)
      let type := fld h1 40 16
      let t := fld h1 30 10
      if !recFormOk type payload then refuse 0x05 s
      else match stepEight type t payload s with
        | some (code, s) => refuse code s
        | none => submitted (submit 0x32 0 none ([pw ws 0, h1] ++ payload) s)
  | none => refuse 0x0A s

def actDiscard (ws : List W64) (s : State) : CmdResult × State :=
  if s.jr.suspects.any fun x => x.seq == (pw ws 0).toNat then submitted (submit 0x33 0 none ws s) else refuse 0x0A s

/-- SCHED_CANCEL of a pending record of the issuer's own, or of any for the steward (R435). -/
def actCancel (t : Nat) (ws : List W64) (s : State) : CmdResult × State :=
  if s.jr.sched.any fun d => d.seq == (pw ws 0).toNat && (t == 0 || d.r.tenant == t) then
    submitted (submit 0x35 t none ws s)
  else refuse 0x0A s

def actCompact (s : State) : CmdResult × State := accept [] (compactStart (committed s).jr.canon s)

/-- JOURNAL_ERASE: the first words of both halves become zero; the cold start follows the response (R446). -/
def actErase (s : State) : CmdResult × State :=
  if s.st.lcState = 1 ∨ s.st.lcState = 2 then
    let zero (b : Bool) (s : State) : State := forN 6 (fun i => putHalf b i 0) s
    accept [] (modJr (fun j => { j with cur := none, compact := none, fill := 0 }) (zero true (zero false s)))
  else refuse 0x0A s

/-! ### Self-test and life cycle (Table 17-8) -/

def stAstWord (s : State) : W64 := (reg s .stAst).setWidth 64

def actRecover (p : Path) (ws : List W64) (s : State) : CmdResult × State :=
  if s.st.lbPend != 0 || !s.st.astTodo.isEmpty then refuse 0x0A s
  else
    let s := gateAllOutputs false (setRfld .tbCtrl 8 1 1 s)
    let s := astBegin 3 (fld (pw ws 0) 0 6) (some p) s
    if s.st.astTodo.isEmpty then
      let s := astOver (modSt (fun t => { t with astPath := none }) s)
      accept [stAstWord s] s
    else waiting s

def actLbist (ws : List W64) (s : State) : CmdResult × State :=
  let mask := lo32 (pw ws 0)
  let code := lbistCode mask s
  if code = 0 then accept [] (lbistPend mask s) else refuse code s

def actQRelease (ws : List W64) (s : State) : CmdResult × State :=
  let c := fld (pw ws 0) 0 5
  let code := qReleaseCode c s
  if code = 0 then accept [] (qRelease c s) else refuse code s

def actCompatScan (s : State) : CmdResult × State :=
  let code := compatScanCode s
  if code = 0 then accept [] (compatScan (endKeyWaits s)) else refuse code s

def actCompatDisable (s : State) : CmdResult × State :=
  if s.st.lcState = 2 ∨ s.st.lcState = 3 then accept [] (modSt (fun t => { t with compatDis := true }) s) else refuse 0x0A s

/-- LC_ADVANCE: to FIELD the fuses are blown before the response; a purge begins once the response has left (R481, R482). -/
def actAdvance (ws : List W64) (s : State) : CmdResult × State :=
  let target := fld (pw ws 0) 0 3
  if !advanceListed s.st.lcState target || !noTransition s then refuse 0x0A s
  else if target = 3 then waiting (toBlow 3 false s)
  else accept [] (toPurge target (lc s + 312500) (endKeyWaits s))

def actLbStatus (s : State) : CmdResult × State := accept [cat64 s.st.lbPend s.byre.quar, cat64 s.st.lbOk 0] s

/-! ### The command -/

/-- The effect of a command whose payload has its form. -/
def actOp (p : Path) (ws : List W64) (s : State) : CmdResult × State :=
  let t := cTenant ws
  let l := cPayload ws
  let sched := cSchedFrame ws
  let w : Who := { path := p, tenant := t }
  match cOp ws with
  | 0x01 => actRegRead w l s
  | 0x02 => actRegWrite w sched l s
  | 0x03 => actUngate t s
  | 0x04 => actReplay l s
  | 0x05 => actReqReply l s
  | 0x06 => actRecord 0x06 t sched l s
  | 0x10 => actRecord 0x10 t sched l s
  | 0x11 => actRecord 0x11 t sched l s
  | 0x12 => actRecord 0x12 t sched l s
  | 0x13 => actRecord 0x13 t sched l s
  | 0x14 => coded (ctxCommand 0 (pCtx l) s)
  | 0x15 => coded (ctxCommand 1 (pCtx l) s)
  | 0x16 => coded (ctxCommand 2 (pCtx l) s)
  | 0x17 => coded (ctxCommand 3 (pCtx l) s)
  | 0x18 => coded (ctxCommand 4 (pCtx l) s)
  | 0x19 => coded (ctxCommand 5 (pCtx l) s)
  | 0x21 => actKeySet p t (cCounter ws) l s
  | 0x22 => actRecord 0x22 t sched l s
  | 0x23 => actRecord 0x23 t sched l s
  | 0x24 => actRecord 0x24 t sched l s
  | 0x25 => actRecord 0x25 t sched l s
  | 0x26 => actZeroise s
  | 0x30 => actDigest s
  | 0x31 => actSuspectRead l s
  | 0x32 => actAccept l s
  | 0x33 => actDiscard l s
  | 0x34 => actCompact s
  | 0x35 => actCancel t l s
  | 0x36 => actErase s
  | 0x40 => actRecover p l s
  | 0x41 => actLbist l s
  | 0x42 => actQRelease l s
  | 0x43 => actCompatScan s
  | 0x44 => actCompatDisable s
  | 0x45 => actAdvance l s
  | 0x46 => actLbStatus s
  | _ => refuse 0x05 s

/-- Steps 6 to 8 of Table 13-7 (R378, R384, R400). -/
def act (p : Path) (ws : List W64) (s : State) : CmdResult × State :=
  let t := cTenant ws
  let op := cOp ws
  if (tenant s t).state == .suspended && t != 0 && op != 0x01 && op != 0x04 then refuse 0x04 s
  else if !rightsOk s t op (cPayload ws) then refuse 0x04 s
  else if !opDefined op then refuse 0x05 s
  else if cSched ws && !stored op then refuse 0x0A s
  else if !formOk op (cPayload ws) then refuse 0x05 s
  else actOp p ws s

end Sys2Proof.Machine
end

