-- ==== Sys2Proof/Machine/WriteRows.lean ====
section
/-! DEFINITION. The rows of the table that are a write of one register, each at its register's rules. -/
namespace Sys2Proof.Machine

/-- A row that writes a register while the core runs. -/
def writing (who : Who) (r : Reg) (v : State → W32) (s : State) : State :=
  when (s.released) (fun s => writeRow who r (v s) s) s

/-- The value that writes TB_CTRL with its fields kept and other bits set (R79). -/
def tbCtrlWith (bits : W32) (s : State) : W32 := (reg s .tbCtrl &&& 0x1F) ||| bits

/-- The value that writes AS_CTRL with a plan, its EN kept, and other bits set. -/
def asCtrlWith (plan : Nat) (bits : W32) (s : State) : W32 := (reg s .asCtrl &&& 1) ||| at32 plan 4 ||| bits

def execRegisterWrite (who : Who) (addr : Nat) (v : W32) (s : State) : Res :=
  .next (when s.released (writeAt who addr v) s)

def execRefselWrite (who : Who) (sel : Nat) (s : State) : Res :=
  onUnit (sel < 4) (writing who .tbCtrl (fun s => setFld (tbCtrlWith 0 s) 0 2 sel) s)

def execTsEnWrite (who : Who) (en : Bool) (s : State) : Res :=
  .next (writing who .tbCtrl (fun s => setFld (tbCtrlWith 0 s) 4 1 (b2n en)) s)

def execTbCtrlGate (who : Who) (s : State) : Res := .next (writing who .tbCtrl (tbCtrlWith 0x100) s)

def execTset (who : Who) (s : State) : Res := .next (writing who .tbCtrl (tbCtrlWith 0x400) s)

def execTbFofsWrite (who : Who) (v : W32) (s : State) : Res := .next (writing who .tbFofs (fun _ => v) s)

def execAsSearch (who : Who) (plan : Nat) (s : State) : Res :=
  onUnit (plan < 16) (writing who .asCtrl (asCtrlWith plan 0x200) s)

def execAsHop (who : Who) (plan : Nat) (s : State) : Res :=
  onUnit (plan < 16) (writing who .asCtrl (asCtrlWith plan 0x100) s)

def execAsEn (who : Who) (en : Bool) (s : State) : Res :=
  .next (writing who .asCtrl (fun s => at32 (rfld s .asCtrl 4 4) 4 ||| at32 (b2n en) 0) s)

def execAsPlanRatioWrite (who : Who) (plan : Nat) (v : W32) (s : State) : Res :=
  onUnit (plan < 16) (writing who (.asPlanRatio plan) (fun _ => v) s)

def execAsCkoCfgWrite (who : Who) (n : Nat) (v : W32) (s : State) : Res :=
  onUnit (n < 8) (writing who (.asCkoCfg n) (fun _ => v) s)

def execFrApply (who : Who) (s : State) : Res :=
  .next (writing who .frCtrl (fun s => (reg s .frCtrl &&& 2) ||| 1) s)

def execLnGateClose (who : Who) (k : Nat) (s : State) : Res :=
  onUnit (k < 256) (writing who (.lnCtrl k) (fun _ => 0x01) s)
def execLnFlush (who : Who) (k : Nat) (s : State) : Res := onUnit (k < 256) (writing who (.lnCtrl k) (fun _ => 0x02) s)
def execLnOcRearm (who : Who) (k : Nat) (s : State) : Res := onUnit (k < 256) (writing who (.lnCtrl k) (fun _ => 0x04) s)

/-- A row on LN_CTRL or SL_CTRL that only the steward may give: refused of another tenant (R134, R168). -/
def stewardWrites (who : Who) (r : Reg) (v : W32) (s : State) : State :=
  when s.released (fun s =>
    if who.tenant = 0 then writeRow who r v s else { rightsFlag r s with busStatus := 0x04 }) s

def execLnCalLoad (who : Who) (k : Nat) (s : State) : Res := onUnit (k < 256) (stewardWrites who (.lnCtrl k) 0x10 s)
def execLnCalNow (who : Who) (k : Nat) (s : State) : Res := onUnit (k < 256) (stewardWrites who (.lnCtrl k) 0x20 s)
def execLnCalSave (who : Who) (k : Nat) (s : State) : Res := onUnit (k < 256) (stewardWrites who (.lnCtrl k) 0x40 s)
def execLnCfgWrite (who : Who) (k : Nat) (v : W32) (s : State) : Res :=
  onUnit (k < 256) (writing who (.lnCfg k) (fun _ => v) s)
def execLnSkewShWrite (who : Who) (k : Nat) (v : W32) (s : State) : Res :=
  onUnit (k < 256) (writing who (.lnSkewSh k) (fun _ => v) s)
def execLnCtabDataWrite (who : Who) (k : Nat) (v : W32) (s : State) : Res :=
  onUnit (k < 256) (writing who (.lnCtabData k) (fun _ => v) s)

def execSlThrWrite (who : Who) (k : Nat) (v : W32) (s : State) : Res :=
  onUnit (k < 256) (writing who (.slThr k) (fun _ => v) s)
def execSlFlush (who : Who) (k : Nat) (s : State) : Res := onUnit (k < 256) (writing who (.slCtrl k) (fun _ => 0x01) s)
def execSlBlnkNow (who : Who) (k : Nat) (s : State) : Res := onUnit (k < 256) (writing who (.slCtrl k) (fun _ => 0x02) s)
def execSlCalLoad (who : Who) (k : Nat) (s : State) : Res := onUnit (k < 256) (stewardWrites who (.slCtrl k) 0x10 s)
def execSlCalNow (who : Who) (k : Nat) (s : State) : Res := onUnit (k < 256) (stewardWrites who (.slCtrl k) 0x20 s)
def execSlCalSave (who : Who) (k : Nat) (s : State) : Res := onUnit (k < 256) (stewardWrites who (.slCtrl k) 0x40 s)
def execSlCfgWrite (who : Who) (k : Nat) (v : W32) (s : State) : Res :=
  onUnit (k < 256) (writing who (.slCfg k) (fun _ => v) s)
def execSlTrimWrite (who : Who) (k : Nat) (v : W32) (s : State) : Res :=
  onUnit (k < 256) (writing who (.slTrim k) (fun _ => v) s)
def execSlBinDataWrite (who : Who) (k : Nat) (v : W32) (s : State) : Res :=
  onUnit (k < 256) (writing who (.slBinData k) (fun _ => v) s)

def execRgStart (who : Who) (k : Nat) (s : State) : Res := onUnit (k < 256) (writing who (.rgCtrl k) (fun _ => 0x01) s)
def execRgStop (who : Who) (k : Nat) (s : State) : Res := onUnit (k < 256) (writing who (.rgCtrl k) (fun _ => 0x02) s)

def execSgStop (who : Who) (k : Nat) (s : State) : Res := onUnit (k < 256) (writing who (.sgLCtrl k) (fun _ => 0x01) s)

def execClLevWrite (who : Who) (c n : Nat) (v : W32) (s : State) : Res :=
  onUnit (c < 32 && n < 16) (writing who (.clLev c n) (fun _ => v) s)
def execEvAdcSelWrite (who : Who) (v : W32) (s : State) : Res := .next (writing who .evAdcSel (fun _ => v) s)

/-- The control register of a channel numbered as in `Ev`. -/
def ctlOf (obj : Nat) : Reg := if obj < 256 then .evMcCtl obj else .clCcCtl ((obj - 256) / 32) ((obj - 256) % 32)

def execChannelCtlWrite (who : Who) (obj : Nat) (v : W32) (s : State) : Res :=
  onUnit (obj < 1280) (writing who (ctlOf obj) (fun _ => v) s)
def execGroupCfgWrite (who : Who) (g : Nat) (v : W32) (s : State) : Res :=
  onUnit (g < 64) (writing who (.evGrpCfg g) (fun _ => v) s)

end Sys2Proof.Machine
end

