-- ==== Sys2Proof/Machine/Commands.lean ====
section
/-! DEFINITION. The rows that are commands, from their arrival on a path to their response, and the rows that end what a
command waits for (R368-R370, R382, R392, R397-R403, R413, R425, R430, R481, R502). -/
namespace Sys2Proof.Machine

/-! ### Execution (Table 13-7) -/

/-- Steps 6 to 8 and the effect; the response is built, or the command waits for it. -/
def actCmd (p : Path) (ws : List W64) (s : State) : State :=
  let r := act p ws s
  if r.1.waits.isEmpty && !r.1.wait then
    let s := answer p ws r.1.code r.1.payload r.2
    if cOp ws = 0x36 && r.1.code = 0 then coldStart s else s
  else
    setRun p (some { words := ws, waits := r.1.waits, keyWait := r.1.wait, acted := true, status := r.1.code,
                     payload := r.1.payload }) r.2

/-- KEY_INIT: on the MSPI only, while there is no steward's key, and without a counter (R364, R398).
(log entry 48, DEDUCED) -/
def keyInit (p : Path) (ws : List W64) (s : State) : State :=
  let may := p == .mspi && cTenant ws == 0 && !(keyOf s 0).valid && 1 ≤ s.st.lcState && s.st.lcState ≤ 3 &&
    cCounter ws == 0 && !s.tn.zeroising && !purging s
  let l := cPayload ws
  if !may then authFail p ws s
  else
    let code := if cSched ws then 0x0A else if formOk 0x20 l then 0 else 0x05
    if code != 0 then respond p (responseWords s ws 0 code []) s
    else
      let key : W128 := BitVec.ofNat 128 ((pw l 0).toNat * 2 ^ 64 + (pw l 1).toNat)
      setRun p (some { words := ws, waits := [], keyWait := true, acted := true, status := 0, payload := [] })
        (keyJob (.init key) 4 (some p) s)

/-- The reservation that a counter above RESERVED makes (R369). -/
def reservation (counter : Nat) : Nat := min (counter + 65536) (2 ^ 64 - 1)

/-- The engine of a path. -/
def engineNo : Path → Nat
  | .p0 => 0
  | .p1 => 1
  | .mspi => 2
  | .jtag => 3

/-- The lane cycle before which the engine of a path cannot have taken a command through steps 2 to 5, as it takes
8 + ceil(L ÷ 16) lane cycles for each (R370; log entry 48, DESIGN CHOICE). -/
def verifyLc (s : State) (p : Path) (ws : List W64) : Nat :=
  match tget 0 (engineNo p) s.tn.ver with
  | 0 => 0
  | n + 1 => n + 8 + (8 * (cMessage ws).length + 15) / 16

/-- The engine of path p has taken a command through steps 2 to 5 in the present lane cycle. -/
def engineDone (p : Path) (s : State) : State := modTn (fun u => { u with ver := tset 0 (engineNo p) (lc s + 1) u.ver }) s

/-- Steps 2 to 5; a command whose counter passes the reservation waits for its key-area write. -/
def startCmd (p : Path) (ws : List W64) (s : State) : State :=
  let t := cTenant ws
  let n := cCounter ws
  if cOp ws = 0x20 then keyInit p ws s else
  let s := engineDone p (toLc (verifyLc s p ws) s)
  if !authentic s ws then authFail p ws s
  else if n ≤ (tenant s t).last then replayFail p ws s
  else
    let s := modTenant t (fun u => { u with last := n }) s
    if (keyOf s t).resv < n then
      setRun p (some { words := ws, waits := [], keyWait := true, acted := false, status := 0, payload := [] })
        (keyJob (.resv t (reservation n)) 1 (some p) s)
    else actCmd p ws s

/-- The oldest waiting command of a path is taken, if none is in execution there. -/
def pumpOne (p : Path) (s : State) : State :=
  if !canVerify s || (runOf s p).isSome then s
  else match portNo p with
    | some n => match (port s n).buf with
      | ws :: l => startCmd p ws (modPort n (fun u => { u with buf := l }) s)
      | [] => s
    | none => match s.mspi.cmd with
      | some ws => startCmd p ws { s with mspi := { s.mspi with cmd := none } }
      | none => s

/-- Every command of a path that can be executed now is: at most as many as a buffer of 64 KiB holds, and not past a cold
start. -/
def pump (p : Path) (s : State) : State :=
  let n := match portNo p with
    | some n => (port s n).buf.length
    | none => 1
  forN n (fun _ => pumpOne p) s

/-- The three paths go on, in the order of R370. -/
def pumpAll (s : State) : State := forL pump cmdPaths s

/-! ### Arrival (R392, R397, R399, R413, R466) -/

/-- A command arrives whole on P0 or P1: discarded while draining, malformed, or without room; otherwise it waits its
turn. -/
def arriveOn (n : Nat) (p : Path) (ws : List W64) (s : State) : State :=
  let drop (s : State) : State := raise (.ptEvents n) 6 (count (.ptDropCnt n) s)
  if s.byre.state == .drain then count (.ptDropCnt n) s
  else if !wellFormed ws then raise (.ptEvents n) 5 (count (.ptMalfCnt n) s)
  else if bufFree s n < 8 * ws.length then drop s
  else pump p (modPort n (fun u => { u with buf := u.buf ++ [ws] }) s)

/-- A command is taken from the MSPI: AWAKE is 1 and CMD_BUSY 0; one that fails step 1 has no effect. -/
def arriveMspi (ws : List W64) (s : State) : State :=
  if !s.byre.ready || s.mspi.cmdBusy || !wellFormed ws then s
  else pump .mspi { s with mspi := { s.mspi with cmdBusy := true, cmd := some ws } }

/-- A command frame arrives on its path. -/
def arrive (f : CmdFrame) (s : State) : State :=
  match f.path with
  | .p0 => when (s.released && (port s 0).up) (arriveOn 0 .p0 f.words) s
  | .p1 => when (s.released && (port s 1).up) (arriveOn 1 .p1 f.words) s
  | .mspi => when s.released (arriveMspi f.words) s
  | .jtag => s

/-- The row of an opcode: the frame that the operand gives carries that opcode (log entry 3, DESIGN CHOICE). -/
def cmdRow (op : Nat) (f : CmdFrame) (s : State) : Res := .next (when (cOp f.words == op) (arrive f) s)

/-- A row that is a command, or a write of SQ_CTX_CTRL of context x that sets bit b (Table 7-9). -/
def ctxRow (op b : Nat) (src : CtxSrc) (s : State) : Res :=
  match src with
  | .command f => cmdRow op f s
  | .register who x => onUnit (x < 2048) (writing who (.ctxCtrl x) (fun _ => at32 1 b) s)

def execRegRead (f : CmdFrame) (s : State) : Res := cmdRow 0x01 f s
def execRegWrite (f : CmdFrame) (s : State) : Res := cmdRow 0x02 f s
def execReplay (f : CmdFrame) (s : State) : Res := cmdRow 0x04 f s
def execReqReply (f : CmdFrame) (s : State) : Res := cmdRow 0x05 f s
def execPeriod (f : CmdFrame) (s : State) : Res := cmdRow 0x06 f s
def execCtxAlloc (f : CmdFrame) (s : State) : Res := cmdRow 0x10 f s
def execCodeWrite (f : CmdFrame) (s : State) : Res := cmdRow 0x11 f s
def execDataWrite (f : CmdFrame) (s : State) : Res := cmdRow 0x12 f s
def execCtxEntry (f : CmdFrame) (s : State) : Res := cmdRow 0x13 f s
def execCtxStart (src : CtxSrc) (s : State) : Res := ctxRow 0x14 0 src s
def execCtxStop (src : CtxSrc) (s : State) : Res := ctxRow 0x15 1 src s
def execCtxHalt (src : CtxSrc) (s : State) : Res := ctxRow 0x16 2 src s
def execCtxResume (src : CtxSrc) (s : State) : Res := ctxRow 0x17 3 src s
def execCtxStep (src : CtxSrc) (s : State) : Res := ctxRow 0x18 4 src s
def execCtxBreak (src : CtxSrc) (s : State) : Res := ctxRow 0x19 5 src s
def execKeyInit (f : CmdFrame) (s : State) : Res := cmdRow 0x20 f s
def execKeySet (f : CmdFrame) (s : State) : Res := cmdRow 0x21 f s
def execCapSet (f : CmdFrame) (s : State) : Res := cmdRow 0x22 f s
def execTenSuspend (f : CmdFrame) (s : State) : Res := cmdRow 0x23 f s
def execTenResume (f : CmdFrame) (s : State) : Res := cmdRow 0x24 f s
def execTenRemove (f : CmdFrame) (s : State) : Res := cmdRow 0x25 f s
def execZeroise (f : CmdFrame) (s : State) : Res := cmdRow 0x26 f s
def execDigestGet (f : CmdFrame) (s : State) : Res := cmdRow 0x30 f s
def execSuspectRead (f : CmdFrame) (s : State) : Res := cmdRow 0x31 f s
def execAcceptSuspect (f : CmdFrame) (s : State) : Res := cmdRow 0x32 f s
def execDiscard (f : CmdFrame) (s : State) : Res := cmdRow 0x33 f s
def execSchedCancel (f : CmdFrame) (s : State) : Res := cmdRow 0x35 f s
def execJournalErase (f : CmdFrame) (s : State) : Res := cmdRow 0x36 f s
def execRecover (f : CmdFrame) (s : State) : Res := cmdRow 0x40 f s
def execLbistRun (f : CmdFrame) (s : State) : Res := cmdRow 0x41 f s
def execQRelease (f : CmdFrame) (s : State) : Res := cmdRow 0x42 f s
def execCompatScan (f : CmdFrame) (s : State) : Res := cmdRow 0x43 f s
def execCompatDisable (f : CmdFrame) (s : State) : Res := cmdRow 0x44 f s
def execLcAdvance (f : CmdFrame) (s : State) : Res := cmdRow 0x45 f s
def execLbStatus (f : CmdFrame) (s : State) : Res := cmdRow 0x46 f s

/-- UNDEFINED_COMMAND: an opcode that Table 14-6 does not define. -/
def execUndefinedCommand (f : CmdFrame) (s : State) : Res := .next (when (!opDefined (cOp f.words)) (arrive f) s)

/-- UNGATE: the command, or a write of 1 to TB_CTRL.UNGATE (R57). -/
def execUngate (src : CmdSrc) (s : State) : Res :=
  match src with
  | .command f => cmdRow 0x03 f s
  | .register who => .next (writing who .tbCtrl (tbCtrlWith 0x200) s)
  | .threshold => .next s

/-- COMPACT: the command, a write of JR_CTRL, or JR_FILL at 75 % of a half (R440). (log entry 57, DEDUCED) -/
def execCompact (src : CmdSrc) (s : State) : Res :=
  match src with
  | .command f => cmdRow 0x34 f s
  | .register who => .next (writing who .jrCtrl (fun _ => 1) s)
  | .threshold =>
    .next (when (s.released && decide (390144 ≤ s.jr.fill)) (fun s => compactStart (committed s).jr.canon s) s)

/-! ### What commands wait for -/

/-- Record id is settled: committed, or abandoned with LATE_COMMIT. A REG_WRITE then reports the entries before it (R401,
R430, R433). (log entry 51, DEDUCED) -/
def settle (id : Nat) (late : Bool) (r : Running) : Running :=
  if !r.waits.contains id then r
  else if late && r.status != 0x0E then
    { r with
      status := 0x0E
      payload := if cOp r.words = 0x02 then r.payload.map fun n => n - BitVec.ofNat 64 r.waits.length else []
      waits := r.waits.filter fun n => n != id }
  else { r with waits := r.waits.filter fun n => n != id }

/-- Commands that waited for record id go on. (log entry 51, DEDUCED) -/
def recordSettled (id : Nat) (late : Bool) (s : State) : State :=
  let s := forL (fun p s => finishRun p (setRun p ((runOf s p).map (settle id late)) s)) cmdPaths s
  pumpAll s

/-- JOURNAL_WORD_WRITE: the writer writes one word; a commit word answers the command that waits for it. -/
def journalWord (s : State) : State :=
  let was := s.jr.cur
  let s := writeWord s
  match was, s.jr.cur with
  | some w, none =>
    let last := tget 0 (w.start + w.words.length - 1) (activeHalf s)
    recordSettled w.r.id (last == recK endAbandon w.seq) s
  | _, _ => s

def execJournalWordWrite (s : State) : Res := .next (when (s.released && writerWorks s) journalWord s)

/-- Words of the key-area entry of tenant t are written, from word i on (R362). -/
def putKeyWords (t i : Nat) (ws : List W64) (s : State) : State :=
  forL (fun p => modTn fun u => { u with keys := tset 0 (4 * t + i + p.2) p.1 u.keys }) ws.zipIdx s

/-- A key-area write takes its effect: a reservation rewrites word 2 only, an erasure leaves words of 0 (R362, R369, R380). -/
def keyWritten (w : KeyWrite) (s : State) : State :=
  let fresh (t : Nat) (key : W128) (s : State) : State :=
    modTenant t (fun u => { u with last := 0, status := none })
      (putKeyWords t 0 (keyWords { key := key, resv := 0, valid := true }) s)
  match w with
  | .init key => fresh 0 key s
  | .set t key => raise .tnEvents 3 (modTn (fun u => { u with rekeyed := u.rekeyed ++ [t] }) (fresh t key s))
  | .resv t v => putKeyWords t 2 [at64 v 0] s
  | .erase t => putKeyWords t 0 [0, 0, 0, 0] s

/-- The command that waited for a key-area write goes on: it acts, or its response is built. -/
def keyWaiter (p : Path) (s : State) : State :=
  match runOf s p with
  | some r =>
    if !r.keyWait then s
    else if r.acted then finishRun p (setRun p (some { r with keyWait := false }) s)
    else actCmd p r.words (setRun p none s)
  | none => s

/-- KEY_AREA_WRITE_DONE: the write in progress is complete. The response to a KEY_SET carries a tag of the key before it
(R366, R369, R402). -/
def keyAreaDone (s : State) : State :=
  match s.tn.jobs with
  | [] => s
  | j :: l =>
    let s := modTn (fun u => { u with jobs := l }) (toLc j.due s)
    let go (s : State) : State := match j.path with
      | some p => keyWaiter p s
      | none => s
    let s := match j.write with
      | .set _ _ => keyWritten j.write (go s)
      | _ => go (keyWritten j.write s)
    pumpAll s

def execKeyAreaWriteDone (s : State) : Res := .next (when s.released keyAreaDone s)

/-- JOURNAL_REPLAY_DONE; commands that arrived before it are verified from now on (R469). -/
def execJournalReplayDone (s : State) : Res :=
  .next (when (s.released && !s.jr.replayed && s.st.lcState != 5) (fun s => pumpAll (replayDone s)) s)

/-- FUSE_BLOW_DONE; the response of LC_ADVANCE to FIELD is built after the read-back (R482). -/
def fuseBlowDone (s : State) : State :=
  let s := fusesBlown s
  let s := forL (fun p s => match runOf s p with
    | some r => if cOp r.words = 0x45 && r.acted then finishRun p (setRun p (some { r with keyWait := false }) s) else s
    | none => s) cmdPaths s
  pumpAll s

def execFuseBlowDone (s : State) : Res := .next (when s.released fuseBlowDone s)

/-- The self-test is over: a RECOVER that waits is answered with ST_AST (R502). -/
def astAnswered (s : State) : State :=
  let s := astOver s
  match s.st.astPath with
  | some p =>
    let s := modSt (fun t => { t with astPath := none }) s
    match runOf s p with
    | some r => pumpAll (finishRun p (setRun p (some { r with keyWait := false, payload := [stAstWord s] }) s))
    | none => s
  | none => s

/-- AST_ITEM_DONE: the item in progress has measured its values. -/
def astItemDone (r : AstResult) (s : State) : State :=
  match astItem s with
  | some item =>
    if !astMay s item then s
    else
      let s := astJudge item r s
      if s.st.astTodo.isEmpty then astAnswered s else s
  | none => s

def execAstItemDone (result : AstResult) (s : State) : Res := .next (when s.released (astItemDone result) s)

/-! ### The MSPI (R411-R413) -/

/-- The values of the Byre's registers from an offset on, as their peek aliases; an offset without one reads 0. -/
def mspiWords (s : State) (offset count : Nat) : List W32 :=
  (List.range count).map fun i =>
    match regOfAddr (0x700000 + offset + 4 * i) with
    | some r => regView s 0 r
    | none => 0

def mspiOut (l : List W32) (s : State) : State := { s with mspi := { s.mspi with out := l } }

def execMspiRead (offset count : Nat) (s : State) : Res :=
  onUnit (offset < 65536) (mspiOut (mspiWords s offset count) s)

/-- The value that a write to address a takes to its keeper edge: of its W1C bits those that are 1 now (R550). -/
def onesSet (s : State) (a : Nat) (v : W32) : W32 :=
  match regOfAddr a with
  | some r => v &&& (~~~regW1cMask r ||| reg s r)
  | none => v

/-- MSPI_WRITE: words enter the write buffer, from the second keeper edge after the transfer; ignored while it is not
empty, or where they are not 1 to 16. -/
def mspiWrite (offset : Nat) (ws : List W32) (s : State) : State :=
  if !s.mspi.wbuf.isEmpty || ws.isEmpty || 16 < ws.length then s
  else { s with mspi := { s.mspi with
    wbuf := ws.zipIdx.map fun p => (offset + 4 * p.2, onesSet s (0x700000 + offset + 4 * p.2) p.1), applyAt := s.byre.kc + 2 } }

def execMspiWrite (offset : Nat) (words : List W32) (s : State) : Res := onUnit (offset < 65536) (mspiWrite offset words s)

def execMspiWriteApply (s : State) : Res := .next (mspiApply s)

/-- The byte that STATUS returns. -/
def mspiStatusByte (s : State) : W32 :=
  at32 (bitsOf [s.byre.ready, !s.mspi.wbuf.isEmpty, s.mspi.cmdBusy, s.mspi.rsp.isSome]) 0

def execMspiStatus (s : State) : Res := .next (mspiOut [mspiStatusByte s] s)

/-- MSPI_CMD: a frame of L bytes; one whose L is not 8 times its word count has no effect. -/
def execMspiCmd (len : Nat) (words : List W64) (s : State) : Res :=
  .next (when (s.released && len == 8 * words.length) (arriveMspi words) s)

/-- MSPI_RSP: RSP_READY, then the response to its last byte, which clears RSP_READY. (log entry 53, DESIGN CHOICE) -/
def mspiRsp (s : State) : State :=
  match s.mspi.rsp with
  | some ws => { s with mspi := { s.mspi with rsp := none, out := 1 :: ws.flatMap fun w => [hi32 w, lo32 w] } }
  | none => mspiOut [0] s

def execMspiRsp (s : State) : Res := .next (mspiRsp s)

end Sys2Proof.Machine
end

