-- ==== Sys2Proof/Machine/FrameTick.lean ====
section
/-! DEFINITION. The frame tick (Table 3-2), the T0 of a SYNC (R64), and t_F, the tick at which time freezes (R59-R61). -/
namespace Sys2Proof.Machine

def modSp (f : Sep → Sep) (s : State) : State := { s with sp := f s.sp }

/-! ### The frame generator (R81-R86) -/

/-- The frame in progress closes at lane cycle n (R310). -/
def closeFrame (n : Nat) (s : State) : State :=
  let stop := absAt s n
  let shut (f : OpenFrame) : OpenFrame :=
    if f.closed.isNone then { f with closed := some n, stop := stop, flags := s.fr.flags.toNat } else f
  modSp (fun p => { p with frames := p.frames.map shut }) s

/-- Absolute time has carried out of bit 63: within the frame that closes, or at the tick itself, and then the frame that
begins carries the flag (R83). -/
def timeWrap (n : Nat) (s : State) : Bool × State :=
  let t := absAt s n
  if t = 0 then (true, raise .frEvents 1 s)
  else if t.toNat < s.fr.start.toNat then (false, raise .frEvents 1 (frameFlag flagWrap s))
  else (false, s)

/-- At t_F no frame begins, so a carry at t_F itself belongs to the frame that closes (R83; log entry 75, DEDUCED). -/
def wrapAtFreeze (n : Nat) (s : State) : State :=
  let w := timeWrap n s
  if w.1 then frameFlag flagWrap w.2 else w.2

/-- A carry in the lane cycle between a lock and its tick: the frame that begins carries the flag (R83; log entry 75, DEDUCED). -/
def wrapAtLock (n : Nat) (s : State) : State :=
  if s.fr.running && (absAt s n).toNat < s.fr.base.toNat then raise .frEvents 1 (frameFlag flagWrap s) else s

/-- The frame counter increments (R82, R84). -/
def countUp (s : State) : State :=
  if s.fr.count + 1 < 2 ^ 48 then modFr (fun f => { f with count := f.count + 1 }) s
  else frameFlag flagWrap (raise .frEvents 2 (bumpEpoch (modFr (fun f => { f with count := 0 }) s)))

/-- TB_TSET and FR_SET as a tick in the present lane cycle samples them: before the writes of that lane cycle (R67). -/
def tsetBefore (s : State) : W64 := cat64 (regBefore s .tbTsetHi) (regBefore s .tbTsetLo)
def frSetBefore (s : State) : Nat := fld (regBefore s .frSetHi) 0 16 * 2 ^ 32 + fld (regBefore s .frSetLo) 0 32

/-- Absolute time and the frame counter take TB_TSET and FR_SET at lane cycle n (R53, R64, R66, R67). Time begins anew for
the Separator: no frame of the time loaded has been sealed, and none has come from upstream (R315, R317, R323; log entry
44, DEDUCED). -/
def loadTime (n : Nat) (s : State) : State :=
  modFr (fun f => { f with base := tsetBefore s, baseLc := n, count := frSetBefore s, running := true }) (timeLoaded s)

/-- A forced time set at a tick (R66). -/
def forcedSet (n : Nat) (s : State) : State :=
  let s := bumpEpoch (loadTime n (modTb (fun t => { t with tset := false }) s))
  raise .tbEvents 8 (count .tbDisc s)

/-- What makes a tick: the running of the period, a lock declared in the lane cycle before, or the T0 of a SYNC. -/
inductive TickKind where
  | period | lock | sync
  deriving DecidableEq, Repr

/-- Hardware returns TB_SYNC_CFG.MODE to OFF, unless the field is written in the same lane cycle (R15, R64). -/
def syncModeOff (s : State) : State := if writtenNow s .tbSyncCfg then s else setRfld .tbSyncCfg 0 2 0 s

/-- Absolute time, epoch and frame counter at the tick in lane cycle n. The SYNC is done at its T0 (log entry 74, DESIGN
CHOICE). -/
def generator (kind : TickKind) (n : Nat) (s : State) : State :=
  match kind with
  | .sync =>
    let s := loadTime n (modTb (fun t => { t with syncT0 := none, tset := false }) s)
    syncModeOff (raise .tbEvents 5 (ckosRestart (bumpEpoch s)))
  | .lock =>
    let first := !s.fr.running
    let s := modTb (fun t => { t with tickPending := false }) s
    let s := if first then loadTime n s else if s.tb.tset then s else countUp s
    if s.tb.tset then forcedSet n s else s
  | .period => if s.tb.tset then forcedSet n s else countUp s

/-- The header flags of the frame that begins: none but those of an epoch wrap at the lock before it. -/
def freshFlags (kind : TickKind) (s : State) : State :=
  modFr (fun f => { f with flags := if kind = .lock then f.flags &&& flagWrap else 0 }) s

/-- The first row of Table 3-2. -/
def tickRow1 (kind : TickKind) (n : Nat) (s : State) : State :=
  let go := kind != .lock
  let w := if go then timeWrap n s else (false, wrapAtLock n s)
  let s := if go then closeFrame n w.2 else w.2
  let prev := if go then n - s.fr.tickLc else s.fr.period
  let s := generator kind n (freshFlags kind s)
  let s := if w.1 && kind = .period && absAt s n = 0 then frameFlag flagWrap s else s
  modFr (fun f => { f with start := absAt s n, tickLc := n, prevLen := prev, ticks := f.ticks + 1 }) s

/-! ### Budgets and contexts (R92-R99, R190, R218) -/

/-- CL_BUD_SYS_LAST and CL_BUD_SYS_MIN of cluster c over a complete frame of p lane cycles (R93). What system work used is
open between 0 and what no context held. (log entry 26, DESIGN CHOICE) -/
def systemCount (p c : Nat) (s : State) : State :=
  let free := 2 * p - (cluster s c).held
  let r := takeFree s
  let s := setReg (.clBudSysLast c) (at32 (r.1 % (min free 65535 + 1)) 0) r.2
  let s := rcUpdate (.clBudSysMin c) 0xFFFF (fun v => if free < fld v 0 16 then setFld v 0 16 free else v) s
  modCluster c (fun u => { u with held := 0 }) s

/-- The share pools of cluster c are filled (R99). -/
def fillPools (c : Nat) (s : State) : State :=
  let gs := (((ctxsOf s c).filter fun x => ctxValid (ctx s x)).map fun x => shareOf (ctx s x)).eraseDups.filter (· != 0)
  let pools := gs.foldl (fun t g => tset 0 g (poolOf s c g) t) []
  modCluster c (fun u => { u with pools := pools }) s

/-- Context x at a reload: its budget is full again, and a preempted one is ready (R94, R97). -/
def reloadCtx (x : Nat) (s : State) : State :=
  modCtx x (fun u => { u with
    rem := 4 * u.bud, exhausted := false
    state := if u.state = .preempted then .ready else u.state
    readyAt := if u.state = .preempted then 0 else u.readyAt }) s

/-- The reload of cluster c. -/
def reloadCluster (c : Nat) (s : State) : State := fillPools c (forL reloadCtx (ctxsOf s c) s)

/-- The clusters in service (R493). -/
def inService (s : State) : List Nat := (List.range 32).filter fun c => !outOfService s c

/-- The waiting START of context x takes effect; that of AUTOSTART waits for READY (R190, R218, R491). -/
def startTick (x : Nat) (s : State) : State :=
  let u := ctx s x
  if u.startPend && (!u.autoStart || (s.byre.readyRisen && (held s (x / 64)).isNone)) then startCtx x s else s

/-! ### Lanes -/

/-- A pulse lane at a tick (R111, R123, R124, R127). -/
def pulseTick (k : Nat) (s : State) : State :=
  let s := modPulse k (fun l => { l with recs := 0, ocDis := l.ocDis && !l.rearm, rearm := false }) s
  swapLnCal k (lnCfgTick k s)

/-- A stamp lane and its measurement at a tick; TB_STATUS.SLEWING was 1 as the tick came where `slew`. -/
def stampLaneTick (epoch slew : Bool) (k : Nat) (s : State) : State :=
  let r := stampTick k s
  rgTick k r.1 epoch slew r.2

/-- The lanes that hold anything, or that have a value of SL_BLNK or SL_TRIM to come into force (R144, R154), in clusters in
service. -/
def tickPulses (s : State) : List Nat := (s.pl.map (·.1)).filter fun k => !outOfService s (pulseCl k)
def tickStamps (s : State) : List Nat :=
  ((s.sl.map (·.1) ++ s.rg.map (·.1) ++
    (List.range 256).filter fun k => reg s (.slBlnk k) != 0 || reg s (.slTrim k) != 0).eraseDups).filter fun k =>
      !outOfService s (stampCl k)

/-- In each cluster one lane becomes due in turn, every 4,096 ticks (R128, R155). -/
def calTurn (s : State) : State :=
  if s.fr.ticks % 4096 != 0 then s
  else
    let i := s.fr.ticks / 4096 % 16
    forN 16 (fun c => modPulse (16 * c + i) fun l =>
      { l with cal := { l.cal with due := if l.cal.due = .no then .turn else l.cal.due } }) s

/-! ### Timebase and Separator -/

/-- WARM at a tick (R46, R47). (log entry 69, DEDUCED) -/
def warmTick (s : State) : State :=
  let new := warmSelected s
  let was := s.tb.warm
  let s := modTb (fun t => { t with warm := new, prevWarm := t.frameWarm, frameWarm := new }) s
  let s := if new then s else frameFlag flagCold s
  if new = was then s
  else
    let s := raise .tbEvents 10 s
    if was then logOnly 0x12 0 0 s else s

/-- The streams of a tenant with a new key change with the frame that begins (R366). -/
def rekeyTick (s : State) : State :=
  let ts := s.tn.rekeyed
  let ms := (streamNos s).filter fun m => streamOn s m && ts.contains (streamOwner s m)
  let f := s.fr.count
  let s := modTn (fun u => { u with rekeyed := [] }) s
  forL (fun m => modStream m fun u => { u with newKey := some f }) ms (dropCopies ms s)

/-- The frame that begins is open to records (R310, R316, R366, R437); the pins follow what has left the buffer (R338). -/
def openNew (s : State) : State :=
  let f : OpenFrame :=
    { frame := s.fr.count, no := s.fr.ticks, gen := s.sp.gen, epoch := reg s .tbEpoch, start := s.fr.start, closed := none, stop := 0, wins := winsNow s,
      keys := s.tn.keys, flags := 0, digest := s.jr.digest.value.headD 0 }
  xoffs (writeTrigs (modSp (fun p => { p with frames := p.frames ++ [f] }) s))

/-- The first tick after relock: what waited in frozen time goes on (R312, R525). -/
def relockTick (s : State) : State :=
  let f := s.fr.ticks
  let s := modSp (fun p => { p with
    inbound := p.inbound ++ p.later.map (fun r => { r with frame := f })
    later := [] }) s
  forL (fun m => modStream m fun u => { u with queue := u.queue.map fun q => { q with hold := false } })
    (s.sp.streams.map (·.1)) s

/-- The frame's AUTH_FAIL, REPLAY records may be sent again (R371). -/
def failTick (s : State) : State :=
  let s := modTn (fun u => { u with afailSent := false, replaySent := false }) s
  forL (fun t => modTenant t fun u => { u with replaySent := false }) (tenantNos s) s

/-! ### The tick -/

/-- The rows of Table 3-2 after the first, at the tick of a frame after one of p lane cycles. (log entry 69, DEDUCED) -/
def tickRows (kind : TickKind) (epoch : Bool) (p : Nat) (s : State) : State :=
  let s := grantsTick (rightsTick (journalRows s))
  let cs := inService s
  let s := if kind = .lock then forL (fun c => modCluster c fun u => { u with held := 0 }) cs s else forL (systemCount p) cs s
  let s := forL reloadCluster cs s
  let slew := slewing s
  let s := ungateTick (warmTick (slewTick s))
  let s := ckosTick s
  let s := forL pulseTick (tickPulses s) s
  let s := forL (stampLaneTick epoch slew) (tickStamps s) s
  let s := keeperTick (adcTick (calTurn s))
  let s := if reg s .flGrad = 0 then s else frameFlag flagDegraded s
  let s := ttcTick (digestTick s)
  let s := if kind = .lock then relockTick s else s
  let s := openNew (rekeyTick (failTick s))
  let s := forL (fun c s => forL startTick (ctxsOf s c) s) cs s
  let s := finishRemovals s
  checkSteps (produce 5 0 (lc s) s)

/-- Lane cycle n begins: what has come due by then has come about, and the instructions in progress are held up to there. -/
def lcBegins (n : Nat) (s : State) : State :=
  let s := broadcastsDue n (cutsDue (toLc n (boundariesDue (n - 1) s)))
  forL (fun c => heldTo c s.now) (s.cl.map (·.1)) s

/-- A tick in lane cycle n. (log entry 19, DEDUCED) -/
def tickAt (kind : TickKind) (n : Nat) (s : State) : State :=
  let s := lcBegins n s
  let e := reg s .tbEpoch
  let p := if kind = .lock then s.fr.period else n - s.fr.tickLc
  let s := tickRow1 kind n s
  tickRows kind (reg s .tbEpoch != e) p s

/-! ### t_F (R59-R61) -/

/-- The words in the program-record buffers are flushed (R283). -/
def flushRecords (s : State) : State :=
  let words := lsum (s.cx.map fun p => recWords s p.1)
  let s := forL (fun x => modCtx x fun u => { u with recs := [] }) (s.cx.map (·.1)) s
  let s := forL (fun c => modCluster c fun u => { u with recHalf := none }) (s.cl.map (·.1)) s
  if words = 0 then s else countN .tbFlushHit words s

/-- The locks that are held break (R213). -/
def breakLocks (s : State) : State := forL (fun x s => if (ctx s x).l then breakLock x 2 .ready s else s) (s.cx.map (·.1)) s

/-- At t_F the locks break with the entries they have staged, which count as flushed, and every queue is flushed (R59, R213). -/
def flushQueues (s : State) : State :=
  let n := lsum ((liveLanes s).map fun k => (pulse s k).staged.length)
  let s := breakLocks s
  forL (flushEdges true) (liveLanes s) (if n = 0 then s else countN .tbFlushEdge n s)

/-- What the TS does when the frame has ended (R61). (log entry 22, DEDUCED) -/
def leaveHoldover (s : State) : State :=
  match s.tb.cause with
  | .lock => modTb (fun t => { t with ts := .check }) s
  | .disabled =>
    if rbit s .tbCtrl 4 then toQualify (modTb (fun t => { t with refOk := false }) s)
    else modTb (fun t => { t with ts := .off, refOk := false, anchored := false, activity := 0 }) s
  | _ => toQualify s

/-- t_F: the frame in progress ends at lane cycle n on the held VCO. (log entry 19, DEDUCED) -/
def freezeAt (n : Nat) (s : State) : State :=
  let s := wrapAtFreeze n (lcBegins n s)
  let stop := absAt s n
  let p := n - s.fr.tickLc
  let s := closeFrame n s
  let s := modFr (fun f => { f with
    running := false, base := stop, baseLc := n, flags := 0, prevLen := n - f.tickLc, tickLc := n }) s
  let s := modTb (fun t => { t with frozenByLoss := true, syncT0 := none }) s
  let s := flushQueues s
  let s := forL (fun k s => rgFreeze k (stampFreeze k s)) ((s.sl.map (·.1) ++ s.rg.map (·.1)).eraseDups) s
  let s := count .tbDisc (flushRecords s)
  let s := modAd (fun a => { a with ftAt := none }) s
  leaveHoldover (forL reloadCluster (inService s) (forL (systemCount p) (inService s) s))

/-! ### The rows -/

/-- The lane cycle of the next tick of the running period. -/
def nextTick (s : State) : Nat := s.fr.tickLc + s.fr.period

/-- A SYNC has its T0 at or before the next tick, with the TS still locked. -/
def syncFirst (s : State) : Bool :=
  s.tb.ts == .locked && (match s.tb.syncT0 with
    | some n => decide (n ≤ nextTick s)
    | none => false)

/-- FRAME_TICK: the tick after a lock, t_F in HOLDOVER, or the tick that ends the frame; none while time is frozen. -/
def frameTick (s : State) : State :=
  if s.tb.tickPending then tickAt .lock (s.fr.baseLc + 1) s
  else if !s.fr.running || syncFirst s then s
  else if s.tb.ts == .holdover then freezeAt (nextTick s) s
  else tickAt .period (nextTick s) s

def execFrameTick (s : State) : Res := .next (when s.released frameTick s)

/-- SYNC_T0: the tick of a SYNC (R64). -/
def syncTick (s : State) : State :=
  match s.tb.syncT0 with
  | some n => tickAt .sync n s
  | none => s

def execSyncT0 (s : State) : Res := .next (when (s.released && s.fr.running && !s.tb.tickPending && syncFirst s) syncTick s)

end Sys2Proof.Machine
end

