-- ==== Sys2Proof/Machine/Jtag.lean ====
section
/-! DEFINITION. The JTAG port (R414, R415, R484, R485), the life-cycle and test instructions it carries (R479, R501), and the
clock-crossing queues (R416, R417). -/
namespace Sys2Proof.Machine

def modJtag (f : Jtag → Jtag) (s : State) : State := { s with jtag := f s.jtag }

/-! ### Availability (Tables 14-10, 17-3, 17-4) -/

/-- The TAP works: every rail is up. (log entry 54, DEDUCED) -/
def tapOn (s : State) : Bool :=
  match s.byre.state with
  | .start | .run | .drain | .reset => true
  | _ => false

/-- EXTEST, CLAMP and HIGHZ are available. -/
def boundaryOn (s : State) : Bool :=
  match s.st.lcState with
  | 0 | 1 | 4 => true
  | 2 | 3 => rbit s .ptJtag 0
  | _ => false

/-- The scan instructions are available. -/
def scanOn (s : State) : Bool := s.st.lcState == 1 || s.st.lcState == 4 || (s.st.lcState == 3 && s.st.compat)

/-- ASTRUN and ASTRD are available. -/
def astOn (s : State) : Bool := s.st.lcState == 1 || s.st.lcState == 4

/-- An instruction is loaded, with what its register captures; one that is not available acts as BYPASS, whose register
captures 0. -/
def irLoad (code : Nat) (ok : Bool) (out : BitVec 540) (f : State → State) (s : State) : State :=
  if !tapOn s then s
  else
    let s := modJtag (fun j => { j with ir := BitVec.ofNat 8 code, out := if ok then out else 0 }) s
    if ok then f s else s

/-! ### The boundary register (R415) -/

/-- The cells from TDI to TDO as the pins stand; `none` where the state does not hold a pin's level: a running clock, the
enables of CKO, REFIN, SYNC and TTC. -/
def pinCells (s : State) : List (Option Bool) :=
  let po (k : Nat) : List (Option Bool) :=
    let l := pulse s k
    [some ((l.level && !safeOn s) != l.polNow), some (l.stdNow != 0 && !l.ocDis)]
  let ck (n : Nat) : List (Option Bool) := [if ckoRuns s n then none else some (cko s n).pol, none]
  (List.range 256).flatMap po ++ (List.range 8).flatMap ck ++
    [some s.tb.ocxo, some s.sp.xoff0, some s.sp.xoff1, some s.sp.xoffIn, some s.sp.xoffOut, some !s.byre.pinLow,
      some s.byre.ready, some !(faultLow s), some !(irqLow s), none, none, none]

/-- The boundary register as captured: cell i is bit i; cells the state does not hold are free.
(log entry 54, DEDUCED) -/
def capturedCells (s : State) : BitVec 540 × State :=
  let r := takeFree s
  let bits := (pinCells s).zipIdx.map fun p => b2n (p.1.getD (r.1 / 2 ^ p.2 % 2 == 1)) * 2 ^ p.2
  (BitVec.ofNat 540 (lsum bits), r.2)

/-- An instruction whose register is the boundary register: it captures the pins and takes the cells shifted in. -/
def boundaryLoad (code : Nat) (ok : Bool) (cells : BitVec 540) (s : State) : State :=
  let r := capturedCells s
  if ok && tapOn s then irLoad code true r.1 (modJtag fun j => { j with boundary := cells }) r.2
  else irLoad code false 0 id s

def execExtest (cells : BitVec 540) (s : State) : Res := .next (boundaryLoad 0x00 (boundaryOn s) cells s)
def execSamplePreload (cells : BitVec 540) (s : State) : Res := .next (boundaryLoad 0x01 (s.st.lcState != 5) cells s)
def execIdcode (s : State) : Res := .next (irLoad 0x02 true 0x30512A6F id s)
def execClamp (s : State) : Res := .next (irLoad 0x03 (boundaryOn s) 0 id s)
def execHighz (s : State) : Res := .next (irLoad 0x04 (boundaryOn s) 0 id s)
def execBypass (s : State) : Res := .next (irLoad 0xFF true 0 id s)

/-! ### Scan (R484, R485) -/

/-- Scan mode begins: the safe state, the record in progress, then the core's clocks stop at the next lane-cycle boundary;
pending slices are cancelled (R499). -/
def scanBegins (s : State) : State :=
  if s.jtag.scanMode then s
  else
    let s := if s.released then toLc (lc s + 1) (byreEnds (cancelSlices s)) else s
    let s := safeStart 4 s
    modBy (fun b => { b with ready := false }) { s with released := false, jtag := { s.jtag with scanMode := true } }

def execScansel (chain : Nat) (s : State) : Res :=
  onUnit (chain < 64) (irLoad 0x80 (scanOn s) ((Config.chainLength chain).setWidth 540)
    (fun s => modJtag (fun j => { j with chain := chain }) (scanBegins s)) s)

/-- SCANSHIFT: 64 bits are shifted through the selected chain; what leaves it is open. -/
def scanShift (bits : W64) (s : State) : State :=
  let r := takeFree s
  modJtag (fun j => { j with
    ir := 0x81, out := BitVec.ofNat 540 (r.1 % 2 ^ 64), chains := tset 0 j.chain bits j.chains }) r.2

def execScanshift (bits : W64) (s : State) : Res :=
  .next (if scanOn s && s.jtag.scanMode then scanShift bits s else irLoad 0x81 false 0 id s)

/-- SCANCLK: Update-DR with a 1 gives every chain one functional clock pulse; the chains then hold what the logic makes of
them. -/
def execScanclk (pulse : Bool) (s : State) : Res :=
  .next (irLoad 0x82 (scanOn s && s.jtag.scanMode) 0
    (modJtag fun j => if pulse then { j with chains := [] } else j) s)

/-- TEST_LOGIC_RESET: IDCODE is selected; scan mode ends with a cold start (R485). -/
def testLogicReset (s : State) : State :=
  let scan := s.jtag.scanMode
  let s := modJtag (fun _ => Jtag.reset) s
  if scan then coldStart s else s

def execTestLogicReset (s : State) : Res := .next (testLogicReset s)

/-! ### Self-test, OTP and life cycle (Table 17-4) -/

/-- ASTRUN runs the items of a mask, unless a self-test runs. -/
def astRun (mask : Nat) (s : State) : State :=
  if !s.released || !s.st.astTodo.isEmpty then s
  else
    let s := astBegin 2 (mask % 64) none s
    if s.st.astTodo.isEmpty then astOver s else s

def execAstrun (mask : Nat) (s : State) : Res :=
  onUnit (mask < 256) (irLoad 0x90 (astOn s) (BitVec.ofNat 540 (rfld s .stAst 0 8)) (astRun mask) s)

/-- ASTRD: ST_AST in bits 31:0, and the oldest entry of ST_AST_LOG in bits 63:32. -/
def astRead (s : State) : BitVec 540 := (cat64 (headWord s.st.astLog) (reg s .stAst)).setWidth 540

def execAstrd (s : State) : Res :=
  .next (irLoad 0x91 (astOn s) (astRead s) (modSt fun t => { t with astLog := t.astLog.tail }) s)

/-- The place of word a of the public OTP map, which has addresses of its own. -/
def otpKey (a : Nat) : Nat := 2 ^ 40 + a
def otpMapWord (s : State) (a : Nat) : W32 := tget (Config.otpWord (otpKey a)) (otpKey a) s.otp

def execOtprd (addr : Nat) (s : State) : Res :=
  onUnit (addr < 65536) (irLoad 0xA0 (s.st.lcState != 5) ((otpMapWord s addr).setWidth 540) id s)

/-- OTPWR blows the fuses of a word at the bits of the value. -/
def otpWrite (a : Nat) (v : W32) (s : State) : State :=
  { s with otp := tset (Config.otpWord (otpKey a)) (otpKey a) (otpMapWord s a ||| v) s.otp }

def execOtpwr (addr : Nat) (v : W32) (s : State) : Res :=
  onUnit (addr < 65536) (irLoad 0xB1 (s.st.lcState = 0 || s.st.lcState = 1) 0 (otpWrite addr v) s)

/-- A transition that LCADV starts: with a purge, unless it is the first one. -/
def lcadvRuns (target : Nat) (s : State) : State :=
  if target = 1 then toBlow 1 false s else toPurge target (lc s) (endKeyWaits s)

/-- LCADV: the transition runs and 0x01 is captured, or it is refused and changes nothing (R479). -/
def execLcadv (target : Nat) (s : State) : Res :=
  let runs := s.released && lcadvListed s target && noTransition s
  onUnit (target < 8) (irLoad 0xB0 (s.st.lcState != 5) (if runs then 1 else 0)
    (fun s => if runs then lcadvRuns target s else s) s)

/-! ### Clock-crossing queues (R416, R417) -/

/-- The queues of Table 14-11. -/
def queueKnown (q : Nat) : Bool := decide (q < 9) || (decide (0x20 ≤ q) && decide (q < 0x40))

/-- The port of a queue. -/
def queuePort (q : Nat) : Option Nat :=
  match q with
  | 0 | 1 => some 0
  | 2 | 3 => some 1
  | 4 | 5 => some 3
  | _ => none

/-- A receive queue is emptied: the item in progress there is discarded as malformed. -/
def receiveCut (p : Nat) (s : State) : State :=
  if (port s p).part.isSome then
    raise (.ptEvents p) 5 (count (.ptMalfCnt p) (modPort p (fun u => { u with part := none }) s))
  else s

/-- The Separator input queue of cluster c is emptied, and the owners of its lanes are told. -/
def inputCut (c : Nat) (s : State) : State :=
  let s := modSp (fun p => { p with inbound := p.inbound.filter fun r => r.cl != some c }) s
  forL (fun t => faultGen t 0x13 c) (laneTenants s c) s

/-- What the reset of a queue discards. (log entry 50, DESIGN CHOICE) -/
def queueCut (q : Nat) (s : State) : State :=
  match q with
  | 0 => receiveCut 0 s
  | 2 => receiveCut 1 s
  | 4 => receiveCut 3 s
  | 1 => cutItem 0 s
  | 3 => cutItem 1 s
  | 5 => cutItem 3 s
  | 6 => s
  | 7 => if s.mspi.cmd.isSome then { s with mspi := { s.mspi with cmd := none, cmdBusy := false } } else s
  | 8 => { s with mspi := { s.mspi with rsp := none } }
  | _ => if 0x20 ≤ q then inputCut (q - 0x20) s else s

/-- QUEUE_INTEGRITY: the queue is reset, logged and reported. (log entry 50, DESIGN CHOICE) -/
def queueIntegrity (q : Nat) (s : State) : State :=
  let s := setReg .ptQintLast (at32 1 31 ||| at32 q 0) (count .ptQintCnt (logFault 0x13 q 0 s))
  let s := match queuePort q with
    | some p => raise (.ptEvents p) 7 s
    | none => s
  queueCut q s

def execQueueIntegrity (q : Nat) (s : State) : Res := onUnit (queueKnown q) (when s.released (queueIntegrity q) s)

end Sys2Proof.Machine
end

