-- ==== Sys2Proof/Machine/Faults.lean ====
section
/-! DEFINITION. The fault log, scrubbing, redundancy, gradient readings and counter clears (19_faults_and_recovery.md). -/
namespace Sys2Proof.Machine

def modFl (f : FaultUnit → FaultUnit) (s : State) : State := { s with fl := f s.fl }

/-! ### The fault log (R526, R527) -/

/-- The words of an entry in the retention RAM (Table 19-5). -/
def logWords (e : LogEntry) : List W32 :=
  [ BitVec.ofNat 32 e.seq,
    at32 (e.code % 256) 24 ||| at32 (e.rep % 256) 16 ||| at32 (e.obj % 65536) 0,
    BitVec.ofNat 32 e.frame,
    at32 (b2n e.frozen) 31 ||| at32 (e.frame / 2 ^ 32 % 65536) 0,
    e.epoch,
    BitVec.ofNat 32 e.time,
    lo32 e.detail,
    hi32 e.detail ]

/-- FAULT_LOG_WRITE: the oldest buffered entry is in the log, 8 lane cycles after its writing began (R527). -/
def faultLogWrite (s : State) : State :=
  match s.fl.buf with
  | [] => s
  | e :: rest =>
    let s := toLc s.fl.logDue (modFl (fun f => { f with buf := rest, logDue := f.logDue + 8 }) s)
    let base := 0x200 + 8 * ((e.seq - 1) % 64)
    forL (fun (p : W32 × Nat) s => rramSet (base + p.2) p.1 s) (logWords e).zipIdx s

def execFaultLogWrite (s : State) : Res := .next (when (s.released && !s.fl.buf.isEmpty) faultLogWrite s)

/-! ### Scrubbing (R532, R533) -/

/-- The record whose words, counted in stream order from the first waiting record, include word w: its stream and its
index there. -/
def recordAt (s : State) (w : Nat) : Option (Nat × Nat) :=
  let all := s.sp.streams.flatMap fun p => p.2.recs.zipIdx.map fun r => (p.1, r.2, r.1.words.length)
  (all.foldl (fun (a : Nat × Option (Nat × Nat)) r =>
    match a.2 with
    | some _ => a
    | none => if w < a.1 + r.2.2 then (a.1, some (r.1, r.2.1)) else (a.1 + r.2.2, none)) (0, none)).2

/-- A Separator record lost to an uncorrectable word (Table 19-7). -/
def scrubRecord (w : Nat) (s : State) : State :=
  match recordAt s w with
  | some (m, i) => loseN m 1 (modStream m (fun u => { u with recs := u.recs.eraseIdx i }) s)
  | none => s

/-- CAL_STALE, and due in turn (R128, R155; Table 19-7). -/
def calLost (l : CalState) : CalState := { l with stale := true, due := if l.due = .no then .turn else l.due }

/-- A calibration entry that reads as 0: of pulse cluster c, word 1024n + i is DELTA[i] of lane n; of a stamp cluster, word
64n + i is edge i of lane n (Table 19-7). -/
def scrubCal (c w : Nat) (s : State) : State :=
  if c < 16 then
    modPulse (16 * c + w / 1024) (fun l =>
      { l with bank := { l.bank with delta := tset 0 (w % 1024) 0 l.bank.delta }, cal := calLost l.cal }) s
  else
    modStamp (16 * (c - 16) + w / 64) (fun l => { l with bins := tset 0 (w % 64) 0 l.bins, cal := calLost l.cal }) s

/-- The entry of the edge queue or the hit queue of lane n of cluster c that word 1024n + i stands for is dropped (Table
19-7). -/
def queueEntryLost (c w : Nat) (s : State) : State :=
  let i := w % 1024
  if c < 16 then
    let k := 16 * c + w / 1024
    if i < (pulse s k).queue.length then discard k 1 (modPulse k (fun l => { l with queue := l.queue.eraseIdx i }) s) else s
  else
    let k := 16 * (c - 16) + w / 1024
    if i < (stamp s k).queue.length then
      hitLost k (count (.slQlossCnt k) (modStamp k (fun l => { l with queue := l.queue.eraseIdx i }) s))
    else s

/-- A word of the store has been corrected, or reads as failed (R419). -/
def storeWordEcc (s : State) : State := raise .jrEvents 6 (count .jrEccCnt s)

/-- The first word of the active half in the store (Table 15-1). -/
def activeBase (s : State) : Nat := 8192 + if s.jr.activeB then halfWords else 0

/-- A word of the store reads as failed (R419): a word of the active half below the fill stands among the failed ones that
replay meets (R443); a key whose entry holds it is no key, and a reservation that it held is a free value.
(log entries 6, 66, DESIGN CHOICE) -/
def storeWordFailed (w : Nat) (s : State) : State :=
  let base := activeBase s
  if w < 4096 then
    if w % 4 = 2 then
      let r := takeFree s
      modTn (fun u => { u with keys := tset 0 w (BitVec.ofNat 64 r.1) u.keys }) r.2
    else modTn (fun u => { u with keys := tset 0 (w / 4 * 4 + 3) 0 (tset 0 w 0 u.keys) }) s
  else if base ≤ w && w < base + s.jr.fill && !s.jr.bad.contains (w - base) then
    { s with jr := { s.jr with bad := s.jr.bad ++ [w - base] } }
  else s

/-- An uncorrectable word met by a reader or the scrubber (Table 19-7). -/
def scrubMulti (mem c w : Nat) (s : State) : State :=
  let s := eccMulti mem c w 0 s
  match mem with
  | 0 => modCluster c (fun u => { u with imemBad := if u.imemBad.contains w then u.imemBad else u.imemBad ++ [w] }) s
  | 1 => modCluster c (fun u => { u with dmemBad := if u.dmemBad.contains w then u.dmemBad else u.dmemBad ++ [w] }) s
  | 2 =>
    let x := 64 * c + w / 64
    ctxFault x 0x09 (ctx s x).pc s
  | 3 => scrubRecord w s
  | 4 => queueEntryLost c w s
  | 8 => storeWordFailed w s
  | _ => scrubCal c w s

/-- The words of the memories that the row names, the queues and the store read by their readers (Table 19-7) among them; a
device memory has cluster 0. (log entry 66, DESIGN CHOICE) -/
def scrubWord (mem c w : Nat) : Bool :=
  match mem with
  | 0 => decide (c < 32) && decide (w < 8192)
  | 1 => decide (c < 32) && decide (w < 2048)
  | 2 => decide (c < 32) && decide (w < 4096)
  | 3 => c == 0 && decide (w < 2 ^ 22)
  | 4 => decide (c < 32) && decide (w < 16384)
  | 5 => decide (c < 32) && decide (w < if c < 16 then 16384 else 1024)
  | 8 => c == 0 && decide (w < 2 ^ 20)
  | _ => false

/-- The effect of a read of class `e`, with the effect of an uncorrectable word given. -/
def eccRead (mem : Nat) (e : EccKind) (multi : State → State) (s : State) : State :=
  match e with
  | .clean => s
  | .data => eccErr mem 0 s
  | .checkbit => eccErr mem 1 s
  | .multi => multi s

/-- SCRUB: a word read, checked and written back where it can be corrected; a pass is complete with the last calibration word of cluster 31 (R533).
(log entry 66, DESIGN CHOICE) -/
def scrub (mem c w : Nat) (e : EccKind) (s : State) : State :=
  let s := eccRead mem e (scrubMulti mem c w) s
  let s := if mem = 8 && e != .clean then storeWordEcc s else s
  if mem = 5 && c = 31 && w = 1023 then count .flScrubCnt s else s

def execScrub (mem cluster word : Nat) (err : EccKind) (s : State) : Res :=
  onUnit (scrubWord mem cluster word = true) (when s.released (scrub mem cluster word err) s)

/-- RRAM_SCRUB: the Byre's scrub of the retention RAM, every 65,536 keeper cycles; an uncorrectable word reads as 0
(Table 19-7). The counters and the log are the core's. -/
def rramScrub (word : Nat) (e : EccKind) (s : State) : State :=
  let s := if s.released then eccRead 7 e (eccMulti 7 0 word 0) s else s
  if e = .multi then rramSet word 0 s else s

def execRramScrub (word : Nat) (err : EccKind) (s : State) : Res := onUnit (word < 1024) (rramScrub word err s)

/-! ### Triple redundancy (R534) -/

def execTmrCorrection (s : State) : Res := .next (when s.released (count .flTmrCnt) s)

/-! ### Gradients (R536, R537) -/

/-- GRADIENT_READING: the monitors of cluster c are read, and the included clusters compared; the row stands at the lane
cycle after the reading, in which the comparison takes effect (R537). -/
def gradientReading (c : Nat) (vdd phase : Int) (s : State) : State :=
  gradCheck (modCluster c (fun u => { u with vdd := vdd, phase := phase, graded := true }) s)

def execGradientReading (c : Nat) (vdd phase : Int) (s : State) : Res :=
  onUnit (c < 32) (when s.released (gradientReading c vdd phase) s)

/-! ### Counter clears (R541) -/

/-- The value of the counter at address a. -/
def counterAt (s : State) (a : Nat) : Nat :=
  match regOfAddr a with
  | some .flEccDataCnt => (eccShown s 0).toNat
  | some .flEccChkCnt => (eccShown s 1).toNat
  | some .flEccUncCnt => (eccShown s 2).toNat
  | some r => (reg s r).toNat
  | none => 0

/-- The counter at address a set to 0. -/
def counterZero (a : Nat) (s : State) : State :=
  let ecc (cls : Nat) (s : State) : State :=
    modFl (fun f => { f with ecc := tset 0 (3 * rfld s .flEccSel 0 4 + cls) 0 f.ecc }) s
  match regOfAddr a with
  | some .flEccDataCnt => ecc 0 s
  | some .flEccChkCnt => ecc 1 s
  | some .flEccUncCnt => ecc 2 s
  | some r => setReg r 0 s
  | none => s

/-- The earliest clear under way. -/
def nextClear (s : State) : Option (Nat × Nat) :=
  match s.fl.clears with
  | [] => none
  | p :: l => some (l.foldl (fun a b => if b.1 < a.1 then b else a) p)

/-- COUNTER_CLEAR: the earliest clear takes effect; increments of its lane cycle are lost (R541).
(log entry 68, DEDUCED) -/
def counterClear (s : State) : State :=
  match nextClear s with
  | none => s
  | some (n, a) =>
    let s := toLc n (modFl (fun f => { f with clears := f.clears.erase (n, a) }) s)
    let v := counterAt s a
    let kept := s.fl.cleared.filter fun p => p.1 == lc s && p.2.1 != a
    counterZero a (modFl (fun f => { f with cleared := kept ++ [(lc s, a, v)] }) s)

def execCounterClear (s : State) : Res := .next (when (s.released && !s.fl.clears.isEmpty) counterClear s)

end Sys2Proof.Machine
end

