-- ==== Sys2Proof/Machine/Forward.lean ====
section
/-! DEFINITION. The cluster forwarder (R161, R162, R283): hits of the lanes with DEST = 0 and program records leave for the
Separator, one in a lane cycle. -/
namespace Sys2Proof.Machine

/-- A tenant number no stream belongs to: the addressee of a record of a lane without an owner (log entry 13, DESIGN CHOICE). -/
def noTenant : Nat := 1024

/-- The lane cycle from which the forwarder may take the next entry of stamp lane k; none where it has nothing to take (R162).
(log entry 40, DEDUCED) -/
def laneReady (s : State) (k : Nat) : Option Nat :=
  let l := stamp s k
  match l.queue with
  | [] => none
  | h :: _ => if cfgBit l 6 then none else some (lcFrom (max l.fwdFree h.inq))

/-- The contexts of cluster c with words in their record buffers, in the order of the turns: the context of a record begun
alone, otherwise in turn after the one last served (R283). -/
def recTurn (s : State) (c : Nat) : Option Nat :=
  match (cluster s c).recHalf with
  | some p => some (64 * c + p.1)
  | none =>
    let n := (cluster s c).recLast
    ((List.range 64).map fun i => 64 * c + (n + 1 + i) % 64).find? fun x => !(ctx s x).recs.isEmpty

/-- The lane cycle from which source j of the forwarder of cluster c has something: lanes 0 to 15, program records 16. -/
def sourceReady (s : State) (c j : Nat) : Option Nat :=
  if j = 16 then (if (recTurn s c).isSome then some 0 else none)
  else if c < 16 then none else laneReady s (16 * (c - 16) + j)

/-- The head entry of the hit queue of lane k leaves in lane cycle n for the home stream of its owner, in the frame that it
belongs to (R161, R308). (log entry 40, DEDUCED) -/
def forwardHit (k n : Nat) (s : State) : State :=
  let l := stamp s k
  match l.queue with
  | [] => s
  | h :: rest =>
    let t := (stampOwner s k).getD noTenant
    emitRec { tenant := t, stream := none, frame := h.no, words := [h.word], pos := chainPos s, cl := some (stampCl k) }
      (setStamp k { l with queue := rest, fwdFree := n * 16384 + 128000 } s)

/-- One word of the program records of cluster c leaves: a record reaches the Separator with its last word (R283). -/
def forwardWord (c : Nat) (s : State) : State :=
  match recTurn s c with
  | none => s
  | some x =>
    match (ctx s x).recs, (cluster s c).recHalf with
    | r :: rest, none =>
      match r.w1 with
      | some w => modCluster c (fun u => { u with recHalf := some (x % 64, w), recLast := x % 64 }) s
      | none =>
        emitRec { tenant := ctxTenant (ctx s x), stream := some r.stream, frame := r.frame, words := [r.w0], pos := chainPos s, base := r.base, cl := some c }
          (modCtx x (fun u => { u with recs := rest }) (modCluster c (fun u => { u with recLast := x % 64 }) s))
    | r :: rest, some p =>
      emitRec { tenant := ctxTenant (ctx s x), stream := some r.stream, frame := r.frame, words := [r.w0, p.2], pos := chainPos s, base := r.base, cl := some c }
        (modCtx x (fun u => { u with recs := rest }) (modCluster c (fun u => { u with recHalf := none }) s))
    | [], _ => modCluster c (fun u => { u with recHalf := none }) s

/-- FORWARD_RECORD: the source whose turn it is sends (R162). -/
def forwardRecord (c : Nat) (s : State) : State :=
  let u := cluster s c
  let order := (List.range 17).map fun i => (u.fwdLast + 1 + i) % 17
  match order.filterMap fun j => sourceReady s c j with
  | [] => s
  | m :: ms =>
    let n := max (max (lc s) u.fwdAt) (ms.foldl min m)
    let s := toLc n s
    match order.find? fun j => (sourceReady s c j).any fun a => decide (a ≤ n) with
    | none => s
    | some j =>
      let s := modCluster c (fun u => { u with fwdLast := j, fwdAt := n + 1 }) s
      if j = 16 then forwardWord c s else forwardHit (16 * (c - 16) + j) n s

def execForwardRecord (c : Nat) (s : State) : Res :=
  onUnit (c < 32) (when (s.released && !outOfService s c && !quarantined s c) (forwardRecord c) s)

end Sys2Proof.Machine
end

