-- ==== Sys2Proof/Machine/Dispatch.lean ====
section
/-! DEFINITION. The meaning of every command: one direct call for each constructor. -/
namespace Sys2Proof.Machine

def exec (i : Instr) (s : State) : Host.Outcome State Fault Refusal :=
  match i with
  | .refEdge err => Sys2Proof.Machine.execRefEdge err s
  | .missingReferenceCycle => Sys2Proof.Machine.execMissingReferenceCycle s
  | .frequencyCheckDone pass => Sys2Proof.Machine.execFrequencyCheckDone pass s
  | .bandSearchDone band => Sys2Proof.Machine.execBandSearchDone band s
  | .storedBandTimeout => Sys2Proof.Machine.execStoredBandTimeout s
  | .ocxoWarm level => Sys2Proof.Machine.execOcxoWarm level s
  | .refselWrite who sel => Sys2Proof.Machine.execRefselWrite who sel s
  | .tsEnWrite who en => Sys2Proof.Machine.execTsEnWrite who en s
  | .tbCtrlGate who => Sys2Proof.Machine.execTbCtrlGate who s
  | .ungate src => Sys2Proof.Machine.execUngate src s
  | .tset who => Sys2Proof.Machine.execTset who s
  | .tbFofsWrite who v => Sys2Proof.Machine.execTbFofsWrite who v s
  | .syncEvent level offs => Sys2Proof.Machine.execSyncEvent level offs s
  | .syncT0 => Sys2Proof.Machine.execSyncT0 s
  | .asSearch who plan => Sys2Proof.Machine.execAsSearch who plan s
  | .asHop who plan => Sys2Proof.Machine.execAsHop who plan s
  | .asEn who en => Sys2Proof.Machine.execAsEn who en s
  | .asLock band => Sys2Proof.Machine.execAsLock band s
  | .asLossOfLock => Sys2Proof.Machine.execAsLossOfLock s
  | .asHopTimeout => Sys2Proof.Machine.execAsHopTimeout s
  | .asPlanRatioWrite who plan v => Sys2Proof.Machine.execAsPlanRatioWrite who plan v s
  | .asCkoCfgWrite who n v => Sys2Proof.Machine.execAsCkoCfgWrite who n v s
  | .frameTick => Sys2Proof.Machine.execFrameTick s
  | .frApply who => Sys2Proof.Machine.execFrApply who s
  | .clBudSysMinRead who c => Sys2Proof.Machine.execClBudSysMinRead who c s
  | .tbPherrMaxRead who => Sys2Proof.Machine.execTbPherrMaxRead who s
  | .edgeEntryAccept k => Sys2Proof.Machine.execEdgeEntryAccept k s
  | .edgeCorrect k => Sys2Proof.Machine.execEdgeCorrect k s
  | .edgeLoad k => Sys2Proof.Machine.execEdgeLoad k s
  | .edgeFire k => Sys2Proof.Machine.execEdgeFire k s
  | .laneGateChange k => Sys2Proof.Machine.execLaneGateChange k s
  | .lnGateClose who k => Sys2Proof.Machine.execLnGateClose who k s
  | .lnFlush who k => Sys2Proof.Machine.execLnFlush who k s
  | .lnOcRearm who k => Sys2Proof.Machine.execLnOcRearm who k s
  | .lnCalLoad who k => Sys2Proof.Machine.execLnCalLoad who k s
  | .lnCalNow who k => Sys2Proof.Machine.execLnCalNow who k s
  | .lnCalSave who k => Sys2Proof.Machine.execLnCalSave who k s
  | .lnCfgWrite who k v => Sys2Proof.Machine.execLnCfgWrite who k v s
  | .lnSkewShWrite who k v => Sys2Proof.Machine.execLnSkewShWrite who k v s
  | .lnCtabDataWrite who k v => Sys2Proof.Machine.execLnCtabDataWrite who k v s
  | .overcurrent k => Sys2Proof.Machine.execOvercurrent k s
  | .calVisitStart k => Sys2Proof.Machine.execCalVisitStart k s
  | .calVisitDone k meas => Sys2Proof.Machine.execCalVisitDone k meas s
  | .lnDropLogRead who k => Sys2Proof.Machine.execLnDropLogRead who k s
  | .thresholdCrossing k cmpB level t bin => Sys2Proof.Machine.execThresholdCrossing k cmpB level t bin s
  | .hitEnqueue k => Sys2Proof.Machine.execHitEnqueue k s
  | .forwardRecord c => Sys2Proof.Machine.execForwardRecord c s
  | .slThrWrite who k v => Sys2Proof.Machine.execSlThrWrite who k v s
  | .thrApply k => Sys2Proof.Machine.execThrApply k s
  | .blankingStart k oneShot => Sys2Proof.Machine.execBlankingStart k oneShot s
  | .blankingEnd k => Sys2Proof.Machine.execBlankingEnd k s
  | .captureWindowClose k => Sys2Proof.Machine.execCaptureWindowClose k s
  | .totTimeout k => Sys2Proof.Machine.execTotTimeout k s
  | .slFlush who k => Sys2Proof.Machine.execSlFlush who k s
  | .slBlnkNow who k => Sys2Proof.Machine.execSlBlnkNow who k s
  | .slCalLoad who k => Sys2Proof.Machine.execSlCalLoad who k s
  | .slCalNow who k => Sys2Proof.Machine.execSlCalNow who k s
  | .slCalSave who k => Sys2Proof.Machine.execSlCalSave who k s
  | .slCfgWrite who k v => Sys2Proof.Machine.execSlCfgWrite who k v s
  | .slTrimWrite who k v => Sys2Proof.Machine.execSlTrimWrite who k v s
  | .slBinDataWrite who k v => Sys2Proof.Machine.execSlBinDataWrite who k v s
  | .codeDensityPassStart k => Sys2Proof.Machine.execCodeDensityPassStart k s
  | .codeDensityPassDone k meas => Sys2Proof.Machine.execCodeDensityPassDone k meas s
  | .regressionSlot k => Sys2Proof.Machine.execRegressionSlot k s
  | .resultReady k => Sys2Proof.Machine.execResultReady k s
  | .rgStart who k => Sys2Proof.Machine.execRgStart who k s
  | .rgStop who k => Sys2Proof.Machine.execRgStop who k s
  | .rgRes0Read who k => Sys2Proof.Machine.execRgRes0Read who k s
  | .switchIn c => Sys2Proof.Machine.execSwitchIn c s
  | .add c => Sys2Proof.Machine.execAdd c s
  | .sub c => Sys2Proof.Machine.execSub c s
  | .and_ c => Sys2Proof.Machine.execAnd_ c s
  | .or_ c => Sys2Proof.Machine.execOr_ c s
  | .xor_ c => Sys2Proof.Machine.execXor_ c s
  | .shl c => Sys2Proof.Machine.execShl c s
  | .shr c => Sys2Proof.Machine.execShr c s
  | .sra c => Sys2Proof.Machine.execSra c s
  | .mul c => Sys2Proof.Machine.execMul c s
  | .min c => Sys2Proof.Machine.execMin c s
  | .max c => Sys2Proof.Machine.execMax c s
  | .cmp c => Sys2Proof.Machine.execCmp c s
  | .li c => Sys2Proof.Machine.execLi c s
  | .lui c => Sys2Proof.Machine.execLui c s
  | .tadd c => Sys2Proof.Machine.execTadd c s
  | .tsub c => Sys2Proof.Machine.execTsub c s
  | .tcmp c => Sys2Proof.Machine.execTcmp c s
  | .tscl c => Sys2Proof.Machine.execTscl c s
  | .tld c => Sys2Proof.Machine.execTld c s
  | .tst c => Sys2Proof.Machine.execTst c s
  | .tnow c => Sys2Proof.Machine.execTnow c s
  | .tfrm c => Sys2Proof.Machine.execTfrm c s
  | .bCond c => Sys2Proof.Machine.execBCond c s
  | .j c => Sys2Proof.Machine.execJ c s
  | .call c => Sys2Proof.Machine.execCall c s
  | .loop c => Sys2Proof.Machine.execLoop c s
  | .ret c => Sys2Proof.Machine.execRet c s
  | .yield c => Sys2Proof.Machine.execYield c s
  | .halt c => Sys2Proof.Machine.execHalt c s
  | .lock c => Sys2Proof.Machine.execLock c s
  | .unlock c => Sys2Proof.Machine.execUnlock c s
  | .bud c => Sys2Proof.Machine.execBud c s
  | .reqPing c => Sys2Proof.Machine.execReqPing c s
  | .reqPubstat c => Sys2Proof.Machine.execReqPubstat c s
  | .reqDigest c => Sys2Proof.Machine.execReqDigest c s
  | .reqTemp c => Sys2Proof.Machine.execReqTemp c s
  | .reqUngate c => Sys2Proof.Machine.execReqUngate c s
  | .reqPost c => Sys2Proof.Machine.execReqPost c s
  | .reqCollect c => Sys2Proof.Machine.execReqCollect c s
  | .reservedOpcode c => Sys2Proof.Machine.execReservedOpcode c s
  | .emit c => Sys2Proof.Machine.execEmit c s
  | .emitp c => Sys2Proof.Machine.execEmitp c s
  | .gateOpen c => Sys2Proof.Machine.execGateOpen c s
  | .gateClose c => Sys2Proof.Machine.execGateClose c s
  | .splayStart c => Sys2Proof.Machine.execSplayStart c s
  | .splayStop c => Sys2Proof.Machine.execSplayStop c s
  | .sjump c => Sys2Proof.Machine.execSjump c s
  | .sig c => Sys2Proof.Machine.execSig c s
  | .wait c => Sys2Proof.Machine.execWait c s
  | .poll c => Sys2Proof.Machine.execPoll c s
  | .arm c => Sys2Proof.Machine.execArm c s
  | .disarm c => Sys2Proof.Machine.execDisarm c s
  | .enableChange => Sys2Proof.Machine.execEnableChange s
  | .hpop c => Sys2Proof.Machine.execHpop c s
  | .hcnt c => Sys2Proof.Machine.execHcnt c s
  | .thr c => Sys2Proof.Machine.execThr c s
  | .blnkOneShot c => Sys2Proof.Machine.execBlnkOneShot c s
  | .blnkSet c => Sys2Proof.Machine.execBlnkSet c s
  | .measStart c => Sys2Proof.Machine.execMeasStart c s
  | .measStop c => Sys2Proof.Machine.execMeasStop c s
  | .mrd c => Sys2Proof.Machine.execMrd c s
  | .recw c => Sys2Proof.Machine.execRecw c s
  | .waitTimeout x => Sys2Proof.Machine.execWaitTimeout x s
  | .ctxAlloc f => Sys2Proof.Machine.execCtxAlloc f s
  | .codeWrite f => Sys2Proof.Machine.execCodeWrite f s
  | .dataWrite f => Sys2Proof.Machine.execDataWrite f s
  | .ctxEntry f => Sys2Proof.Machine.execCtxEntry f s
  | .ctxStart src => Sys2Proof.Machine.execCtxStart src s
  | .ctxStop src => Sys2Proof.Machine.execCtxStop src s
  | .ctxHalt src => Sys2Proof.Machine.execCtxHalt src s
  | .ctxResume src => Sys2Proof.Machine.execCtxResume src s
  | .ctxStep src => Sys2Proof.Machine.execCtxStep src s
  | .ctxBreak src => Sys2Proof.Machine.execCtxBreak src s
  | .segmentFetch k => Sys2Proof.Machine.execSegmentFetch k s
  | .segmentPresent k => Sys2Proof.Machine.execSegmentPresent k s
  | .jumpRecord k => Sys2Proof.Machine.execJumpRecord k s
  | .playbackStop k => Sys2Proof.Machine.execPlaybackStop k s
  | .sgStop who k => Sys2Proof.Machine.execSgStop who k s
  | .separatorRecordIn => Sys2Proof.Machine.execSeparatorRecordIn s
  | .frameSeal => Sys2Proof.Machine.execFrameSeal s
  | .packetSend p => Sys2Proof.Machine.execPacketSend p s
  | .upstreamPacket frame => Sys2Proof.Machine.execUpstreamPacket frame s
  | .upstreamWaitTimeout => Sys2Proof.Machine.execUpstreamWaitTimeout s
  | .chXoffIn level => Sys2Proof.Machine.execChXoffIn level s
  | .milklineEvent n delay => Sys2Proof.Machine.execMilklineEvent n delay s
  | .clusterChannelEvent c n => Sys2Proof.Machine.execClusterChannelEvent c n s
  | .clLevWrite who c n v => Sys2Proof.Machine.execClLevWrite who c n v s
  | .evAdcSelWrite who v => Sys2Proof.Machine.execEvAdcSelWrite who v s
  | .channelCtlWrite who obj v => Sys2Proof.Machine.execChannelCtlWrite who obj v s
  | .groupCfgWrite who g v => Sys2Proof.Machine.execGroupCfgWrite who g v s
  | .keyInit f => Sys2Proof.Machine.execKeyInit f s
  | .keySet f => Sys2Proof.Machine.execKeySet f s
  | .keyAreaWriteDone => Sys2Proof.Machine.execKeyAreaWriteDone s
  | .capSet f => Sys2Proof.Machine.execCapSet f s
  | .tenSuspend f => Sys2Proof.Machine.execTenSuspend f s
  | .tenResume f => Sys2Proof.Machine.execTenResume f s
  | .tenRemove f => Sys2Proof.Machine.execTenRemove f s
  | .clearingDone => Sys2Proof.Machine.execClearingDone s
  | .zeroise f => Sys2Proof.Machine.execZeroise f s
  | .zeroiseDone => Sys2Proof.Machine.execZeroiseDone s
  | .tnFailLogRead who => Sys2Proof.Machine.execTnFailLogRead who s
  | .linkDown p why => Sys2Proof.Machine.execLinkDown p why s
  | .helloReceived p frame => Sys2Proof.Machine.execHelloReceived p frame s
  | .helloTimeout p => Sys2Proof.Machine.execHelloTimeout p s
  | .helloSend p => Sys2Proof.Machine.execHelloSend p s
  | .pauseReceived p quanta => Sys2Proof.Machine.execPauseReceived p quanta s
  | .pauseEnd p => Sys2Proof.Machine.execPauseEnd p s
  | .pauseSend p => Sys2Proof.Machine.execPauseSend p s
  | .responseSend path => Sys2Proof.Machine.execResponseSend path s
  | .undefinedCommand f => Sys2Proof.Machine.execUndefinedCommand f s
  | .regRead f => Sys2Proof.Machine.execRegRead f s
  | .regWrite f => Sys2Proof.Machine.execRegWrite f s
  | .replay f => Sys2Proof.Machine.execReplay f s
  | .reqReply f => Sys2Proof.Machine.execReqReply f s
  | .period f => Sys2Proof.Machine.execPeriod f s
  | .characterLock phase => Sys2Proof.Machine.execCharacterLock phase s
  | .lockLost => Sys2Proof.Machine.execLockLost s
  | .triggerWord code time check => Sys2Proof.Machine.execTriggerWord code time check s
  | .triggerRelease => Sys2Proof.Machine.execTriggerRelease s
  | .frameMark frame check => Sys2Proof.Machine.execFrameMark frame check s
  | .broadcast code arg check => Sys2Proof.Machine.execBroadcast code arg check s
  | .ptTtcBcRead who => Sys2Proof.Machine.execPtTtcBcRead who s
  | .mspiRead offset count => Sys2Proof.Machine.execMspiRead offset count s
  | .mspiWrite offset words => Sys2Proof.Machine.execMspiWrite offset words s
  | .mspiWriteApply => Sys2Proof.Machine.execMspiWriteApply s
  | .mspiStatus => Sys2Proof.Machine.execMspiStatus s
  | .mspiCmd len words => Sys2Proof.Machine.execMspiCmd len words s
  | .mspiRsp => Sys2Proof.Machine.execMspiRsp s
  | .extest cells => Sys2Proof.Machine.execExtest cells s
  | .samplePreload cells => Sys2Proof.Machine.execSamplePreload cells s
  | .idcode => Sys2Proof.Machine.execIdcode s
  | .clamp => Sys2Proof.Machine.execClamp s
  | .highz => Sys2Proof.Machine.execHighz s
  | .bypass => Sys2Proof.Machine.execBypass s
  | .scansel chain => Sys2Proof.Machine.execScansel chain s
  | .scanshift bits => Sys2Proof.Machine.execScanshift bits s
  | .scanclk pulse => Sys2Proof.Machine.execScanclk pulse s
  | .astrun mask => Sys2Proof.Machine.execAstrun mask s
  | .astrd => Sys2Proof.Machine.execAstrd s
  | .otprd addr => Sys2Proof.Machine.execOtprd addr s
  | .lcadv target => Sys2Proof.Machine.execLcadv target s
  | .otpwr addr v => Sys2Proof.Machine.execOtpwr addr v s
  | .testLogicReset => Sys2Proof.Machine.execTestLogicReset s
  | .queueIntegrity q => Sys2Proof.Machine.execQueueIntegrity q s
  | .journalWordWrite => Sys2Proof.Machine.execJournalWordWrite s
  | .digestDone => Sys2Proof.Machine.execDigestDone s
  | .digestGet f => Sys2Proof.Machine.execDigestGet f s
  | .suspectRead f => Sys2Proof.Machine.execSuspectRead f s
  | .acceptSuspect f => Sys2Proof.Machine.execAcceptSuspect f s
  | .discard f => Sys2Proof.Machine.execDiscard f s
  | .compact src => Sys2Proof.Machine.execCompact src s
  | .schedCancel f => Sys2Proof.Machine.execSchedCancel f s
  | .journalErase f => Sys2Proof.Machine.execJournalErase f s
  | .byrePowerOnReset => Sys2Proof.Machine.execByrePowerOnReset s
  | .powerStep => Sys2Proof.Machine.execPowerStep s
  | .powerGoodTimeout => Sys2Proof.Machine.execPowerGoodTimeout s
  | .powerDownStep => Sys2Proof.Machine.execPowerDownStep s
  | .brownout rails => Sys2Proof.Machine.execBrownout rails s
  | .brownoutRestart => Sys2Proof.Machine.execBrownoutRestart s
  | .sleep src key => Sys2Proof.Machine.execSleep src key s
  | .drainComplete => Sys2Proof.Machine.execDrainComplete s
  | .drainTimeout => Sys2Proof.Machine.execDrainTimeout s
  | .off src key => Sys2Proof.Machine.execOff src key s
  | .wake src => Sys2Proof.Machine.execWake src s
  | .hreset src key => Sys2Proof.Machine.execHreset src key s
  | .rstN => Sys2Proof.Machine.execRstN s
  | .hardResetEnd => Sys2Proof.Machine.execHardResetEnd s
  | .readyRise => Sys2Proof.Machine.execReadyRise s
  | .nolockTimeout => Sys2Proof.Machine.execNolockTimeout s
  | .safeClr src safeNHigh => Sys2Proof.Machine.execSafeClr src safeNHigh s
  | .gateAll src => Sys2Proof.Machine.execGateAll src s
  | .safeN level => Sys2Proof.Machine.execSafeN level s
  | .byClkSrc src crystal => Sys2Proof.Machine.execByClkSrc src crystal s
  | .crystalSwitch => Sys2Proof.Machine.execCrystalSwitch s
  | .crystalFail => Sys2Proof.Machine.execCrystalFail s
  | .crystalRetry => Sys2Proof.Machine.execCrystalRetry s
  | .kclkMeasUpdate lc => Sys2Proof.Machine.execKclkMeasUpdate lc s
  | .keeperCrossing n cmpB level kc => Sys2Proof.Machine.execKeeperCrossing n cmpB level kc s
  | .kcThrWrite src n v => Sys2Proof.Machine.execKcThrWrite src n v s
  | .kcThrApply n => Sys2Proof.Machine.execKcThrApply n s
  | .wakeIn n level => Sys2Proof.Machine.execWakeIn n level s
  | .keeperTimerExpiry => Sys2Proof.Machine.execKeeperTimerExpiry s
  | .ktCfgWrite src v => Sys2Proof.Machine.execKtCfgWrite src v s
  | .byRramDataRead who => Sys2Proof.Machine.execByRramDataRead who s
  | .byRramDataWrite src v => Sys2Proof.Machine.execByRramDataWrite src v s
  | .mirrorWriteApply => Sys2Proof.Machine.execMirrorWriteApply s
  | .recover f => Sys2Proof.Machine.execRecover f s
  | .lbistRun f => Sys2Proof.Machine.execLbistRun f s
  | .qRelease f => Sys2Proof.Machine.execQRelease f s
  | .compatScan f => Sys2Proof.Machine.execCompatScan f s
  | .compatDisable f => Sys2Proof.Machine.execCompatDisable f s
  | .lcAdvance f => Sys2Proof.Machine.execLcAdvance f s
  | .lbStatus f => Sys2Proof.Machine.execLbStatus f s
  | .lbistSliceStart => Sys2Proof.Machine.execLbistSliceStart s
  | .lbistSliceRestore c verdict => Sys2Proof.Machine.execLbistSliceRestore c verdict s
  | .lbistSliceEnd c => Sys2Proof.Machine.execLbistSliceEnd c s
  | .astItemDone result => Sys2Proof.Machine.execAstItemDone result s
  | .purgeStart => Sys2Proof.Machine.execPurgeStart s
  | .purgeDone => Sys2Proof.Machine.execPurgeDone s
  | .fuseBlowDone => Sys2Proof.Machine.execFuseBlowDone s
  | .stAstLogRead who => Sys2Proof.Machine.execStAstLogRead who s
  | .adcSystemWindow value => Sys2Proof.Machine.execAdcSystemWindow value s
  | .adcFrameTimer => Sys2Proof.Machine.execAdcFrameTimer s
  | .adcConversionStart => Sys2Proof.Machine.execAdcConversionStart s
  | .adcConversionDone value => Sys2Proof.Machine.execAdcConversionDone value s
  | .faultLogWrite => Sys2Proof.Machine.execFaultLogWrite s
  | .scrub mem cluster word err => Sys2Proof.Machine.execScrub mem cluster word err s
  | .rramScrub word err => Sys2Proof.Machine.execRramScrub word err s
  | .tmrCorrection => Sys2Proof.Machine.execTmrCorrection s
  | .gradientReading c vdd phase => Sys2Proof.Machine.execGradientReading c vdd phase s
  | .counterClear => Sys2Proof.Machine.execCounterClear s
  | .flOvfLogRead who => Sys2Proof.Machine.execFlOvfLogRead who s
  | .lowWordRead who addr => Sys2Proof.Machine.execLowWordRead who addr s
  | .registerWrite who addr v => Sys2Proof.Machine.execRegisterWrite who addr v s
  | .blockLockGained p => Sys2Proof.Machine.execBlockLockGained p s
  | .highBerCleared p => Sys2Proof.Machine.execHighBerCleared p s
  | .faultSetWindowEnd p => Sys2Proof.Machine.execFaultSetWindowEnd p s
  | .journalReplayDone => Sys2Proof.Machine.execJournalReplayDone s
  | .spotCheckDone k meas => Sys2Proof.Machine.execSpotCheckDone k meas s

end Sys2Proof.Machine
end

