-- ==== Sys2Proof/WellFormed.lean ====
section
/-! DEFINITION. Which operands name something the device has: lanes, clusters, contexts, channels and ports within their
numbers (R24-R28, R188, R341, R397), field values within their fields. -/
namespace Sys2Proof

open Sys2Proof.Machine

/-- A command on a context carries its context in its frame; the register names one of 2,048. -/
def Machine.CtxSrc.wf : CtxSrc → Bool
  | .command _ => true
  | .register _ x => decide (x < 2048)

/-- The words of the memories that the scrubber and the readers of the queues and of the store read (R532, Table 19-7); a memory
of the device has cluster 0. -/
def scrubbed (mem c w : Nat) : Bool :=
  match mem with
  | 0 => decide (c < 32 ∧ w < 8192)
  | 1 => decide (c < 32 ∧ w < 2048)
  | 2 => decide (c < 32 ∧ w < 4096)
  | 3 => decide (c = 0 ∧ w < 4194304)
  | 4 => decide (c < 32 ∧ w < 16384)
  | 5 => decide (c < 32 ∧ w < if c < 16 then 16384 else 1024)
  | 8 => decide (c = 0 ∧ w < 1048576)
  | _ => false

/-- The operands of a command are within the numbers of the device. -/
def Instr.wf : Instr → Bool
  | .refEdge _ => true
  | .frequencyCheckDone _ => true
  | .bandSearchDone band => decide (band < 64)
  | .ocxoWarm _ => true
  | .refselWrite _ sel => decide (sel < 4)
  | .tsEnWrite _ _ => true
  | .tbCtrlGate _ => true
  | .ungate _ => true
  | .tset _ => true
  | .tbFofsWrite _ _ => true
  | .syncEvent _ offs => decide (offs < 16384)
  | .asSearch _ plan => decide (plan < 16)
  | .asHop _ plan => decide (plan < 16)
  | .asEn _ _ => true
  | .asLock band => decide (band < 256)
  | .asPlanRatioWrite _ plan _ => decide (plan < 16)
  | .asCkoCfgWrite _ n _ => decide (n < 8)
  | .frApply _ => true
  | .clBudSysMinRead _ c => decide (c < 32)
  | .tbPherrMaxRead _ => true
  | .edgeEntryAccept k => decide (k < 256)
  | .edgeCorrect k => decide (k < 256)
  | .edgeLoad k => decide (k < 256)
  | .edgeFire k => decide (k < 256)
  | .laneGateChange k => decide (k < 256)
  | .lnGateClose _ k => decide (k < 256)
  | .lnFlush _ k => decide (k < 256)
  | .lnOcRearm _ k => decide (k < 256)
  | .lnCalLoad _ k => decide (k < 256)
  | .lnCalNow _ k => decide (k < 256)
  | .lnCalSave _ k => decide (k < 256)
  | .lnCfgWrite _ k _ => decide (k < 256)
  | .lnSkewShWrite _ k _ => decide (k < 256)
  | .lnCtabDataWrite _ k _ => decide (k < 256)
  | .overcurrent k => decide (k < 256)
  | .calVisitStart k => decide (k < 256)
  | .calVisitDone k _ => decide (k < 256)
  | .lnDropLogRead _ k => decide (k < 256)
  | .thresholdCrossing k _ _ _ bin => decide (k < 256 ∧ bin < 64)
  | .hitEnqueue k => decide (k < 256)
  | .forwardRecord c => decide (c < 32)
  | .slThrWrite _ k _ => decide (k < 256)
  | .thrApply k => decide (k < 256)
  | .blankingStart k _ => decide (k < 256)
  | .blankingEnd k => decide (k < 256)
  | .captureWindowClose k => decide (k < 256)
  | .totTimeout k => decide (k < 256)
  | .slFlush _ k => decide (k < 256)
  | .slBlnkNow _ k => decide (k < 256)
  | .slCalLoad _ k => decide (k < 256)
  | .slCalNow _ k => decide (k < 256)
  | .slCalSave _ k => decide (k < 256)
  | .slCfgWrite _ k _ => decide (k < 256)
  | .slTrimWrite _ k _ => decide (k < 256)
  | .slBinDataWrite _ k _ => decide (k < 256)
  | .codeDensityPassStart k => decide (k < 256)
  | .codeDensityPassDone k _ => decide (k < 256)
  | .regressionSlot k => decide (k < 256)
  | .resultReady k => decide (k < 256)
  | .rgStart _ k => decide (k < 256)
  | .rgStop _ k => decide (k < 256)
  | .rgRes0Read _ k => decide (k < 256)
  | .switchIn c => decide (c < 32)
  | .add c => decide (c < 32)
  | .sub c => decide (c < 32)
  | .and_ c => decide (c < 32)
  | .or_ c => decide (c < 32)
  | .xor_ c => decide (c < 32)
  | .shl c => decide (c < 32)
  | .shr c => decide (c < 32)
  | .sra c => decide (c < 32)
  | .mul c => decide (c < 32)
  | .min c => decide (c < 32)
  | .max c => decide (c < 32)
  | .cmp c => decide (c < 32)
  | .li c => decide (c < 32)
  | .lui c => decide (c < 32)
  | .tadd c => decide (c < 32)
  | .tsub c => decide (c < 32)
  | .tcmp c => decide (c < 32)
  | .tscl c => decide (c < 32)
  | .tld c => decide (c < 32)
  | .tst c => decide (c < 32)
  | .tnow c => decide (c < 32)
  | .tfrm c => decide (c < 32)
  | .bCond c => decide (c < 32)
  | .j c => decide (c < 32)
  | .call c => decide (c < 32)
  | .loop c => decide (c < 32)
  | .ret c => decide (c < 32)
  | .yield c => decide (c < 32)
  | .halt c => decide (c < 32)
  | .lock c => decide (c < 32)
  | .unlock c => decide (c < 32)
  | .bud c => decide (c < 32)
  | .reqPing c => decide (c < 32)
  | .reqPubstat c => decide (c < 32)
  | .reqDigest c => decide (c < 32)
  | .reqTemp c => decide (c < 32)
  | .reqUngate c => decide (c < 32)
  | .reqPost c => decide (c < 32)
  | .reqCollect c => decide (c < 32)
  | .reservedOpcode c => decide (c < 32)
  | .emit c => decide (c < 32)
  | .emitp c => decide (c < 32)
  | .gateOpen c => decide (c < 32)
  | .gateClose c => decide (c < 32)
  | .splayStart c => decide (c < 32)
  | .splayStop c => decide (c < 32)
  | .sjump c => decide (c < 32)
  | .sig c => decide (c < 32)
  | .wait c => decide (c < 32)
  | .poll c => decide (c < 32)
  | .arm c => decide (c < 32)
  | .disarm c => decide (c < 32)
  | .hpop c => decide (c < 32)
  | .hcnt c => decide (c < 32)
  | .thr c => decide (c < 32)
  | .blnkOneShot c => decide (c < 32)
  | .blnkSet c => decide (c < 32)
  | .measStart c => decide (c < 32)
  | .measStop c => decide (c < 32)
  | .mrd c => decide (c < 32)
  | .recw c => decide (c < 32)
  | .waitTimeout x => decide (x < 2048)
  | .ctxAlloc _ => true
  | .codeWrite _ => true
  | .dataWrite _ => true
  | .ctxEntry _ => true
  | .ctxStart src => src.wf
  | .ctxStop src => src.wf
  | .ctxHalt src => src.wf
  | .ctxResume src => src.wf
  | .ctxStep src => src.wf
  | .ctxBreak src => src.wf
  | .segmentFetch k => decide (k < 256)
  | .segmentPresent k => decide (k < 256)
  | .jumpRecord k => decide (k < 256)
  | .playbackStop k => decide (k < 256)
  | .sgStop _ k => decide (k < 256)
  | .packetSend p => decide (p = 0 ∨ p = 1 ∨ p = 3)
  | .upstreamPacket _ => true
  | .chXoffIn _ => true
  | .milklineEvent n delay => decide (n < 256 ∧ delay ≤ 61440)
  | .clusterChannelEvent c n => decide (c < 32 ∧ n < 32)
  | .clLevWrite _ c n _ => decide (c < 32 ∧ n < 16)
  | .evAdcSelWrite _ _ => true
  | .channelCtlWrite _ obj _ => decide (obj < 1280)
  | .groupCfgWrite _ g _ => decide (g < 64)
  | .keyInit _ => true
  | .keySet _ => true
  | .capSet _ => true
  | .tenSuspend _ => true
  | .tenResume _ => true
  | .tenRemove _ => true
  | .zeroise _ => true
  | .tnFailLogRead _ => true
  | .linkDown p _ => decide (p = 0 ∨ p = 1 ∨ p = 3)
  | .helloReceived p _ => decide (p = 0 ∨ p = 1 ∨ p = 3)
  | .helloTimeout p => decide (p = 0 ∨ p = 1 ∨ p = 3)
  | .helloSend p => decide (p = 0 ∨ p = 1 ∨ p = 3)
  | .pauseReceived p quanta => decide (p < 2 ∧ quanta < 65536)
  | .pauseEnd p => decide (p < 2)
  | .pauseSend p => decide (p < 2)
  | .responseSend _ => true
  | .undefinedCommand _ => true
  | .regRead _ => true
  | .regWrite _ => true
  | .replay _ => true
  | .reqReply _ => true
  | .period _ => true
  | .characterLock phase => decide (phase < 64)
  | .triggerWord _ _ _ => true
  | .frameMark _ _ => true
  | .broadcast _ _ _ => true
  | .ptTtcBcRead _ => true
  | .mspiRead offset _ => decide (offset < 65536)
  | .mspiWrite offset _ => decide (offset < 65536)
  | .mspiCmd _ _ => true
  | .extest _ => true
  | .samplePreload _ => true
  | .scansel chain => decide (chain < 64)
  | .scanshift _ => true
  | .scanclk _ => true
  | .astrun mask => decide (mask < 256)
  | .otprd addr => decide (addr < 65536)
  | .lcadv target => decide (target < 8)
  | .otpwr addr _ => decide (addr < 65536)
  | .queueIntegrity q => decide (q < 9 ∨ (32 ≤ q ∧ q < 64))
  | .digestGet _ => true
  | .suspectRead _ => true
  | .acceptSuspect _ => true
  | .discard _ => true
  | .compact _ => true
  | .schedCancel _ => true
  | .journalErase _ => true
  | .brownout _ => true
  | .sleep _ _ => true
  | .off _ _ => true
  | .wake _ => true
  | .hreset _ _ => true
  | .safeClr _ _ => true
  | .gateAll _ => true
  | .safeN _ => true
  | .byClkSrc _ _ => true
  | .kclkMeasUpdate lc => decide (lc < 16777216)
  | .keeperCrossing n _ _ _ => decide (n < 8)
  | .kcThrWrite _ n _ => decide (n < 8)
  | .kcThrApply n => decide (n < 8)
  | .wakeIn n _ => decide (n < 4)
  | .ktCfgWrite _ _ => true
  | .byRramDataRead _ => true
  | .byRramDataWrite _ _ => true
  | .recover _ => true
  | .lbistRun _ => true
  | .qRelease _ => true
  | .compatScan _ => true
  | .compatDisable _ => true
  | .lcAdvance _ => true
  | .lbStatus _ => true
  | .lbistSliceRestore c _ => decide (c < 32)
  | .lbistSliceEnd c => decide (c < 32)
  | .astItemDone _ => true
  | .stAstLogRead _ => true
  | .adcSystemWindow _ => true
  | .adcConversionDone _ => true
  | .scrub mem c w _ => scrubbed mem c w
  | .rramScrub word _ => decide (word < 1024)
  | .gradientReading c _ _ => decide (c < 32)
  | .flOvfLogRead _ => true
  | .lowWordRead _ _ => true
  | .registerWrite _ _ _ => true
  | .blockLockGained p => decide (p = 0 ∨ p = 1 ∨ p = 3)
  | .highBerCleared p => decide (p = 0 ∨ p = 1 ∨ p = 3)
  | .faultSetWindowEnd p => decide (p = 0 ∨ p = 1 ∨ p = 3)
  | .spotCheckDone k _ => decide (k < 256)
  | .missingReferenceCycle => true
  | .storedBandTimeout => true
  | .syncT0 => true
  | .asLossOfLock => true
  | .asHopTimeout => true
  | .frameTick => true
  | .enableChange => true
  | .separatorRecordIn => true
  | .frameSeal => true
  | .upstreamWaitTimeout => true
  | .keyAreaWriteDone => true
  | .clearingDone => true
  | .zeroiseDone => true
  | .lockLost => true
  | .triggerRelease => true
  | .mspiWriteApply => true
  | .mspiStatus => true
  | .mspiRsp => true
  | .idcode => true
  | .clamp => true
  | .highz => true
  | .bypass => true
  | .astrd => true
  | .testLogicReset => true
  | .journalWordWrite => true
  | .digestDone => true
  | .byrePowerOnReset => true
  | .powerStep => true
  | .powerGoodTimeout => true
  | .powerDownStep => true
  | .brownoutRestart => true
  | .drainComplete => true
  | .drainTimeout => true
  | .rstN => true
  | .hardResetEnd => true
  | .readyRise => true
  | .nolockTimeout => true
  | .crystalSwitch => true
  | .crystalFail => true
  | .crystalRetry => true
  | .keeperTimerExpiry => true
  | .mirrorWriteApply => true
  | .lbistSliceStart => true
  | .purgeStart => true
  | .purgeDone => true
  | .fuseBlowDone => true
  | .adcFrameTimer => true
  | .adcConversionStart => true
  | .faultLogWrite => true
  | .tmrCorrection => true
  | .counterClear => true
  | .journalReplayDone => true

/-- A command whose operands are all within the numbers of the device. -/
abbrev Instr.WellFormed (i : Instr) : Prop := i.wf = true

end Sys2Proof
end

