-- ==== Sys2Proof/Safety.lean ====
section
/-! DEFINITION. The words the statements use: what a safe run is, that a command answers a next state, what a step leaves
unchanged within a group of state, and the invariant of the model's tables and buffers. -/
namespace Sys2Proof.Safety

open Sys2Proof.Machine

/-- The step answers a next state. -/
def Runs (s : State) : Prop := ∃ t, step s = .next t

/-- Every command that waits has operands within the numbers of the device. -/
def QueueWf (s : State) : Prop := ∀ c ∈ s.pending, c.wf = true

/-- Command c in state s answers a next state, and P holds of it. -/
def Answers (c : Instr) (s : State) (P : State → Prop) : Prop := ∃ t, exec c s = .next t ∧ P t

/-- The issuer may write the registers of the timebase and of the auxiliary synthesizer (R78). -/
def TbRights (s : State) (who : Who) : Bool :=
  who.tenant == 0 || ((tenant s who.tenant).state == .active && service s who.tenant 0)

/-- The issuer may write the registers of pulse lane k, of stamp lane k, that its owner may write (R134, R168). -/
def LaneRights (s : State) (who : Who) (k : Nat) : Bool :=
  who.tenant == 0 || ((tenant s who.tenant).state == .active && ownsPulse s who.tenant k)
def StampRights (s : State) (who : Who) (k : Nat) : Bool :=
  who.tenant == 0 || ((tenant s who.tenant).state == .active && ownsStamp s who.tenant k)

/-! ### What is left unchanged -/

/-- Every plain register outside the addresses `as` holds what it held. -/
def RegsBut (as : List Nat) (s t : State) : Prop := ∀ a, a ∉ as → ∀ d, tget d a t.regs = tget d a s.regs

/-- Every pulse lane outside `ks` is unchanged. -/
def PulsesBut (ks : List Nat) (s t : State) : Prop := ∀ j, j ∉ ks → pulse t j = pulse s j

/-- Every stamp lane outside `ks` is unchanged. -/
def StampsBut (ks : List Nat) (s t : State) : Prop := ∀ j, j ∉ ks → stamp t j = stamp s j

/-- Every frequency measurement outside `ks` is unchanged. -/
def MeasBut (ks : List Nat) (s t : State) : Prop := ∀ j, j ∉ ks → meas t j = meas s j

/-- Every cluster outside `cs` is unchanged. -/
def ClustersBut (cs : List Nat) (s t : State) : Prop := ∀ j, j ∉ cs → cluster t j = cluster s j

/-- Every context outside `xs` is unchanged. -/
def CtxsBut (xs : List Nat) (s t : State) : Prop := ∀ j, j ∉ xs → ctx t j = ctx s j

/-- Every playback outside `ks` is unchanged. -/
def PlaybacksBut (ks : List Nat) (s t : State) : Prop := ∀ j, j ∉ ks → playback t j = playback s j

/-- Every port outside `ps` is unchanged. -/
def PortsBut (ps : List Nat) (s t : State) : Prop := ∀ j, j ∉ ps → port t j = port s j

/-- Every tenant outside `us` is unchanged. -/
def TenantsBut (us : List Nat) (s t : State) : Prop := ∀ j, j ∉ us → tenant t j = tenant s j

/-- Every stream outside `ms` is unchanged. -/
def StreamsBut (ms : List Nat) (s t : State) : Prop := ∀ j, j ∉ ms → stream t j = stream s j

/-! ### Instructions -/

/-- The cycle in which the next instruction of cluster c issues. -/
def issueAt (s : State) (c : Nat) : Nat := issueCycle s c

/-- No broadcast of a trigger word is due by lane cycle n (R36). -/
def Quiet (s : State) (n : Nat) : Bool := s.ttc.bcast.all fun b => decide (n < b.1)

/-- Context x holds the sequencer of cluster c in service, runs without a step, a held instruction or a
breakpoint at its PC, and its PC lies in its code window on a word without an uncorrectable error. -/
def Holds (s : State) (c x : Nat) : Bool :=
  s.released && !outOfService s c && decide (c < 32) && decide (x / 64 = c) && (cluster s c).run == some (x % 64) &&
    (ctx s x).state == .running && (cluster s c).hold.isNone && !(ctx s x).stepping && !atBreak (ctx s x) && inCode (ctx s x) &&
    !codeBad s c (ctx s x).pc.toNat

/-- Context x of cluster c issues word w, a defined encoding of instruction m, outside a lock: its budget allows the worst
case (R96), no switch falls due (R201, R202), and no broadcast is on its way (R36). -/
def Issues (s : State) (c x : Nat) (m : Mnemonic) (w : W32) : Bool :=
  Holds s c x && wordAt s x == w && mnemonicOf w == m && m != .unlock && encodingDefined w && !(ctx s x).l && !(ctx s x).stopPend &&
    !(ctx s x).haltPend && decide (worstOf w ≤ left s x) && !(quantumOver s x (issueAt s c) && (ctx s x).cls == 1) && !switchDue s x (issueAt s c) &&
    Quiet s (issueAt s c / 2)

/-- An instruction of context x of cluster c has retired after n cycles: they are charged, the next may issue after them, and
no other context or cluster has changed (R95, R228). -/
def Retires (s t : State) (c x n : Nat) : Prop :=
  (cluster t c).next = issueAt s c + n ∧ left t x = left s x - n ∧ (ctx t x).ret = (ctx s x).ret + 1 ∧
    (cluster t c).imem = (cluster s c).imem ∧ CtxsBut [x] s t ∧ ClustersBut [c] s t

/-- An instruction that touches nothing but its context has retired after n cycles. -/
def Computes (s t : State) (c x n : Nat) : Prop :=
  Retires s t c x n ∧ (cluster t c).dmem = (cluster s c).dmem ∧ t.now = issueAt s c ∧
    t = { s with now := t.now, cx := t.cx, cl := t.cl }

/-- The PC of context x is on the next word, and it runs on. -/
def GoesOn (s t : State) (x : Nat) : Prop := (ctx t x).pc = (ctx s x).pc + 1 ∧ (ctx t x).state = .running

/-- General register i of context x takes v, unless it is g0, and no other general register changes (R192). -/
def TakesG (s t : State) (x i : Nat) (v : W32) : Prop := ∀ j, gOf t x j = if j = i ∧ j ≠ 0 then v else gOf s x j

/-- Time register i of context x takes v, and no other time register changes. -/
def TakesT (s t : State) (x i : Nat) (v : W64) : Prop := ∀ j, tOf t x j = if j = i then v else tOf s x j

/-- General registers, time registers, flags, the return stack of context x are unchanged. -/
def SameG (s t : State) (x : Nat) : Prop := (ctx t x).r.g = (ctx s x).r.g
def SameT (s t : State) (x : Nat) : Prop := (ctx t x).r.t = (ctx s x).r.t
def SameF (s t : State) (x : Nat) : Prop := flagsNow t x = flagsNow s x
def SameR (s t : State) (x : Nat) : Prop := (ctx t x).r.rstk = (ctx s x).r.rstk

/-- The command of each integer instruction. -/
def intRow (o : IntOp) (c : Nat) : Instr :=
  match o with
  | .add => .add c
  | .sub => .sub c
  | .and => .and_ c
  | .or => .or_ c
  | .xor => .xor_ c
  | .shl => .shl c
  | .shr => .shr c
  | .sra => .sra c
  | .mul => .mul c
  | .min => .min c
  | .max => .max c
  | .cmp => .cmp c
  | .li => .li c
  | .lui => .lui c

/-! ### Commands of tenants -/

/-- The path of a frame carries no other command and can take one (R392, R397, R413). -/
def PathFree (s : State) (p : Path) : Bool :=
  match p with
  | .p0 => (port s 0).up && (port s 0).buf.isEmpty && (port s 0).run.isNone
  | .p1 => (port s 1).up && (port s 1).buf.isEmpty && (port s 1).run.isNone
  | .mspi => s.byre.ready && !s.mspi.cmdBusy && s.mspi.run.isNone
  | .jtag => false

/-- The state in which the command of frame f acts: it has been taken from its path, its engine has verified it at the pace of
R370, and LAST is its counter (R368). -/
def taking (s : State) (f : CmdFrame) : State :=
  let s := match portNo f.path with
    | some n => modPort n (fun u => { u with buf := [] }) (modPort n (fun u => { u with buf := u.buf ++ [f.words] }) s)
    | none => { s with mspi := { s.mspi with cmdBusy := true, cmd := none } }
  let s := engineDone f.path (toLc (verifyLc s f.path f.words) s)
  modTenant (cTenant f.words) (fun u => { u with last := cCounter f.words }) s

/-- The well-formed frame of opcode op reaches steps 2 to 5 of Table 13-7 at its arrival, its counter above LAST and within the
reservation (R368-R370, R399). -/
def Reaches (s : State) (f : CmdFrame) (op : Nat) : Bool :=
  canVerify s && PathFree s f.path && cOp f.words == op &&
    decide ((tenant s (cTenant f.words)).last < cCounter f.words) &&
    decide (cCounter f.words ≤ (keyOf s (cTenant f.words)).resv)

/-- The issuer may give the command, and its payload has its form (steps 6 to 8 of Table 13-7; R378, R384, R400). -/
def Permits (u : State) (f : CmdFrame) (op : Nat) : Bool :=
  (cTenant f.words == 0 || (tenant u (cTenant f.words)).state != .suspended) &&
    rightsOk u (cTenant f.words) op (cPayload f.words) && (!cSched f.words || stored op) && formOk op (cPayload f.words)

/-- The response to the command of frame f, with a counter, a status and a payload, is built on its path, and the path is free
for the next command (R402, R403). -/
def RespondsWith (s t : State) (f : CmdFrame) (counter code : Nat) (payload : List W64) : Prop :=
  let r := responseWords t f.words counter code payload
  match portNo f.path with
  | some n => (port t n).resps = (port s n).resps ++ [r] ∧ (port t n).run = none
  | none => t.mspi.rsp = some r ∧ t.mspi.cmdBusy = false ∧ t.mspi.run = none

/-- The response to the command of frame f carries the counter of the command. -/
def Responds (s t : State) (f : CmdFrame) (code : Nat) (payload : List W64) : Prop :=
  RespondsWith s t f (cCounter f.words) code payload

/-- What a REPLAY response to frame f says of the command accepted with LAST: bit 8 and its status, where it is the command of
the frame and its status is kept (R403). -/
def keptStatus (s : State) (f : CmdFrame) : Nat :=
  let u := tenant s (cTenant f.words)
  match u.status with
  | some p => if p.1 = u.last && p.1 = cCounter f.words then 0x100 + p.2 else 0
  | none => 0

/-- The command of frame f is a record of the journal now, and its response waits for it (R424, R430). -/
def Records (s t : State) (f : CmdFrame) (type tn : Nat) (payload : List W64) : Prop :=
  t.jr = { s.jr with
    nextId := s.jr.nextId + 1
    cmdQ := s.jr.cmdQ ++ [{ id := s.jr.nextId, type := type, tenant := tn, sched := cSchedFrame f.words,
                            payload := payload, replay := false }] } ∧
  runOf t f.path = some { words := f.words, waits := [s.jr.nextId], keyWait := false, acted := true, status := 0,
                          payload := [] }

/-- The command of frame f waits for an event before its response. -/
def Waits (t : State) (f : CmdFrame) : Prop :=
  ∃ r, runOf t f.path = some r ∧ r.words = f.words ∧ r.keyWait = true ∧ r.waits = []

/-! ### Writes to the Byre -/

/-- The path may write a register of the Byre: the mirror needs the core and the steward (R476, R477). -/
def ByMay (s : State) (src : ByPath) : Bool :=
  match src with
  | .mirror who => s.released && who.tenant == 0
  | .mspi => true

/-! ### The invariant -/

/-- A table lists its cells by strictly rising number. -/
def Rising {α : Type} (t : Tbl α) : Prop := t.Pairwise fun a b => a.1 < b.1

/-- The block's addressed memories are in their canonical form: word numbers strictly rising, and no word listed that reads
as an unlisted one does, which is 0: the retention RAM (R463), the two halves of the journal (R419), the key area (R362), and
the instruction and data memory of every cluster (R196, R197). -/
def Memory.wf (s : State) : Bool :=
  twf (fun _ => 0) s.byre.rram && twf (fun _ => 0) s.jr.halfA && twf (fun _ => 0) s.jr.halfB && twf (fun _ => 0) s.tn.keys &&
    s.cl.all fun p => twf (fun _ => 0) p.2.imem && twf (fun _ => 0) p.2.dmem

/-- A released core is in START, RUN or DRAIN (Table 16-2). -/
def CoreState (s : State) : Prop :=
  s.released = true → s.byre.state = .start ∨ s.byre.state = .run ∨ s.byre.state = .drain

/-- The register bank and the retention RAM are in their order, the write buffer of the fault log and FL_OVF_LOG hold no
more than their 16 entries (R527, R540), and the Byre's state fits the core's. -/
def StateInv (s : State) : Prop :=
  Rising s.regs ∧ Rising s.byre.rram ∧ s.fl.buf.length ≤ 16 ∧ s.fl.ovfLog.length ≤ 16 ∧ CoreState s

end Sys2Proof.Safety
end

