-- ==== Sys2Proof/Certificates/Slice0/Obligations.lean ====
section
/-! DEFINITION. The statements for the provers: what the rules of spec/ say the commands do. -/

open Sys2Proof Sys2Proof.Machine Sys2Proof.Safety

/-- A reference edge that lies in its window, or that anchors the windows, clears the count of missing cycles and sets the expected instant of the next, shows its phase error, completes qualification at the 64th present edge, and declares lock or its loss at the N-th or M-th cycle; a fourth missing cycle loses the reference; an edge before its window has no effect; the frequency check, the band search and its timeout change the state as Table 2-2 says; each leaves the state outside the named parts unchanged. The model's own choices behind it: log entries 3, 4, 5, 6, 18, 19, 21, 22, 69, 74, 76. -/
def Obligations.TimebaseEvents : Prop :=
  ∀ s : State, s.released = true →
    (∀ err : Int, s.tb.ts ≠ .off → (windowsRun s = true → s.now * 8192 ≤ windowEnd s ∧
      s.tb.expect ≤ edgeAt s + refCycle s / 4) → Answers (.refEdge err) s fun t => t.tb.missing = 0 ∧
      t.tb.expect = edgeAt s + refCycle s ∧ (-32768 ≤ err → err < 32768 →
      rfld t .tbPherr 0 16 = (err % 65536).toNat) ∧ (s.tb.ts = .qualify → s.tb.anchored = false → t.tb.ts = .qualify ∧
      t.tb.anchored = true) ∧ (s.tb.ts = .qualify → s.tb.anchored = true → s.tb.activity = 63 → t.tb.refOk = true ∧
      t.tb.ts ≠ .qualify) ∧ (s.tb.ts = .acquire → inWindow s err = true → lockN s ≤ s.tb.inWin + 1 →
      t.tb.ts = .locked ∧ t.tb.tickPending = true) ∧ (s.tb.ts = .locked → inWindow s err = true → t.tb.ts = .locked ∧
      t.tb.outWin = 0) ∧ (s.tb.ts = .locked → inWindow s err = false → lockM s ≤ s.tb.outWin + 1 →
      t.tb.ts = .holdover) ∧
      t = { s with pb := t.pb, syn := t.syn, ev := t.ev, fr := t.fr, pl := t.pl, regs := t.regs, tb := t.tb, free := t.free, fl := t.fl, jr := t.jr, byre := t.byre, acc := t.acc }) ∧
    (∀ err : Int, windowsRun s = true → s.now * 8192 ≤ windowEnd s → edgeAt s + refCycle s / 4 < s.tb.expect →
      Answers (.refEdge err) s fun t => t = s) ∧
    (windowsRun s = true → Answers (.missingReferenceCycle) s fun t => t.tb.activity = 0 ∧
      t.tb.expect = s.tb.expect + refCycle s ∧ lc t = max (lc s) (windowEnd s / 16384) ∧ (s.tb.missing < 3 →
      t.tb.missing = s.tb.missing + 1 ∧ t.tb.ts = s.tb.ts) ∧ (s.tb.ts = .locked → s.tb.missing = 3 →
      t.tb.ts = .holdover ∧ t.tb.refOk = false) ∧ (s.tb.ts = .check ∨ s.tb.ts = .search ∨ s.tb.ts = .acquire →
      s.tb.missing = 3 → t.tb.ts = .qualify ∧ t.tb.refOk = false) ∧
      t = { s with now := t.now, pb := t.pb, syn := t.syn, ev := t.ev, fr := t.fr, pl := t.pl, regs := t.regs, tb := t.tb, fl := t.fl, byre := t.byre, acc := t.acc }) ∧
    (∀ pass : Bool, s.tb.ts = .check → Answers (.frequencyCheckDone pass) s fun t => (pass = true →
      t.tb.ts = .acquire ∧ t.tb.fromStored = bandValid s ∧ t.tb.inWin = 0 ∧ t.regs = s.regs) ∧ (pass = false →
      t.tb.ts = .qualify ∧ t.tb.activity = 0 ∧ t = raise .tbEvents 2 { s with tb := t.tb }) ∧
      t = { s with tb := t.tb, regs := t.regs, acc := t.acc }) ∧
    (∀ band : Nat, band < 64 → s.tb.ts = .search →
      Answers (.bandSearchDone band) s fun t => reg t .tbBand = at32 1 31 ||| at32 band 0 ∧ t.tb.ts = .acquire ∧
      t.tb.fromStored = false ∧ t.jr.sysQ.length = s.jr.sysQ.length + 1 ∧
      RegsBut [regAddr .tbBand, regAddr .tbEvents] s t ∧
      t = { s with tb := t.tb, regs := t.regs, jr := t.jr, acc := t.acc }) ∧
    (s.tb.ts = .acquire → s.tb.fromStored = true → Answers (.storedBandTimeout) s fun t => t.tb.ts = .search ∧
      t.tb.research = true ∧ lc t = max (lc s) (s.tb.acquireLc + 625000) ∧ t = { s with now := t.now, tb := t.tb }) ∧
    (∀ level : Bool, Answers (.ocxoWarm level) s fun t => t = { s with tb := { s.tb with ocxo := level } }) ∧
    (∀ (level : Bool) (off : Nat), off < 16384 → Answers (.syncEvent level off) s fun t => t.tb.syncPrev = level ∧
      (level = false → t = { s with tb := t.tb }) ∧ (s.tb.syncPrev = true → t = { s with tb := t.tb }) ∧
      (level = true → s.tb.syncPrev = false → rfld s .tbSyncCfg 0 2 = 1 → syncEligible s = true →
      t.tb.syncT0 = some (lc s + 16 + rfld s .tbSyncCfg 16 16) ∧ t.regs = s.regs) ∧
      RegsBut [regAddr .tbSyncDiff, regAddr .tbEvents] s t ∧ t = { s with tb := t.tb, regs := t.regs, acc := t.acc })

/-- For an issuer with the right to them: REFSEL takes every value but 3, and a change is a loss of reference; TS_EN starts and stops the TS; GATE gates every pulse lane; TSET waits for its tick where every output is gated or stopped and is refused otherwise; TB_FOFS takes a value in range and refuses any other. The model's own choices behind it: log entries 3, 4, 22. -/
def Obligations.TimebaseWrites : Prop :=
  ∀ s : State, s.released = true →
    (∀ (who : Who) (sel : Nat), sel < 4 → TbRights s who = true →
      Answers (.refselWrite who sel) s fun t => t.busStatus = 0 ∧
      rfld t .tbCtrl 0 2 = (if sel = 3 then rfld s .tbCtrl 0 2 else sel) ∧ rfld t .tbCtrl 2 3 = rfld s .tbCtrl 2 3 ∧
      (sel ≠ 3 → sel ≠ rfld s .tbCtrl 0 2 → s.tb.ts = .locked → t.tb.ts = .holdover) ∧ (sel = 3 → t.tb = s.tb)) ∧
    (∀ (who : Who) (en : Bool), TbRights s who = true → Answers (.tsEnWrite who en) s fun t => t.busStatus = 0 ∧
      rfld t .tbCtrl 4 1 = b2n en ∧ (en = true → rfld s .tbCtrl 4 1 = 0 → s.tb.ts = .off → t.tb.ts = .qualify) ∧
      (en = false → rfld s .tbCtrl 4 1 = 1 → s.tb.ts = .locked → t.tb.ts = .holdover ∧ t.tb.cause = .disabled) ∧
      rfld t .tbCtrl 0 4 = rfld s .tbCtrl 0 4) ∧
    (∀ who : Who, TbRights s who = true → Answers (.tbCtrlGate who) s fun t => t.busStatus = 0 ∧
      t.tb.gated = BitVec.allOnes 256 ∧ rfld t .tbCtrl 8 1 = 1 ∧ rfld t .tbCtrl 0 5 = rfld s .tbCtrl 0 5 ∧
      t.tb.ts = s.tb.ts) ∧
    (∀ who : Who, TbRights s who = true → Answers (.tset who) s fun t => (s.tb.gated = BitVec.allOnes 256 →
      ckoRunning s = false → t.tb.tset = true ∧ t.busStatus = 0) ∧
      (s.tb.gated ≠ BitVec.allOnes 256 ∨ ckoRunning s = true → t.tb = s.tb ∧ t.busStatus = 0x0A ∧
      rbit t .tbEvents 9 = true)) ∧
    (∀ (who : Who) (v : W32), TbRights s who = true →
      Answers (.tbFofsWrite who v) s fun t => (v.toInt.natAbs ≤ 214748 → reg t .tbFofs = v ∧ t.busStatus = 0) ∧
      (214748 < v.toInt.natAbs → reg t .tbFofs = reg s .tbFofs ∧ t.busStatus = 0x0A ∧ rbit t .tbEvents 4 = true) ∧
      RegsBut [regAddr .tbFofs, regAddr .tbEvents, regAddr .jrEvents] s t ∧
      t = { s with regs := t.regs, jr := t.jr, busStatus := t.busStatus, acc := t.acc })

/-- For an issuer with the right to them: SEARCH and HOP of a usable plan stop the outputs after the half-period in progress and begin the search or the hop; EN begins the hop and ends everything; a ratio write clears the band of its plan; enabling an output that is allowed lets it start at the next tick, disabling stops it so; AS lock, its loss and a HOP timeout change the synthesizer as R71-R73 say. The model's own choices behind it: log entries 3, 4, 5, 23, 74. -/
def Obligations.SynthesizerCommands : Prop :=
  ∀ s : State, s.released = true →
    (∀ (who : Who) (plan : Nat), plan < 16 → TbRights s who = true → rbit s .asCtrl 0 = true →
      planUsable s plan = true → Answers (.asSearch who plan) s fun t => t.busStatus = 0 ∧
      t.syn.work = .search plan false ∧ t.syn.locked = false ∧ rfld t .asCtrl 4 4 = plan ∧ (∀ n, n < 8 →
      ckoRuns s n = true → (cko t n).stopAt = some ((cko s n).stopAt.getD ((cko s n).halfEnd (rdNow s))))) ∧
    (∀ (who : Who) (plan : Nat), plan < 16 → TbRights s who = true → rbit s .asCtrl 0 = true →
      planUsable s plan = true → Answers (.asHop who plan) s fun t => t.busStatus = 0 ∧
      t.syn.work = (if rbit s (.asPlanBand plan) 31 then .hop plan else .search plan false) ∧ t.syn.locked = false ∧
      rfld t .asCtrl 4 4 = plan ∧ (∀ n, n < 8 → ckoRuns s n = true →
      (cko t n).stopAt = some ((cko s n).stopAt.getD ((cko s n).halfEnd (rdNow s))))) ∧
    (∀ (who : Who) (en : Bool), TbRights s who = true → rbit s .asCtrl 0 ≠ en →
      planUsable s (rfld s .asCtrl 4 4) = true → Answers (.asEn who en) s fun t => t.busStatus = 0 ∧
      rfld t .asCtrl 0 1 = b2n en ∧ rfld t .asCtrl 4 4 = rfld s .asCtrl 4 4 ∧ (en = true → t.syn.work ≠ .idle) ∧
      (en = false → t.syn.work = .idle ∧ t.syn.locked = false)) ∧
    (∀ band : Nat, band < 256 → s.syn.work ≠ .idle ∨ s.syn.relock = true →
      Answers (.asLock band) s fun t => t.syn.locked = true ∧ t.syn.work = .idle ∧ (∀ p, s.syn.work = .hop p →
      t.syn.active = p ∧ rbit t .asEvents 1 = true) ∧ (∀ p fb, s.syn.work = .search p fb → t.syn.active = p ∧
      reg t (.asPlanBand p) = at32 1 31 ||| at32 band 0) ∧
      t = { s with syn := t.syn, regs := t.regs, jr := t.jr, acc := t.acc }) ∧
    (asHeld s = true → Answers (.asLossOfLock) s fun t => t.syn.locked = false ∧ rbit t .asEvents 0 = true ∧
      t.tb.ckoGated = BitVec.allOnes 8 ∧
      t = { s with syn := t.syn, regs := t.regs, tb := t.tb, fl := t.fl, byre := t.byre, acc := t.acc }) ∧
    (∀ p : Nat, s.syn.work = .hop p → Answers (.asHopTimeout) s fun t => t.syn.work = .search p true ∧
      rbit t .asEvents 4 = true ∧ lc t = max (lc s) (s.syn.workLc + 12500) ∧ RegsBut [regAddr .asEvents] s t ∧
      t = { s with syn := t.syn, now := t.now, regs := t.regs, acc := t.acc }) ∧
    (∀ (who : Who) (plan : Nat) (v : W32), plan < 16 → TbRights s who = true →
      Answers (.asPlanRatioWrite who plan v) s fun t => t.busStatus = 0 ∧ planRatio t plan = fld v 0 28 ∧
      rbit t (.asPlanBand plan) 31 = false ∧
      RegsBut [regAddr (.asPlanRatio plan), regAddr (.asPlanBand plan), regAddr .jrEvents] s t ∧
      t = { s with regs := t.regs, jr := t.jr, busStatus := t.busStatus, acc := t.acc }) ∧
    (∀ (who : Who) (n : Nat) (v : W32), n < 8 → TbRights s who = true →
      Answers (.asCkoCfgWrite who n v) s fun t => (bitAt v 0 = true → rbit s (.asCkoCfg n) 0 = false →
      s.syn.locked = false → (cko t n).waiting = true ∧ t.busStatus = 0) ∧ (bitAt v 0 = false →
      rbit s (.asCkoCfg n) 0 = true → (cko t n).waiting = false ∧ t.busStatus = 0 ∧ (ckoRuns s n = true →
      (cko t n).stopAt = some ((cko s n).stopAt.getD ((cko s n).halfEnd (rdNow s))))) ∧
      rbit t (.asCkoCfg n) 0 = bitAt v 0 ∧ (∀ m, m ≠ n → cko t m = cko s m) ∧
      RegsBut [regAddr (.asCkoCfg n), regAddr .asEvents, regAddr .jrEvents] s t ∧
      t = { s with syn := t.syn, regs := t.regs, jr := t.jr, busStatus := t.busStatus, acc := t.acc })

/-- The tick of the period counts the frame up and begins the next one at its lane cycle; the tick after the first lock sets time and frame counter from TB_TSET and FR_SET; the tick in HOLDOVER freezes time; a SYNC restarts them at its T0 with a new epoch; FR_CTRL.APPLY asks for a period. The model's own choices behind it: log entries 3, 4, 19, 21, 24, 69, 74. -/
def Obligations.FrameTick : Prop :=
  ∀ s : State, s.released = true →
    (s.tb.tickPending = false → s.fr.running = true → syncFirst s = false → s.tb.ts = .locked → s.tb.tset = false →
      s.fr.count + 1 < 2 ^ 48 → Answers (.frameTick) s fun t => t.fr.count = s.fr.count + 1 ∧
      t.fr.ticks = s.fr.ticks + 1 ∧ t.fr.tickLc = nextTick s ∧ t.fr.start = absAt s (nextTick s) ∧
      t.fr.running = true ∧ t.pending = s.pending ∧ t.otp = s.otp) ∧
    (s.tb.tickPending = true → s.fr.running = false → Answers (.frameTick) s fun t => t.fr.running = true ∧
      t.fr.count = frSet s ∧ t.fr.start = tbTset s ∧ t.fr.tickLc = s.fr.baseLc + 1 ∧ t.tb.tickPending = false ∧
      t.pending = s.pending ∧ t.otp = s.otp) ∧
    (s.tb.tickPending = false → s.fr.running = true → s.tb.ts = .holdover →
      Answers (.frameTick) s fun t => t.fr.running = false ∧ t.fr.base = absAt s (nextTick s) ∧
      t.fr.count = s.fr.count ∧ t.tb.frozenByLoss = true ∧ t.tb.ts ≠ .holdover ∧ t.pending = s.pending ∧
      t.otp = s.otp) ∧
    (∀ n : Nat, s.tb.tickPending = false → s.fr.running = true → s.tb.ts = .locked → s.tb.syncT0 = some n →
      n ≤ nextTick s → Answers (.syncT0) s fun t => t.fr.count = frSetBefore (toLc n s) ∧
      t.fr.start = tsetBefore (toLc n s) ∧ t.fr.tickLc = n ∧ reg t .tbEpoch = reg s .tbEpoch + 1 ∧
      (writtenNow (toLc n s) .tbSyncCfg = false → rfld t .tbSyncCfg 0 2 = 0) ∧ (lc s < n → t.fr.count = frSet s ∧
      t.fr.start = tbTset s) ∧ t.tb.syncT0 = none ∧ t.pending = s.pending ∧ t.otp = s.otp) ∧
    (∀ who : Who, who.tenant = 0 → Answers (.frApply who) s fun t => (periodOk (rfld s .frPeriodReq 0 15) = true →
      t.fr = { s.fr with pend := some (rfld s .frPeriodReq 0 15), pendBy := false } ∧ t.busStatus = 0) ∧
      (periodOk (rfld s .frPeriodReq 0 15) = false → t.fr = s.fr ∧ t.busStatus = 0x0A ∧ rbit t .frEvents 4 = true) ∧
      RegsBut [regAddr .frCtrl, regAddr .frEvents, regAddr .jrEvents] s t ∧
      t = { s with fr := t.fr, regs := t.regs, jr := t.jr, busStatus := t.busStatus, acc := t.acc })

/-- The input port takes the pending entry and gives its edges to the correction stage; a corrected edge that no check refuses joins the queue in order of time; the comparator loads edges into the free generators; a loaded edge that fires makes the level its kind gives and counts where it changes it, with the gate open, and is discarded with the gate closed; a gate request opens or closes the gate, and a pulse that the close finds active keeps its trailing edge or is cut at the next lane-cycle boundary; an overcurrent disables the lane. Every other lane stays as it was. The model's own choices behind it: log entries 3, 4, 33, 35. -/
def Obligations.PulseEdgePath : Prop :=
  ∀ s : State, s.released = true →
    (∀ (k w n : Nat) (e : EdgeEntry), k < 256 → portNext (pulse s k) = some (w, e) →
      n = max (max (lc s) w) (pulse s k).portFree → tbGated s k = false → (pulse s k).ocDis = false →
      late s n e.time = false →
      Answers (.edgeEntryAccept k) s fun t => (pulse t k).correct = (pulse s k).correct ++ ((storedOf e).zipIdx.map fun p => (n + 1 + p.2, p.1)) ∧
      (pulse t k).portFree = n + (storedOf e).length ∧ lc t = max (lc s) n ∧ PulsesBut [k] s t ∧
      t = { s with sp := t.sp, pb := t.pb, now := t.now, pl := t.pl, regs := t.regs, fl := t.fl, acc := t.acc }) ∧
    (∀ (k n : Nat) (e : Stored) (rest : List (Nat × Stored)), k < 256 → (pulse s k).correct = (n, e) :: rest →
      queueCheck (pulse s k) { e with tint := corrected (pulse s k).bank e.t } = none →
      Answers (.edgeCorrect k) s fun t => (pulse t k).queue = insertEdge { e with tint := corrected (pulse s k).bank e.t } (pulse s k).queue ∧
      (pulse t k).correct = rest ∧ (pulse t k).gens = (pulse s k).gens ∧ t.regs = s.regs ∧ PulsesBut [k] s t ∧
      t = { s with now := t.now, pl := t.pl }) ∧
    (∀ (k n cause : Nat) (e : Stored) (rest : List (Nat × Stored)), k < 256 → (pulse s k).correct = (n, e) :: rest →
      queueCheck (pulse s k) { e with tint := corrected (pulse s k).bank e.t } = some cause →
      Answers (.edgeCorrect k) s fun t => (e.pair ≠ 2 → (pulse t k).queue = (pulse s k).queue) ∧
      (pulse t k).correct = (if e.pair = 1 then rest.tail else rest) ∧ (∀ r, e.pair = 2 →
      riseOf { e with tint := corrected (pulse s k).bank e.t } (pulse s k) = some r → r ∉ (pulse t k).queue) ∧
      rbit t (.lnEvents k) cause = true ∧ PulsesBut [k] s t ∧
      t = { s with sp := t.sp, now := t.now, pl := t.pl, regs := t.regs, fl := t.fl, acc := t.acc }) ∧
    (∀ (k m n : Nat) (ns : List Nat), k < 256 → (pulse s k).queue.map (fun e => loadLc s e.tint) = n :: ns →
      m = max (lc s) (ns.foldl min n) →
      Answers (.edgeLoad k) s fun t => (pulse t k).gens.length ≤ (pulse s k).gens.length + freeGens s (pulse s k) m ∧
      (0 < freeGens s (pulse s k) m → (pulse s k).gens.length < (pulse t k).gens.length) ∧
      (∀ e, e ∈ (pulse t k).gens → e ∈ (pulse s k).gens ∨ e ∈ (pulse s k).queue) ∧ lc t = m ∧ PulsesBut [k] s t ∧
      t = { s with now := t.now, pl := t.pl }) ∧
    (∀ (k : Nat) (e : Stored) (rest : List Stored), k < 256 → (pulse s k).gens = e :: rest →
      (pulse s k).gateReqs = [] → safeOn s = false → (pulse s k).ocDis = false → (pulse s k).cut = none →
      (pulse s k).gateOpen = true → tbGated s k = false → Answers (.edgeFire k) s fun t => (pulse t k).gens = rest ∧
      (pulse t k).lastT = some e.t ∧ (pulse t k).level = levelAfter e.kind (pulse s k).level ∧
      (pulse t k).fired = (if levelAfter e.kind (pulse s k).level = (pulse s k).level then (pulse s k).fired else (pulse s k).fired + 1) ∧
      PulsesBut [k] s t ∧
      t = { s with ev := t.ev, now := t.now, pl := t.pl, regs := t.regs, fl := t.fl, acc := t.acc }) ∧
    (∀ (k : Nat) (e : Stored) (rest : List Stored), k < 256 → (pulse s k).gens = e :: rest →
      (pulse s k).gateReqs = [] → (pulse s k).cut = none → (pulse s k).gateOpen = false →
      (pulse s k).trailing = none → Answers (.edgeFire k) s fun t => (pulse t k).gens = rest ∧
      (pulse t k).level = (pulse s k).level ∧ (pulse t k).fired = (pulse s k).fired ∧ rbit t (.lnEvents k) 4 = true ∧
      PulsesBut [k] s t) ∧
    (∀ (k x : Nat) (op : Bool), k < 256 → (pulse s k).gateReqs = [(x, op)] → safeOn s = false →
      (pulse s k).cut = none → (op = true → (pulse s k).closedLc ≠ some (x / 16384)) →
      Answers (.laneGateChange k) s fun t => (pulse t k).gateReqs = [] ∧ (pulse t k).gateOpen = op ∧
      lc t = max (lc s) (x / 16384) ∧ (pulse t k).level = (pulse s k).level ∧ (op = false →
      (pulse t k).closedLc = some (x / 16384)) ∧ (op = false → (pulse s k).gateOpen = true →
      (pulse s k).level = true →
      (pulse t k).trailing.isSome = true ∨ (pulse t k).cut = some { lc := x / 16384 + 1, cause := .gate }) ∧
      PulsesBut [k] s t ∧ t = { s with now := t.now, pl := t.pl, regs := t.regs, fl := t.fl, acc := t.acc }) ∧
    (∀ k : Nat, k < 256 → (pulse s k).stdNow ≠ 0 → (pulse s k).ocDis = false →
      Answers (.overcurrent k) s fun t => (pulse t k).ocDis = true ∧ (pulse t k).gateOpen = false ∧
      (pulse t k).level = false ∧ (pulse t k).queue = [] ∧ (pulse t k).correct = [] ∧ rbit t (.lnEvents k) 7 = true ∧
      rbit t .flFpend 0x17 = true ∧ PulsesBut [k] s t ∧
      t = { s with pl := t.pl, regs := t.regs, fl := t.fl, byre := t.byre, acc := t.acc })

/-- For the owner or the steward: GATE_CLOSE asks for the gate at the second lane cycle after; FLUSH leaves at most the edge that ends an active pulse; OC_REARM waits for the tick; LN_CFG sets POL and a defined STD and refuses STD 3. For the steward: CAL_LOAD, CAL_NOW and CAL_SAVE mark the swap, the visit and the journal record; LN_SKEW_SH and LN_CTAB_DATA write the shadow bank and end a visit in progress. Every other lane stays as it was. The model's own choices behind it: log entries 3, 4, 33, 36, 37, 73. -/
def Obligations.PulseLaneWrites : Prop :=
  ∀ s : State, s.released = true →
    (∀ (who : Who) (k : Nat), k < 256 → LaneRights s who k = true → outOfService s (pulseCl k) = false →
      Answers (.lnGateClose who k) s fun t => (pulse t k).gateReqs = ((pulse s k).gateReqs.filter fun r => r.1 ≤ (lc s + 2) * 16384) ++ ((lc s + 2) * 16384, false) :: ((pulse s k).gateReqs.filter fun r => (lc s + 2) * 16384 < r.1) ∧
      t.busStatus = 0 ∧ PulsesBut [k] s t ∧ t = { s with pl := t.pl, busStatus := t.busStatus }) ∧
    (∀ (who : Who) (k : Nat), k < 256 → LaneRights s who k = true → outOfService s (pulseCl k) = false →
      Answers (.lnFlush who k) s fun t => ((pulse s k).cut = none →
      ∀ e, (e ∈ (pulse t k).queue ∨ ∃ n, (n, e) ∈ (pulse t k).correct) → flushKeeps (pulse s k) = some e) ∧
      ((pulse s k).cut = none → willBeActive (pulse s k) = false → (pulse t k).queue = [] ∧
      (pulse t k).correct = []) ∧ (pulse t k).gens = (pulse s k).gens ∧ t.busStatus = 0 ∧ lc t = lc s + 1 ∧
      PulsesBut [k] s t) ∧
    (∀ (who : Who) (k : Nat), k < 256 → LaneRights s who k = true → outOfService s (pulseCl k) = false →
      Answers (.lnOcRearm who k) s fun t => t = modPulse k (fun l => { l with rearm := true }) { s with busStatus := 0 }) ∧
    (∀ (who : Who) (k : Nat), k < 256 → who.tenant = 0 → outOfService s (pulseCl k) = false →
      Answers (.lnCalLoad who k) s fun t => (pulse t k).cal.swap = true ∧ t.busStatus = 0 ∧ PulsesBut [k] s t ∧
      t = { s with pl := t.pl, busStatus := t.busStatus }) ∧
    (∀ (who : Who) (k : Nat), k < 256 → who.tenant = 0 → outOfService s (pulseCl k) = false →
      Answers (.lnCalNow who k) s fun t => (pulse t k).cal.due = (if (pulse s k).cal.due = .spot then .spot else .now) ∧
      t.busStatus = 0 ∧ PulsesBut [k] s t ∧ t = { s with pl := t.pl, busStatus := t.busStatus }) ∧
    (∀ (who : Who) (k : Nat), k < 256 → who.tenant = 0 → outOfService s (pulseCl k) = false →
      Answers (.lnCalSave who k) s fun t => (pulse t k).cal.saved = some s.fr.ticks ∧
      t.jr.sysQ.length = s.jr.sysQ.length + 1 ∧ t.busStatus = 0 ∧ PulsesBut [k] s t ∧
      t = { s with pl := t.pl, jr := t.jr, busStatus := t.busStatus }) ∧
    (∀ (who : Who) (k : Nat) (v : W32), k < 256 → LaneRights s who k = true → outOfService s (pulseCl k) = false →
      Answers (.lnCfgWrite who k v) s fun t => (pulse t k).cfgPend = true ∧ rfld t (.lnCfg k) 2 1 = fld v 2 1 ∧
      (fld v 0 2 ≠ 3 → rfld t (.lnCfg k) 0 2 = fld v 0 2 ∧ t.busStatus = 0) ∧ (fld v 0 2 = 3 →
      rfld t (.lnCfg k) 0 2 = rfld s (.lnCfg k) 0 2 ∧ t.busStatus = 0x0A ∧ rbit t (.lnEvents k) 10 = true) ∧
      PulsesBut [k] s t ∧ RegsBut [regAddr (.lnCfg k), regAddr (.lnEvents k), regAddr .jrEvents] s t ∧
      t = { s with pl := t.pl, regs := t.regs, jr := t.jr, busStatus := t.busStatus, acc := t.acc }) ∧
    (∀ (who : Who) (k : Nat) (v : W32), k < 256 → who.tenant = 0 → outOfService s (pulseCl k) = false →
      -12288 ≤ sgn 16 (fld v 0 16) → sgn 16 (fld v 0 16) ≤ 0 →
      Answers (.lnSkewShWrite who k v) s fun t => (pulse t k).shadow.ofs = BitVec.ofNat 16 (fld v 0 16) ∧
      (pulse t k).cal.busy = false ∧ (pulse t k).bank = (pulse s k).bank ∧ t.busStatus = 0 ∧ PulsesBut [k] s t ∧
      t = { s with pl := t.pl, busStatus := t.busStatus, regs := t.regs, acc := t.acc }) ∧
    (∀ (who : Who) (k : Nat) (v : W32), k < 256 → who.tenant = 0 → outOfService s (pulseCl k) = false →
      Answers (.lnCtabDataWrite who k v) s fun t => tget 0 (rfld s (.lnCtabIdx k) 0 10) (pulse t k).shadow.delta = BitVec.ofNat 8 (fld v 0 8) ∧
      rfld t (.lnCtabIdx k) 0 10 = (rfld s (.lnCtabIdx k) 0 10 + 1) % 1024 ∧ (pulse t k).cal.busy = false ∧
      (pulse t k).bank = (pulse s k).bank ∧ t.busStatus = 0 ∧ PulsesBut [k] s t ∧
      t = { s with pl := t.pl, regs := t.regs, busStatus := t.busStatus, acc := t.acc })

/-- The visit that comes next begins and makes the stamp lane of the pair due; its last shot, with its bins in force, writes the fitted shadow bank, which waits for the tick, or reports a fit out of range; the spot check keeps a lane within 8 drops and makes any other due; a code density pass begins, and ends after its last sample in new bins that wait for the tick or in a report. The model's own choices behind it: log entries 3, 4, 5, 37, 73. -/
def Obligations.Calibration : Prop :=
  ∀ s : State, s.released = true →
    (∀ k : Nat, k < 256 → nextVisit s k = true → Answers (.calVisitStart k) s fun t => (pulse t k).cal.busy = true ∧
      (pulse t k).cal.due = .no ∧ (stamp t k).cal.due ≠ .no ∧ PulsesBut [k] s t ∧ StampsBut [k] s t ∧
      t = { s with pl := t.pl, sl := t.sl }) ∧
    (∀ (k : Nat) (m : PulseCal), k < 256 → (pulse s k).cal.busy = true → (pulse s k).cal.awaits = false →
      Answers (.calVisitDone k m) s fun t => (pulse t k).cal.busy = false ∧ (∀ b, fitBank s k m = some b →
      (pulse t k).shadow = b ∧ (pulse t k).cal.swap = true ∧ (pulse t k).bank = (pulse s k).bank) ∧
      (fitBank s k m = none → (pulse t k).cal.stale = true ∧ (pulse t k).shadow = (pulse s k).shadow) ∧
      PulsesBut [k] s t ∧ lc t = max (lc s) (visitEnd (pulse s k).cal) ∧
      t = { s with now := t.now, pl := t.pl, regs := t.regs, fl := t.fl, byre := t.byre, acc := t.acc }) ∧
    (∀ (k : Nat) (e : Int), k < 256 → s.byre.warm = true → fld s.byre.spots k 1 = 1 →
      Answers (.spotCheckDone k e) s fun t => reg t (.lnSpot k) = BitVec.ofNat 32 (e % 65536).toNat ∧
      fld t.byre.spots k 1 = 0 ∧ (128 < e.natAbs → (pulse t k).cal.stale = true ∧ (pulse t k).cal.due = .spot ∧
      (stamp t k).cal.stale = true ∧ rbit t (.lnEvents k) 8 = true) ∧ (e.natAbs ≤ 128 →
      (pulse t k).cal.due = (pulse s k).cal.due ∧ ((pulse t k).cal.stale = true → (pulse s k).cal.stale = true)) ∧
      PulsesBut [k] s t ∧ StampsBut [k] s t ∧ RegsBut [regAddr (.lnSpot k), regAddr (.lnEvents k)] s t ∧
      t = { s with sl := t.sl, pl := t.pl, regs := t.regs, byre := t.byre, acc := t.acc }) ∧
    (∀ k : Nat, k < 256 → nextPass s k = true →
      Answers (.codeDensityPassStart k) s fun t => (stamp t k).cal.busy = true ∧ (stamp t k).cal.due = .no ∧
      StampsBut [k] s t ∧ t = { s with sl := t.sl }) ∧
    (∀ (k : Nat) (m : StampCal), k < 256 → (stamp s k).cal.busy = true → m.counts.length = 64 →
      lsum m.counts = passSamples (stamp s k).cal →
      Answers (.codeDensityPassDone k m) s fun t => (stamp t k).cal.busy = false ∧
      (widthsOk (binEdges m.counts) = true → (stamp t k).binsSh = binTable (binEdges m.counts) ∧
      (stamp t k).cal.swap = true ∧ t.pl = s.pl) ∧ (widthsOk (binEdges m.counts) = false →
      (stamp t k).cal.stale = true ∧ (stamp t k).binsSh = (stamp s k).binsSh) ∧ (stamp t k).bins = (stamp s k).bins ∧
      PulsesBut [k] s t ∧ StampsBut [k] s t ∧
      lc t = max (lc s) ((stamp s k).cal.startLc + passSamples (stamp s k).cal) ∧
      t = { s with now := t.now, sl := t.sl, pl := t.pl, regs := t.regs, fl := t.fl, byre := t.byre, acc := t.acc })

/-- A crossing sets the reported state of its comparator outside blanking, and where its edge is selected, enabled and past its dead time it is captured; a capture becomes a hit in the queue, 25 TS cycles after the one before it at the soonest, or the first half of a pair that its trailing crossing or the timeout completes; the forwarder sends the head of a queue, or a program record, to the Separator. Every other lane stays as it was. The model's own choices behind it: log entries 3, 4, 5, 39, 40. -/
def Obligations.StampPath : Prop :=
  ∀ s : State, s.released = true →
    (∀ (k : Nat) (cmpB level : Bool) (x bin : Nat), k < 256 → bin < 64 → cmpState (stamp s k) cmpB ≠ level →
      s.fr.tickLc ≤ x / 16384 → lc s ≤ x / 16384 + 8 → comparatorsTaken s = false →
      Answers (.thresholdCrossing k cmpB level x bin) s fun t => cmpState (stamp t k) cmpB = level ∧
      lc t = max (lc s) (x / 16384) ∧ (blankedAt (stamp s k) x = false →
      (if cmpB then (stamp t k).repB else (stamp t k).repA) = level) ∧ (blankedAt (stamp s k) x = true →
      (stamp t k).repA = (stamp s k).repA ∧ (stamp t k).repB = (stamp s k).repB) ∧ (cmpB = cfgBit (stamp s k) 1 →
      presc (stamp s k) = 0 → blankedAt (stamp s k) x = false → stampable s (stamp s k) x = true →
      (if level then cfgFld (stamp s k) 3 2 % 2 = 1 else 2 ≤ cfgFld (stamp s k) 3 2) → (stamp s k).skipTrail = false →
      (if level then (stamp s k).deadLead else (stamp s k).deadTrail) ≤ x → (stamp s k).buf.length < 4 →
      (stamp t k).buf = (stamp s k).buf ++ [captureOf s (!level) x bin]) ∧ StampsBut [k] s t ∧ MeasBut [k] s t ∧
      t = { s with sp := t.sp, ev := t.ev, now := t.now, sl := t.sl, regs := t.regs, fl := t.fl, rg := t.rg, acc := t.acc }) ∧
    (∀ (k : Nat) (x : Capture) (rest : List Capture), k < 256 → (stamp s k).buf = x :: rest →
      (stamp s k).queue.length < 256 → Answers (.hitEnqueue k) s fun t => (stamp t k).buf = rest ∧
      (cfgBit (stamp s k) 5 = false →
      (stamp t k).queue = (stamp s k).queue ++ [{ hitOf k 1 x.trail 0 (decoded s k x) with inq := max ((x.t / 16384 + 2) * 16384) (stamp s k).enqFree }] ∧
      (stamp t k).hits = (stamp s k).hits + 1) ∧ (cfgBit (stamp s k) 5 = true → x.trail = false → x.lost = false →
      (stamp t k).pair = some (decoded s k x) ∧
      (stamp t k).queue.length = (stamp s k).queue.length + (if (stamp s k).pair.isSome then 1 else 0)) ∧
      (cfgBit (stamp s k) 5 = true → x.trail = false → x.lost = true → (stamp s k).pair = none →
      (stamp t k).pair = none ∧ (stamp t k).queue.length = (stamp s k).queue.length + 1 ∧
      rbit t (.slEvents k) 3 = true) ∧ (∀ d, cfgBit (stamp s k) 5 = true → x.trail = true →
      (stamp s k).pair = some d → (stamp t k).pair = none ∧ (stamp t k).queue.length = (stamp s k).queue.length + 1) ∧
      StampsBut [k] s t ∧
      t = { s with sp := t.sp, ev := t.ev, now := t.now, sl := t.sl, regs := t.regs, fl := t.fl, acc := t.acc }) ∧
    (∀ (k : Nat) (d : StampTime), k < 256 → (stamp s k).pair = some d → (stamp s k).buf.any (·.trail) = false →
      (stamp s k).queue.length < 256 → Answers (.totTimeout k) s fun t => (stamp t k).pair = none ∧
      (stamp t k).queue = (stamp s k).queue ++ [{ hitOf k 2 false 0xFFFF d with inq := max (rdNow t) (stamp s k).enqFree }] ∧
      rbit t (.slEvents k) 3 = true ∧ StampsBut [k] s t ∧
      t = { s with sp := t.sp, ev := t.ev, now := t.now, sl := t.sl, regs := t.regs, fl := t.fl, acc := t.acc }) ∧
    (∀ (c k m : Nat) (h : Hit) (rest : List Hit), c < 32 → 16 ≤ c → k < 256 → stampCl k = c →
      outOfService s c = false → quarantined s c = false → recTurn s c = none → (stamp s k).queue = h :: rest →
      laneReady s k = some m →
      ((List.range 16).all fun j => 16 * (c - 16) + j == k || (laneReady s (16 * (c - 16) + j)).isNone) = true →
      Answers (.forwardRecord c) s fun t => (stamp t k).queue = rest ∧
      t.sp.inbound = s.sp.inbound ++ [{ tenant := (stampOwner s k).getD noTenant, stream := none, frame := h.no, words := [h.word], pos := chainPos s, cl := some c }] ∧
      StampsBut [k] s t ∧ t = { s with sp := t.sp, cl := t.cl, cx := t.cx, now := t.now, sl := t.sl }) ∧
    (∀ (c x : Nat) (r : ProgRec) (rest : List ProgRec), c < 16 → outOfService s c = false → quarantined s c = false →
      (cluster s c).recHalf = none → recTurn s c = some x → (ctx s x).recs = r :: rest → r.w1 = none →
      Answers (.forwardRecord c) s fun t => t.sp.inbound = s.sp.inbound ++ [{ tenant := ctxTenant (ctx s x), stream := some r.stream, frame := r.frame, words := [r.w0], pos := chainPos s, base := r.base, cl := some c }] ∧
      (ctx t x).recs = rest ∧ CtxsBut [x] s t ∧ t.sl = s.sl)

/-- A pending threshold setting is applied under blanking and starts settling blanking; a one-shot and the frame timer begin their intervals, in which a pending setting is applied; when no source of blanking is left the reported states are those of the comparators; a capture window closes at its length. The model's own choices behind it: log entries 3, 4, 39. -/
def Obligations.StampTiming : Prop :=
  ∀ s : State, s.released = true →
    (∀ (k : Nat) (p : ThrPend), k < 256 → (stamp s k).thrPend = some p →
      blankedAt (stamp s k) ((lc s + 1) * 16384) = true →
      Answers (.thrApply k) s fun t => (stamp t k).thrNow = p.thr ∧ (stamp t k).thrPend = none ∧
      (stamp t k).settling = blankFrom (stamp s k).settling (lc s + 1) (lc s + 3) ∧ rbit t (.slEvents k) 5 = true ∧
      lc t = lc s + 1 ∧ StampsBut [k] s t ∧ RegsBut [regAddr (.slEvents k)] s t ∧
      t = { s with now := t.now, sl := t.sl, regs := t.regs, acc := t.acc }) ∧
    (∀ (k n : Nat) (one : Bool), k < 256 → startOf (stamp s k) one = some n →
      Answers (.blankingStart k one) s fun t => (one = true → (stamp t k).oneShotAt = (stamp s k).oneShotAt.tail ∧
      (stamp t k).oneShot = blankFrom (stamp s k).oneShot n (n + max 1 (fld (stamp s k).blnk 16 8))) ∧ (one = false →
      (stamp t k).frameAt = none ∧
      (stamp t k).frameBlank = some (n * 16384, (n + fld (stamp s k).blnk 16 8) * 16384)) ∧
      (∀ p, (stamp s k).thrPend = some p → (stamp t k).thrNow = p.thr ∧ (stamp t k).thrPend = none ∧
      rbit t (.slEvents k) 5 = true) ∧ ((stamp s k).thrPend = none → (stamp t k).thrNow = (stamp s k).thrNow) ∧
      lc t = max (lc s) n ∧ StampsBut [k] s t ∧
      t = { s with sp := t.sp, ev := t.ev, now := t.now, sl := t.sl, regs := t.regs, fl := t.fl, acc := t.acc }) ∧
    (∀ k : Nat, k < 256 → blankEnds (stamp s k) ≠ [] →
      Answers (.blankingEnd k) s fun t => blankEnds (stamp t k) = [] ∧ (stamp t k).repA = (stamp s k).sA ∧
      (stamp t k).repB = (stamp s k).sB ∧ ((stamp s k).sA ≠ (stamp s k).repA → rbit t (.slEvents k) 4 = true) ∧
      StampsBut [k] s t ∧
      t = { s with sp := t.sp, ev := t.ev, now := t.now, sl := t.sl, regs := t.regs, fl := t.fl, acc := t.acc }) ∧
    (∀ (k e : Nat), k < 256 → (stamp s k).window = some e → (stamp s k).held = false →
      Answers (.captureWindowClose k) s fun t => (stamp t k).windowOpen = false ∧ (stamp t k).window = none ∧
      lc t = max (lc s) (e / 16384) ∧ StampsBut [k] s t ∧ t = { s with now := t.now, sl := t.sl })

/-- For the owner or the steward: SL_THR takes codes in range as the pending setting and refuses others; FLUSH empties the lane; BLNK_NOW asks for a one-shot; SL_CFG is pending unless R167 refuses it. For the steward: CAL_LOAD checks the shadow, CAL_NOW and CAL_SAVE mark the pass and the journal record, SL_TRIM and SL_BIN_DATA write the calibration. Every other lane stays as it was. The model's own choices behind it: log entries 3, 4, 37, 39. -/
def Obligations.StampLaneWrites : Prop :=
  ∀ s : State, s.released = true →
    (∀ (who : Who) (k : Nat) (v : W32), k < 256 → StampRights s who k = true → outOfService s (stampCl k) = false →
      Answers (.slThrWrite who k v) s fun t => (thrInRange v = true → (stamp s k).thrLc = some (lc s) → t.sl = s.sl ∧
      t.busStatus = 0) ∧ (thrInRange v = true → (stamp s k).thrLc ≠ some (lc s) →
      reg t (.slThr k) = v &&& 0xF3FF03FF ∧ (stamp t k).thrPend.map (·.thr) = some (v &&& 0xF3FF03FF) ∧
      t.busStatus = 0) ∧ (thrInRange v = false → reg t (.slThr k) = reg s (.slThr k) ∧ t.sl = s.sl ∧
      t.busStatus = 0x0A ∧ rbit t (.slEvents k) 7 = true) ∧ StampsBut [k] s t ∧
      RegsBut [regAddr (.slThr k), regAddr (.slEvents k), regAddr .jrEvents] s t ∧
      t = { s with sl := t.sl, regs := t.regs, jr := t.jr, busStatus := t.busStatus, acc := t.acc }) ∧
    (∀ (who : Who) (k : Nat), k < 256 → StampRights s who k = true → outOfService s (stampCl k) = false →
      Answers (.slFlush who k) s fun t => (stamp t k).queue = [] ∧ (stamp t k).buf = [] ∧ (stamp t k).pair = none ∧
      t.busStatus = 0 ∧ lc t = lc s + 1 ∧ StampsBut [k] s t) ∧
    (∀ (who : Who) (k : Nat), k < 256 → StampRights s who k = true → outOfService s (stampCl k) = false →
      Answers (.slBlnkNow who k) s fun t => t = modStamp k (fun l => { l with oneShotAt := l.oneShotAt ++ [lc s + 2] }) { s with busStatus := 0 }) ∧
    (∀ (who : Who) (k : Nat), k < 256 → who.tenant = 0 → outOfService s (stampCl k) = false →
      Answers (.slCalLoad who k) s fun t => (widthsOk (edgesOf (stamp s k).binsSh) = true →
      (stamp t k).cal.swap = true ∧ t.busStatus = 0) ∧ (widthsOk (edgesOf (stamp s k).binsSh) = false →
      (stamp t k).cal.swap = false ∧ (stamp t k).bins = (stamp s k).bins ∧ t.busStatus = 0x0A ∧
      rbit t (.slEvents k) 7 = true) ∧ StampsBut [k] s t ∧ RegsBut [regAddr (.slEvents k)] s t ∧
      t = { s with sl := t.sl, regs := t.regs, busStatus := t.busStatus, acc := t.acc }) ∧
    (∀ (who : Who) (k : Nat), k < 256 → who.tenant = 0 → outOfService s (stampCl k) = false →
      Answers (.slCalNow who k) s fun t => (stamp t k).cal.due = (if (stamp s k).cal.due = .spot then .spot else .now) ∧
      t.busStatus = 0 ∧ StampsBut [k] s t ∧ t = { s with sl := t.sl, busStatus := t.busStatus }) ∧
    (∀ (who : Who) (k : Nat), k < 256 → who.tenant = 0 → outOfService s (stampCl k) = false →
      Answers (.slCalSave who k) s fun t => (stamp t k).cal.saved = some s.fr.ticks ∧
      t.jr.sysQ.length = s.jr.sysQ.length + 1 ∧ t.busStatus = 0 ∧ StampsBut [k] s t ∧
      t = { s with sl := t.sl, jr := t.jr, busStatus := t.busStatus }) ∧
    (∀ (who : Who) (k : Nat) (v : W32), k < 256 → StampRights s who k = true → outOfService s (stampCl k) = false →
      held s (stampCl k) = none → Answers (.slCfgWrite who k v) s fun t => (slCfgBad v = false →
      (stamp t k).cfgPend = true ∧ reg t (.slCfg k) &&& regRwMask (.slCfg k) = v &&& regRwMask (.slCfg k) ∧
      t.busStatus = 0) ∧ (slCfgBad v = true → reg t (.slCfg k) = reg s (.slCfg k) ∧ t.sl = s.sl ∧
      t.busStatus = 0x0A) ∧ StampsBut [k] s t ∧
      RegsBut [regAddr (.slCfg k), regAddr (.slEvents k), regAddr .jrEvents] s t ∧
      t = { s with sl := t.sl, regs := t.regs, jr := t.jr, busStatus := t.busStatus, acc := t.acc }) ∧
    (∀ (who : Who) (k : Nat) (v : W32), k < 256 → who.tenant = 0 → outOfService s (stampCl k) = false →
      Answers (.slTrimWrite who k v) s fun t => (-4096 ≤ sgn 16 (fld v 0 16) → sgn 16 (fld v 0 16) ≤ 4095 →
      rfld t (.slTrim k) 0 16 = fld v 0 16 ∧ (stamp t k).cal.busy = false ∧ t.busStatus = 0) ∧
      (4095 < sgn 16 (fld v 0 16) → reg t (.slTrim k) = reg s (.slTrim k) ∧ t.busStatus = 0x0A) ∧ StampsBut [k] s t) ∧
    (∀ (who : Who) (k : Nat) (v : W32), k < 256 → who.tenant = 0 → outOfService s (stampCl k) = false →
      Answers (.slBinDataWrite who k v) s fun t => (rfld s (.slBinIdx k) 0 6 ≠ 0 →
      tget 0 (rfld s (.slBinIdx k) 0 6) (stamp t k).binsSh = BitVec.ofNat 14 (fld v 0 14)) ∧
      (rfld s (.slBinIdx k) 0 6 = 0 → (stamp t k).binsSh = (stamp s k).binsSh) ∧
      rfld t (.slBinIdx k) 0 6 = (rfld s (.slBinIdx k) 0 6 + 1) % 64 ∧ (stamp t k).cal.busy = false ∧
      t.busStatus = 0 ∧ StampsBut [k] s t)

/-- START waits for the tick, or for an event, unless it is refused; STOP ends what waits and lets a running gate close at its tick, and a MEAS start of its lane cycle counts as refused; the engine takes up to two entries of its lane in a slot, those of closed gates first; a finished gate gives its result with the next SEQ and its DONE bits. Every other measurement stays as it was. The model's own choices behind it: log entries 3, 4, 32, 41. -/
def Obligations.FrequencyMeasurement : Prop :=
  ∀ s : State, s.released = true →
    (∀ (who : Who) (k : Nat), k < 256 → StampRights s who k = true → outOfService s (stampCl k) = false →
      held s (stampCl k) = none → Answers (.rgStart who k) s fun t => (rgRefuses s k = false →
      (meas t k).state = (if rfld s (.rgCfg k) 12 2 = 1 then .waitEvent else .waitTick) ∧
      (meas t k).mode = rfld s (.rgCfg k) 12 2 ∧ t.busStatus = 0) ∧ (rgRefuses s k = true → t.rg = s.rg ∧
      t.busStatus = 0x0A ∧ rbit t (.rgLevents k) 2 = true) ∧ MeasBut [k] s t ∧ RegsBut [regAddr (.rgLevents k)] s t ∧
      t = { s with rg := t.rg, regs := t.regs, busStatus := t.busStatus, acc := t.acc }) ∧
    (∀ (who : Who) (k : Nat), k < 256 → StampRights s who k = true → outOfService s (stampCl k) = false →
      Answers (.rgStop who k) s fun t => ((meas s k).state = .running → (meas t k).state = .running ∧
      (meas t k).left = 1 ∧ (meas t k).again = false) ∧
      ((meas s k).state = .waitTick ∨ (meas s k).state = .waitEvent → (meas t k).state = .idle) ∧
      ((meas s k).state = .idle → (meas t k).state = .idle) ∧ (∀ p, (meas s k).startLc = some p → p.1 = lc s →
      (flagsNow t p.2).z = false ∧ rbit t (.rgLevents k) 2 = true) ∧
      ((meas s k).startLc.all (fun p => p.1 != lc s) = true → t.cx = s.cx) ∧ t.busStatus = 0 ∧ MeasBut [k] s t ∧
      t = { s with cx := t.cx, rg := t.rg, regs := t.regs, busStatus := t.busStatus, acc := t.acc }) ∧
    (∀ k : Nat, k < 256 →
      Answers (.regressionSlot k) s fun t => meas t k = { takeTwo (meas (tapDue k (lc t) { s with now := t.now }) k) with slotAt := lc t + 1 } ∧
      ((meas s k).finish = [] → (meas s k).cands = [] → (meas t k).gate.tap = (meas s k).gate.tap.drop 2) ∧
      (meas t k).slotAt = lc t + 1 ∧ (meas t k).finish.length = (meas s k).finish.length ∧ MeasBut [k] s t ∧
      t = { s with now := t.now, rg := t.rg }) ∧
    (∀ (k n ready : Nat) (g : Gate) (rest : List (Gate × Nat × Nat)), k < 256 →
      (meas s k).finish = (g, n, ready) :: rest →
      Answers (.resultReady k) s fun t => (meas t k).finish.length = rest.length ∧ ((meas s k).cands = [] →
      (meas t k).finish = rest) ∧ (meas t k).seq = ((meas s k).seq + 1) % 128 ∧ (meas t k).state = (meas s k).state ∧
      rbit t (.rgLevents k) 0 = true ∧ rbit t (.rgDone (k / 32)) (k % 32) = true ∧ lc t = max (lc s) ready ∧
      MeasBut [k] s t ∧ RegsBut [regAddr (.rgLevents k), regAddr (.rgDone (k / 32))] s t ∧
      t = { s with sp := t.sp, now := t.now, regs := t.regs, rg := t.rg, acc := t.acc })

/-- Every integer instruction of a context that issues it retires: its destination takes the result of its operands, unless it is g0 or the instruction is CMP; the flags take those of the result; the PC moves on; every other register, context, cluster and memory stays as it was. The model's own choices behind it: log entries 3, 4, 28. -/
def Obligations.IntegerInstructions : Prop :=
  ∀ (s : State) (c x : Nat) (o : IntOp) (w : W32), Issues s c x (.int o) w = true →
    Answers (intRow o c) s fun t =>
      let p := intOperands s x o w
      let r := intResult o p.2.1 p.2.2 (flagsNow s x)
      (if o = .cmp then SameG s t x else TakesG s t x p.1 r.1) ∧ flagsNow t x = r.2 ∧ SameT s t x ∧ SameR s t x ∧
        GoesOn s t x ∧ Computes s t c x (if o = .mul then 3 else 1)

/-- The result of every integer instruction is the one of Table 8-4 and R231, its carry the carry, borrow or last bit shifted out, its overflow that of the exact result, and Z and N are those of the result. The model's own choices behind it: log entries 3, 4, 28. -/
def Obligations.IntegerResults : Prop :=
  ∀ (a b : W32) (f : Flags),
    (∀ o, o ≠ .li → o ≠ .lui → (intResult o a b f).2.z = ((intResult o a b f).1 == 0) ∧
      (intResult o a b f).2.n = (intResult o a b f).1.getLsbD 31) ∧
    (intResult .add a b f).1.toNat = (a.toNat + b.toNat) % 2 ^ 32 ∧
    ((intResult .add a b f).2.c = true ↔ 2 ^ 32 ≤ a.toNat + b.toNat) ∧
    ((intResult .add a b f).2.v = true ↔ a.toInt + b.toInt < -2 ^ 31 ∨ 2 ^ 31 ≤ a.toInt + b.toInt) ∧
    (intResult .sub a b f).1.toNat = (2 ^ 32 + a.toNat - b.toNat) % 2 ^ 32 ∧
    ((intResult .sub a b f).2.c = true ↔ a.toNat < b.toNat) ∧
    ((intResult .sub a b f).2.v = true ↔ a.toInt - b.toInt < -2 ^ 31 ∨ 2 ^ 31 ≤ a.toInt - b.toInt) ∧
    intResult .cmp a b f = intResult .sub a b f ∧
    (intResult .and a b f).1 = a &&& b ∧ (intResult .or a b f).1 = a ||| b ∧ (intResult .xor a b f).1 = a ^^^ b ∧
    (∀ o, o = .and ∨ o = .or ∨ o = .xor → (intResult o a b f).2.c = false ∧ (intResult o a b f).2.v = false) ∧
    (intResult .shl a b f).1.toNat = a.toNat * 2 ^ b.toNat % 2 ^ 32 ∧
    ((intResult .shl a b f).2.c = true ↔ 1 ≤ b.toNat ∧ b.toNat ≤ 32 ∧ a.getLsbD (32 - b.toNat) = true) ∧
    (intResult .shr a b f).1.toNat = a.toNat / 2 ^ b.toNat ∧
    ((intResult .shr a b f).2.c = true ↔ 1 ≤ b.toNat ∧ b.toNat ≤ 32 ∧ a.getLsbD (b.toNat - 1) = true) ∧
    (intResult .sra a b f).1.toInt = a.toInt / 2 ^ b.toNat ∧
    ((intResult .sra a b f).2.c = true ↔ 1 ≤ b.toNat ∧ a.getLsbD (min (b.toNat - 1) 31) = true) ∧
    (∀ o, o = .shl ∨ o = .shr ∨ o = .sra → (intResult o a b f).2.v = false) ∧
    (intResult .mul a b f).1 = a * b ∧ (intResult .mul a b f).2.c = false ∧
    ((intResult .mul a b f).2.v = true ↔ a.toInt * b.toInt < -2 ^ 31 ∨ 2 ^ 31 ≤ a.toInt * b.toInt) ∧
    (intResult .min a b f).1.toInt = min a.toInt b.toInt ∧ (intResult .max a b f).1.toInt = max a.toInt b.toInt ∧
    (∀ o, o = .min ∨ o = .max → (intResult o a b f).2.c = f.c ∧ (intResult o a b f).2.v = f.v) ∧
    intResult .li a b f = (b, f) ∧ intResult .lui a b f = (b, f)

/-- A context that issues TADD, TSUB, TCMP or TSCL gets the sum, the difference, the product shifted or the part of the time shifted out, and the flags that R234 and R236 give them; TLD reads and TST writes the word of its data window, and either faults the context at an offset that R237 does not allow; TNOW reads absolute time in the cycle it issues; TFRM reads the frame. Each retires, and the PC moves on. The other registers of the context, the other contexts and clusters and the other words of data memory stay as they were. The model's own choices behind it: log entries 3, 4, 28, 38. -/
def Obligations.TimeInstructions : Prop :=
  ∀ s : State,
    (∀ (c x : Nat) (w : W32), Issues s c x .tadd w = true →
      Answers (.tadd c) s fun t => TakesT s t x (fTd w) ((tOf s x (fTa w)) + (yOf s x w)) ∧
      flagsNow t x = { z := ((tOf s x (fTa w)) + (yOf s x w)) == 0, n := (((tOf s x (fTa w)) + (yOf s x w))).getLsbD 63, c := decide (2 ^ 64 ≤ (tOf s x (fTa w)).toNat + (yOf s x w).toNat), v := (tOf s x (fTa w)).getLsbD 63 == (yOf s x w).getLsbD 63 && ((tOf s x (fTa w)) + (yOf s x w)).getLsbD 63 != (tOf s x (fTa w)).getLsbD 63 } ∧
      SameG s t x ∧ SameR s t x ∧ GoesOn s t x ∧ Computes s t c x 2) ∧
    (∀ (c x : Nat) (w : W32), Issues s c x .tsub w = true →
      Answers (.tsub c) s fun t => TakesT s t x (fTd w) ((tOf s x (fTa w)) - (yOf s x w)) ∧
      flagsNow t x = { z := ((tOf s x (fTa w)) - (yOf s x w)) == 0, n := (((tOf s x (fTa w)) - (yOf s x w))).getLsbD 63, c := decide ((tOf s x (fTa w)).toNat < (yOf s x w).toNat), v := (tOf s x (fTa w)).getLsbD 63 != (yOf s x w).getLsbD 63 && ((tOf s x (fTa w)) - (yOf s x w)).getLsbD 63 != (tOf s x (fTa w)).getLsbD 63 } ∧
      SameG s t x ∧ SameR s t x ∧ GoesOn s t x ∧ Computes s t c x 2) ∧
    (∀ (c x : Nat) (w : W32), Issues s c x .tcmp w = true →
      Answers (.tcmp c) s fun t => flagsNow t x = { z := ((tOf s x (fTa w)) - (yOf s x w)) == 0, n := (((tOf s x (fTa w)) - (yOf s x w))).getLsbD 63, c := decide ((tOf s x (fTa w)).toNat < (yOf s x w).toNat), v := (tOf s x (fTa w)).getLsbD 63 != (yOf s x w).getLsbD 63 && ((tOf s x (fTa w)) - (yOf s x w)).getLsbD 63 != (tOf s x (fTa w)).getLsbD 63 } ∧
      SameT s t x ∧ SameG s t x ∧ SameR s t x ∧ GoesOn s t x ∧ Computes s t c x 2) ∧
    (∀ (c x : Nat) (w : W32), Issues s c x .tscl w = true → fld w 17 1 = 0 →
      Answers (.tscl c) s fun t => TakesT s t x (fld w 21 3) (BitVec.ofNat 64 ((tOf s x (fld w 18 3)).toNat * (gOf s x (fld w 12 5)).toNat / 2 ^ fld w 6 6)) ∧
      flagsNow t x = { z := (BitVec.ofNat 64 ((tOf s x (fld w 18 3)).toNat * (gOf s x (fld w 12 5)).toNat / 2 ^ fld w 6 6)) == 0, n := ((BitVec.ofNat 64 ((tOf s x (fld w 18 3)).toNat * (gOf s x (fld w 12 5)).toNat / 2 ^ fld w 6 6))).getLsbD 63, c := false, v := decide (2 ^ 64 ≤ (tOf s x (fld w 18 3)).toNat * (gOf s x (fld w 12 5)).toNat / 2 ^ fld w 6 6) } ∧
      SameG s t x ∧ SameR s t x ∧ GoesOn s t x ∧ Computes s t c x 4) ∧
    (∀ (c x : Nat) (w : W32), Issues s c x .tscl w = true → fld w 17 1 = 1 →
      Answers (.tscl c) s fun t => TakesG s t x (fA w) (BitVec.ofNat 32 ((tOf s x (fld w 18 3)).toNat / 2 ^ fld w 6 6)) ∧
      flagsNow t x = { z := (BitVec.ofNat 32 ((tOf s x (fld w 18 3)).toNat / 2 ^ fld w 6 6)) == 0, n := ((BitVec.ofNat 32 ((tOf s x (fld w 18 3)).toNat / 2 ^ fld w 6 6))).getLsbD 31, c := decide (2 ^ 32 ≤ (tOf s x (fld w 18 3)).toNat / 2 ^ fld w 6 6), v := false } ∧
      SameT s t x ∧ SameR s t x ∧ GoesOn s t x ∧ Computes s t c x 1) ∧
    (∀ (c x : Nat) (w : W32), Issues s c x .tld w = true → offsetFault (ctx s x) (dataOffset s x w) = none →
      dataBad s c (dataWord (ctx s x) (dataOffset s x w)) = false →
      Answers (.tld c) s fun t => TakesT s t x (fTd w) (dataAt s c (dataWord (ctx s x) (dataOffset s x w))) ∧
      SameG s t x ∧ SameF s t x ∧ SameR s t x ∧ GoesOn s t x ∧ Computes s t c x 3) ∧
    (∀ (c x : Nat) (w : W32) (f : Nat), Issues s c x .tld w = true →
      offsetFault (ctx s x) (dataOffset s x w) = some f → Answers (.tld c) s fun t => (ctx t x).state = .faulted ∧
      (ctx t x).fault = at32 f 24 ||| at32 (ctx s x).pc.toNat 0 ∧ (ctx t x).pc = (ctx s x).pc ∧
      (ctx t x).r = (ctx s x).r ∧ (cluster t c).dmem = (cluster s c).dmem ∧ (cluster t c).run = none ∧
      CtxsBut [x] s t) ∧
    (∀ (c x : Nat) (w : W32), Issues s c x .tst w = true → offsetFault (ctx s x) (dataOffset s x w) = none →
      Answers (.tst c) s fun t => (wiped { s with now := issueAt s c } c true (dataWord (ctx s x) (dataOffset s x w)) = false →
      tget 0 (dataWord (ctx s x) (dataOffset s x w)) (cluster t c).dmem = tOf s x (fTd w)) ∧
      (wiped { s with now := issueAt s c } c true (dataWord (ctx s x) (dataOffset s x w)) = true →
      (cluster t c).dmem = (cluster s c).dmem) ∧ (∀ j, j ≠ (dataWord (ctx s x) (dataOffset s x w)) →
      tget 0 j (cluster t c).dmem = tget 0 j (cluster s c).dmem) ∧ SameG s t x ∧ SameT s t x ∧ SameF s t x ∧
      SameR s t x ∧ GoesOn s t x ∧ Retires s t c x 2 ∧ t = { s with now := t.now, cx := t.cx, cl := t.cl }) ∧
    (∀ (c x : Nat) (w : W32) (f : Nat), Issues s c x .tst w = true →
      offsetFault (ctx s x) (dataOffset s x w) = some f → Answers (.tst c) s fun t => (ctx t x).state = .faulted ∧
      (ctx t x).fault = at32 f 24 ||| at32 (ctx s x).pc.toNat 0 ∧ (ctx t x).pc = (ctx s x).pc ∧
      (ctx t x).r = (ctx s x).r ∧ (cluster t c).dmem = (cluster s c).dmem ∧ (cluster t c).run = none ∧
      CtxsBut [x] s t) ∧
    (∀ (c x : Nat) (w : W32), Issues s c x .tnow w = true →
      Answers (.tnow c) s fun t => TakesT s t x (fTd w) (absNow { s with now := issueAt s c } + yOf s x w) ∧
      SameG s t x ∧ SameF s t x ∧ SameR s t x ∧ GoesOn s t x ∧ Computes s t c x 2) ∧
    (∀ (c x : Nat) (w : W32), Issues s c x .tfrm w = true → Answers (.tfrm c) s fun t => (fld w 0 2 = 0 →
      TakesT s t x (fTd w) s.fr.start) ∧ (fld w 0 2 = 1 → TakesT s t x (fTd w) (BitVec.ofNat 64 s.fr.count)) ∧
      (fld w 0 2 = 2 → TakesT s t x (fTd w) ((reg s .tbEpoch).setWidth 64)) ∧ fld w 0 2 ≠ 3 ∧ SameG s t x ∧
      SameF s t x ∧ SameR s t x ∧ GoesOn s t x ∧ Computes s t c x 1)

/-- B.cond goes to its target in 2 cycles where its condition holds and on in 1 otherwise; J and CALL go to their target, CALL with the next PC pushed; RET pops it; LOOP counts down and goes back until 0; YIELD enters class 2 and leaves the sequencer to a ready context; HALT ends the context. Every other register, context and cluster stays as it was. The model's own choices behind it: log entries 3, 4, 28. -/
def Obligations.ControlInstructions : Prop :=
  ∀ s : State,
    (∀ (c x : Nat) (w : W32), Issues s c x .bcond w = true →
      Answers (.bCond c) s fun t => (condHolds (fld w 21 4) (flagsNow s x) (ctx s x).con.pending.isSome = true →
      (ctx t x).pc = targetOf s x w ∧ Computes s t c x 2) ∧
      (condHolds (fld w 21 4) (flagsNow s x) (ctx s x).con.pending.isSome = false → (ctx t x).pc = (ctx s x).pc + 1 ∧
      Computes s t c x 1) ∧ (ctx t x).r = (ctx s x).r ∧ (ctx t x).state = .running) ∧
    (∀ (c x : Nat) (w : W32) (pc : BitVec 13), Issues s c x .j w = true → jumpTarget s x w = some pc →
      Answers (.j c) s fun t => (ctx t x).pc = pc ∧ (ctx t x).r = (ctx s x).r ∧ (ctx t x).state = .running ∧
      Computes s t c x 2) ∧
    (∀ (c x : Nat) (w : W32) (pc : BitVec 13), Issues s c x .call w = true → jumpTarget s x w = some pc →
      (ctx s x).r.rstk.length < 8 → Answers (.call c) s fun t => (ctx t x).pc = pc ∧
      (ctx t x).r.rstk = ((ctx s x).pc + 1) :: (ctx s x).r.rstk ∧ SameG s t x ∧ SameT s t x ∧ SameF s t x ∧
      (ctx t x).state = .running ∧ Computes s t c x 2) ∧
    (∀ (c x : Nat) (w : W32), Issues s c x .loop w = true →
      Answers (.loop c) s fun t => TakesG s t x (fA w) (gOf s x (fA w) - 1) ∧ (gOf s x (fA w) = 1 →
      (ctx t x).pc = (ctx s x).pc + 1 ∧ Computes s t c x 1) ∧ (gOf s x (fA w) ≠ 1 → (ctx t x).pc = targetOf s x w ∧
      Computes s t c x 2) ∧ SameT s t x ∧ SameF s t x ∧ SameR s t x) ∧
    (∀ (c x : Nat) (w : W32) (pc : BitVec 13) (rest : List (BitVec 13)), Issues s c x .ret w = true →
      (ctx s x).r.rstk = pc :: rest → Answers (.ret c) s fun t => (ctx t x).pc = pc ∧ (ctx t x).r.rstk = rest ∧
      SameG s t x ∧ SameT s t x ∧ SameF s t x ∧ Computes s t c x 2) ∧
    (∀ (c x : Nat) (w : W32), Issues s c x .yield w = true →
      Answers (.yield c) s fun t => (ctx t x).pc = (ctx s x).pc + 1 ∧ (ctx t x).cls = 2 ∧ (ctx t x).r = (ctx s x).r ∧
      (ctx t x).state = (if readyOf s c = [] then .running else .ready) ∧ ((readyOf s c).isEmpty = false →
      (cluster t c).run = none) ∧ Computes s t c x 1) ∧
    (∀ (c x : Nat) (w : W32), Issues s c x .halt w = true →
      Answers (.halt c) s fun t => (ctx t x).pc = (ctx s x).pc + 1 ∧ (ctx t x).state = .ended ∧
      (cluster t c).run = none ∧ (ctx t x).r = (ctx s x).r ∧ Computes s t c x 1)

/-- LOCK opens a locked sequence where the budget allows its worst case and keeps the registers to return to; UNLOCK ends it in the second cycle of the lane cycle after and writes Z with the decision of the lanes; BUD reads the budget left; a ready context is switched in for 4 cycles where its budget allows its next instruction; an undefined word faults its context with ILLEGAL_INSTRUCTION. The model's own choices behind it: log entries 3, 4, 28, 35, 47. -/
def Obligations.LocksAndBudget : Prop :=
  ∀ s : State,
    (∀ (c x : Nat) (w : W32), Issues s c x .lock w = true → 1 + 4 * (fld w 0 6 + 1) ≤ left s x →
      Answers (.lock c) s fun t => (ctx t x).l = true ∧
      (cluster t c).lock = some { ctx := x % 64, n := fld w 0 6 + 1, count := 0, pc := (ctx s x).pc, saved := (ctx s x).r } ∧
      (ctx t x).r = (ctx s x).r ∧ GoesOn s t x ∧ Computes s t c x 1) ∧
    (∀ (c x : Nat) (w : W32), Holds s c x = true → wordAt s x = w → mnemonicOf w = .unlock →
      encodingDefined w = true → (ctx s x).l = true → (cluster s c).lock.isSome = true → (ctx s x).stopPend = false →
      (ctx s x).haltPend = false → Quiet s (issueAt s c / 2) = true →
      Answers (.unlock c) s fun t => (ctx t x).l = false ∧ (cluster t c).lock = none ∧
      (flagsNow t x).z = (decideSet c { s with now := 2 * (issueAt s c / 2 + 1) }).1 ∧ SameG s t x ∧ SameT s t x ∧
      GoesOn s t x ∧ (cluster t c).next = 2 * (issueAt s c / 2 + 1) + 2) ∧
    (∀ (c x : Nat) (w : W32), Issues s c x .bud w = true →
      Answers (.bud c) s fun t => TakesG s t x (fA w) (at32 (left s x) 0) ∧ SameT s t x ∧ SameF s t x ∧ SameR s t x ∧
      GoesOn s t x ∧ Computes s t c x 1) ∧
    (∀ (c x : Nat) (w : W32), Holds s c x = true → wordAt s x = w → mnemonicOf w = .reserved → (ctx s x).l = false →
      1 ≤ left s x → quantumOver s x (issueAt s c) = false → switchDue s x (issueAt s c) = false →
      Quiet s (issueAt s c / 2) = true → Answers (.reservedOpcode c) s fun t => (ctx t x).state = .faulted ∧
      (ctx t x).fault = at32 5 24 ||| at32 (ctx s x).pc.toNat 0 ∧ (ctx t x).pc = (ctx s x).pc ∧
      (ctx t x).r = (ctx s x).r ∧ (cluster t c).run = none ∧ left t x = left s x - 1 ∧ CtxsBut [x] s t) ∧
    (∀ (c x : Nat), s.released = true → c < 32 → outOfService s c = false → (cluster s c).run = none →
      pick s c (readyOf s c) = some x → 4 + nextWorst s x ≤ left s x →
      Quiet s (max s.now (cluster s c).next / 2) = true →
      (readyOf s c).all (fun y => !(ctx s y).stopPend && !(ctx s y).haltPend && !(ctx s y).bpPend) = true →
      Answers (.switchIn c) s fun t => (cluster t c).run = some (x % 64) ∧ (ctx t x).state = .running ∧
      left t x = left s x - 4 ∧ (ctx t x).pc = (ctx s x).pc ∧ (ctx t x).r = (ctx s x).r ∧ CtxsBut [x] s t ∧
      ClustersBut [c] s t ∧ t = { s with now := t.now, cx := t.cx, cl := t.cl })

/-- A REQ that keeps the sequencer to its service lane cycle is answered there: PING with the operand, PUBSTAT with the status bits, DIGEST with the first word of the digest, TEMP with the temperature of the cluster, UNGATE waits for its tick, unless TB_CTRL.GATE was written in its lane cycle, or is refused without lock, POST takes the free slot and gives the next ticket, COLLECT gives the reply of its ticket and frees the slot. The model's own choices behind it: log entries 3, 4, 12, 20, 28, 31. -/
def Obligations.RequestInstructions : Prop :=
  ∀ s : State,
    (∀ (c x : Nat) (w : W32), Issues s c x .reqPing w = true →
      interruptAt { s with now := issueAt s c } x (issueAt s c) (2 * serviceLc c (issueAt s c) - (issueAt s c + 8)) (issueAt s c + 8) = none →
      Quiet s (serviceLc c (issueAt s c) + 1) = true →
      Answers (.reqPing c) s fun t => TakesG s t x (fA w) (gOf s x (fB w)) ∧ (flagsNow t x).z = true ∧
      (flagsNow t x).c = false ∧ t = { s with now := t.now, cx := t.cx, cl := t.cl } ∧
      (cluster t c).next = 2 * serviceLc c (issueAt s c) + 4 ∧ SameT s t x ∧ GoesOn s t x ∧ CtxsBut [x] s t ∧
      ClustersBut [c] s t) ∧
    (∀ (c x : Nat) (w : W32), Issues s c x .reqPubstat w = true →
      interruptAt { s with now := issueAt s c } x (issueAt s c) (2 * serviceLc c (issueAt s c) - (issueAt s c + 8)) (issueAt s c + 8) = none →
      Quiet s (serviceLc c (issueAt s c) + 1) = true →
      Answers (.reqPubstat c) s fun t => TakesG s t x (fA w) (at32 (b2n (tsLocked s) + 2 * b2n s.tb.warm + 4 * b2n (!s.fr.running)) 0) ∧
      (flagsNow t x).z = true ∧ (flagsNow t x).c = false ∧ t = { s with now := t.now, cx := t.cx, cl := t.cl } ∧
      (cluster t c).next = 2 * serviceLc c (issueAt s c) + 4 ∧ SameT s t x ∧ GoesOn s t x ∧ CtxsBut [x] s t ∧
      ClustersBut [c] s t) ∧
    (∀ (c x : Nat) (w : W32), Issues s c x .reqDigest w = true →
      interruptAt { s with now := issueAt s c } x (issueAt s c) (2 * serviceLc c (issueAt s c) - (issueAt s c + 8)) (issueAt s c + 8) = none →
      Quiet s (serviceLc c (issueAt s c) + 1) = true →
      Answers (.reqDigest c) s fun t => TakesG s t x (fA w) (digestWord s) ∧ (flagsNow t x).z = true ∧
      (flagsNow t x).c = false ∧ t = { s with now := t.now, cx := t.cx, cl := t.cl } ∧
      (cluster t c).next = 2 * serviceLc c (issueAt s c) + 4 ∧ SameT s t x ∧ GoesOn s t x ∧ CtxsBut [x] s t ∧
      ClustersBut [c] s t) ∧
    (∀ (c x : Nat) (w : W32), Issues s c x .reqTemp w = true →
      interruptAt { s with now := issueAt s c } x (issueAt s c) (2 * serviceLc c (issueAt s c) - (issueAt s c + 8)) (issueAt s c + 8) = none →
      Quiet s (serviceLc c (issueAt s c) + 1) = true → service s (tenantOf s x) 1 = true →
      Answers (.reqTemp c) s fun t => TakesG s t x (fA w) (ofInt32 (cluster s c).temp) ∧ (flagsNow t x).z = true ∧
      (flagsNow t x).c = false ∧ t = { s with now := t.now, cx := t.cx, cl := t.cl } ∧
      (cluster t c).next = 2 * serviceLc c (issueAt s c) + 4 ∧ SameT s t x ∧ GoesOn s t x ∧ CtxsBut [x] s t ∧
      ClustersBut [c] s t) ∧
    (∀ (c x : Nat) (w : W32), Issues s c x .reqUngate w = true →
      interruptAt { s with now := issueAt s c } x (issueAt s c) (2 * serviceLc c (issueAt s c) - (issueAt s c + 8)) (issueAt s c + 8) = none →
      Quiet s (serviceLc c (issueAt s c) + 1) = true → service s (tenantOf s x) 2 = true →
      Answers (.reqUngate c) s fun t => (tsLocked s = true → (flagsNow t x).z = true) ∧ (tsLocked s = true →
      (∀ n, s.tb.gateLc = some n → n < lc s) → t.tb.ungates.length = s.tb.ungates.length + 1) ∧ (tsLocked s = false →
      t.tb = s.tb ∧ (flagsNow t x).z = false ∧ (flagsNow t x).c = false ∧ rbit t .tbEvents 11 = true) ∧
      (cluster t c).next = 2 * serviceLc c (issueAt s c) + 4 ∧ SameT s t x ∧ GoesOn s t x ∧ CtxsBut [x] s t ∧
      ClustersBut [c] s t) ∧
    (∀ (c x : Nat) (w : W32), Issues s c x .reqPost w = true →
      interruptAt { s with now := issueAt s c } x (issueAt s c) (2 * serviceLc c (issueAt s c) - (issueAt s c + 8)) (issueAt s c + 8) = none →
      Quiet s (serviceLc c (issueAt s c) + 1) = true → service s (tenantOf s x) 3 = true →
      Answers (.reqPost c) s fun t => ((ctx s x).post = none →
      (ctx t x).post = some { ticket := (match (ctx s x).ticket with | some n => (n + 1) % 256 | none => 0), message := gOf s x (fB w), reply := none } ∧
      (flagsNow t x).z = true) ∧ ((ctx s x).post ≠ none → (ctx t x).post = (ctx s x).post ∧ (flagsNow t x).z = false ∧
      (flagsNow t x).c = false) ∧ (cluster t c).next = 2 * serviceLc c (issueAt s c) + 4 ∧ SameT s t x ∧
      GoesOn s t x ∧ CtxsBut [x] s t ∧ ClustersBut [c] s t) ∧
    (∀ (c x : Nat) (w : W32) (m v : W32), Issues s c x .reqCollect w = true →
      interruptAt { s with now := issueAt s c } x (issueAt s c) (2 * serviceLc c (issueAt s c) - (issueAt s c + 8)) (issueAt s c + 8) = none →
      Quiet s (serviceLc c (issueAt s c) + 1) = true → service s (tenantOf s x) 3 = true →
      (ctx s x).post = some { ticket := (gOf s x (fB w)).toNat, message := m, reply := some v } →
      Answers (.reqCollect c) s fun t => TakesG s t x (fA w) v ∧ (ctx t x).post = none ∧ (flagsNow t x).z = true ∧
      (flagsNow t x).c = false ∧ (cluster t c).next = 2 * serviceLc c (issueAt s c) + 4 ∧ SameT s t x ∧ GoesOn s t x ∧
      CtxsBut [x] s t ∧ ClustersBut [c] s t)

/-- EMIT and EMITP write the entry of every named lane into its free direct slot; GATE asks for the gate of every named lane at the second lane cycle after it retires; SPLAY starts an idle lane that may play, SPLAY STOP and SJUMP ask a playing lane to stop or to jump two lane cycles later; Z says whether the lane took it. The model's own choices behind it: log entries 3, 4, 28, 33. -/
def Obligations.EdgeInstructions : Prop :=
  ∀ s : State,
    (∀ (c x : Nat) (w : W32), Issues s c x .emit w = true → pulseCheck x w s = none →
      ((lanesNamed s x w).all fun p => (pulse s p.1).direct.isNone) = true →
      interruptAt { s with now := issueAt s c } x (issueAt s c) (emitAt s x w (issueAt s c) + 1 - (issueAt s c + 2)) (issueAt s c + 2) = none →
      Quiet s (emitAt s x w (issueAt s c) / 2) = true → Answers (.emit c) s fun t => (∀ p, p ∈ lanesNamed s x w →
      (pulse t p.1).direct = some (emitAt s x w (issueAt s c) / 2 + 2, entryOf s x w p.2 false false)) ∧
      PulsesBut ((lanesNamed s x w).map (·.1)) s t ∧ (ctx t x).r = (ctx s x).r ∧ GoesOn s t x ∧
      Retires s t c x (emitAt s x w (issueAt s c) + 1 - issueAt s c) ∧
      t = { s with now := t.now, cx := t.cx, cl := t.cl, pl := t.pl }) ∧
    (∀ (c x : Nat) (w : W32), Issues s c x .emitp w = true → pulseCheck x w s = none →
      ((lanesNamed s x w).all fun p => (pulse s p.1).direct.isNone) = true →
      interruptAt { s with now := issueAt s c } x (issueAt s c) (emitAt s x w (issueAt s c) + 1 - (issueAt s c + 2)) (issueAt s c + 2) = none →
      Quiet s (emitAt s x w (issueAt s c) / 2) = true → Answers (.emitp c) s fun t => (∀ p, p ∈ lanesNamed s x w →
      (pulse t p.1).direct = some (emitAt s x w (issueAt s c) / 2 + 2, entryOf s x w p.2 true false)) ∧
      PulsesBut ((lanesNamed s x w).map (·.1)) s t ∧ (ctx t x).r = (ctx s x).r ∧ GoesOn s t x ∧
      Retires s t c x (emitAt s x w (issueAt s c) + 1 - issueAt s c) ∧
      t = { s with now := t.now, cx := t.cx, cl := t.cl, pl := t.pl }) ∧
    (∀ (c x : Nat) (w : W32), Issues s c x .gateOpen w = true → pulseCheck x w s = none → held s c = none →
      Answers (.gateOpen c) s fun t => (∀ p, p ∈ lanesNamed s x w →
      ((retireLc (issueAt s c) 1 + 2) * 16384, true) ∈ (pulse t p.1).gateReqs) ∧
      PulsesBut ((lanesNamed s x w).map (·.1)) s t ∧ (ctx t x).r = (ctx s x).r ∧ GoesOn s t x ∧ Retires s t c x 1 ∧
      t = { s with now := t.now, cx := t.cx, cl := t.cl, pl := t.pl }) ∧
    (∀ (c x : Nat) (w : W32), Issues s c x .gateClose w = true → pulseCheck x w s = none →
      Answers (.gateClose c) s fun t => (∀ p, p ∈ lanesNamed s x w →
      ((retireLc (issueAt s c) 1 + 2) * 16384, false) ∈ (pulse t p.1).gateReqs) ∧
      PulsesBut ((lanesNamed s x w).map (·.1)) s t ∧ (ctx t x).r = (ctx s x).r ∧ GoesOn s t x ∧ Retires s t c x 1 ∧
      t = { s with now := t.now, cx := t.cx, cl := t.cl, pl := t.pl }) ∧
    (∀ (c x : Nat) (w : W32), Issues s c x .splayStart w = true → descCheck x w s = none →
      fld (gOf s x (fGw w)) 6 26 = 0 →
      (playback (boundaryDue (playLane s x w) (issueAt s c / 2) { s with now := issueAt s c }) (playLane s x w)).play = false →
      (playback (boundaryDue (playLane s x w) (issueAt s c / 2) { s with now := issueAt s c }) (playLane s x w)).idleAt ≤ issueAt s c →
      tbGated s (playLane s x w) = false → held s c = none →
      Answers (.splayStart c) s fun t => (playback t (playLane s x w)).play = true ∧
      (playback t (playLane s x w)).desc = fld (gOf s x (fGw w)) 0 6 ∧
      (playback t (playLane s x w)).base = tOf s x (fTd w) ∧ (playback t (playLane s x w)).ctx = x % 64 ∧
      (flagsNow t x).z = true ∧ t.now = issueAt s c + 1 ∧ (∀ k, k ≠ playLane s x w → playback t k = playback s k) ∧
      SameG s t x ∧ SameT s t x ∧ GoesOn s t x ∧ Retires s t c x 2 ∧
      t = { boundaryDue (playLane s x w) (issueAt s c / 2) { s with now := issueAt s c } with now := t.now, cx := t.cx, cl := t.cl, pb := t.pb }) ∧
    (∀ (c x : Nat) (w : W32), Issues s c x .splayStop w = true → pulseCheck x w s = none →
      Answers (.splayStop c) s fun t => (flagsNow t x).z = (playback (boundaryDue (playLane s x w) (issueAt s c / 2) { s with now := issueAt s c }) (playLane s x w)).play ∧
      ((playback (boundaryDue (playLane s x w) (issueAt s c / 2) { s with now := issueAt s c }) (playLane s x w)).play = true →
      (playback (boundaryDue (playLane s x w) (issueAt s c / 2) { s with now := issueAt s c }) (playLane s x w)).stopAt = none →
      (playback t (playLane s x w)).stopAt = some (retireLc (issueAt s c) 2 + 2)) ∧
      ((playback (boundaryDue (playLane s x w) (issueAt s c / 2) { s with now := issueAt s c }) (playLane s x w)).play = false →
      playback t (playLane s x w) = playback (boundaryDue (playLane s x w) (issueAt s c / 2) { s with now := issueAt s c }) (playLane s x w)) ∧
      (∀ k, k ≠ playLane s x w → playback t k = playback s k) ∧ SameG s t x ∧ SameT s t x ∧ GoesOn s t x ∧
      Retires s t c x 2 ∧
      t = { boundaryDue (playLane s x w) (issueAt s c / 2) { s with now := issueAt s c } with now := t.now, cx := t.cx, cl := t.cl, pb := t.pb }) ∧
    (∀ (c x : Nat) (w : W32), Issues s c x .sjump w = true → descCheck x w s = none → fld (gOf s x (fGw w)) 6 26 = 0 →
      Answers (.sjump c) s fun t => (flagsNow t x).z = (playback (boundaryDue (playLane s x w) (issueAt s c / 2) { s with now := issueAt s c }) (playLane s x w)).play ∧
      ((playback (boundaryDue (playLane s x w) (issueAt s c / 2) { s with now := issueAt s c }) (playLane s x w)).play = true →
      (playback t (playLane s x w)).jumpAt = (playback (boundaryDue (playLane s x w) (issueAt s c / 2) { s with now := issueAt s c }) (playLane s x w)).jumpAt ++ [(retireLc (issueAt s c) 2 + 2, fld (gOf s x (fGw w)) 0 6)]) ∧
      ((playback (boundaryDue (playLane s x w) (issueAt s c / 2) { s with now := issueAt s c }) (playLane s x w)).play = false →
      t.pb = (boundaryDue (playLane s x w) (issueAt s c / 2) { s with now := issueAt s c }).pb) ∧
      (∀ k, k ≠ playLane s x w → playback t k = playback s k) ∧ SameG s t x ∧ SameT s t x ∧ GoesOn s t x ∧
      Retires s t c x 2 ∧
      t = { boundaryDue (playLane s x w) (issueAt s c / 2) { s with now := issueAt s c } with now := t.now, cx := t.cx, cl := t.cl, pb := t.pb })

/-- SIG begins the event of its channel where the producer of the cluster is listed there; WAIT waits where no event is pending and takes a pending one otherwise, as POLL does; ARM and DISARM ask for the enable at the second lane cycle after; the timeout of a WAIT wakes its context with Z = 0. The model's own choices behind it: log entries 3, 4, 28, 30. -/
def Obligations.EventInstructions : Prop :=
  ∀ s : State,
    (∀ (c x : Nat) (w : W32), Issues s c x .sig w = true → sigCheck x w s = none →
      Answers (.sig c) s fun t => (producerSilent s 4 c = true → t.ev = s.ev) ∧ (producerSilent s 4 c = false →
      t.ev.signals = (s.ev.signals.filter fun q => issueAt s c / 2 ≤ q.lc) ++ [{ lc := retireLc (issueAt s c) 1 + 1, clusLc := retireLc (issueAt s c) 1 + 2, code := 4 * 256 + c, only := some (channelNo c (fName w)) }]) ∧
      (producerSilent s 4 c = false → (channelsOf s (4 * 256 + c)).contains (channelNo c (fName w)) = false →
      t.ev.asserted = s.ev.asserted) ∧ (producerSilent s 4 c = false →
      (channelsOf s (4 * 256 + c)).contains (channelNo c (fName w)) = true →
      t.ev.asserted = (beginEvent (if channelNo c (fName w) < 256 then retireLc (issueAt s c) 1 + 1 else retireLc (issueAt s c) 1 + 2) (channelNo c (fName w)) s).ev.asserted) ∧
      t.ev = { s.ev with signals := t.ev.signals, asserted := t.ev.asserted } ∧ (ctx t x).r = (ctx s x).r ∧
      GoesOn s t x ∧ Retires s t c x 1 ∧ t = { s with now := t.now, cx := t.cx, cl := t.cl, ev := t.ev }) ∧
    (∀ (c x : Nat) (w : W32), Issues s c x .wait w = true → waitCheck x w s = none →
      (ctx (attach x (fName w) s) x).con.pending = none → Answers (.wait c) s fun t => (ctx t x).state = .waiting ∧
      (ctx t x).wait = some { d := fld w 21 3, ge := fC w, c := (ctx (attach x (fName w) s) x).con.overrun, timeout := (if gOf s x (fB w) = 0 then none else some (retireLc (issueAt s c) 2 + 1 + (gOf s x (fB w)).toNat)) } ∧
      (ctx t x).con = { subject := some (fName w), pending := none, overrun := false } ∧
      (ctx t x).pc = (ctx s x).pc + 1 ∧ (cluster t c).run = none ∧ (ctx t x).r = (ctx s x).r ∧ Computes s t c x 2) ∧
    (∀ (c x : Nat) (w : W32) (e : Delivery), Issues s c x .wait w = true → waitCheck x w s = none →
      (ctx s x).con.subject = some (fName w) → (ctx s x).con.pending = some e →
      Answers (.wait c) s fun t => (ctx t x).state = .running ∧ tOf t x (fld w 21 3) = e.time ∧
      (flagsNow t x).z = true ∧ (ctx t x).con.pending = none ∧ (ctx t x).pc = (ctx s x).pc + 1 ∧ Computes s t c x 2) ∧
    (∀ (c x : Nat) (w : W32), Issues s c x .poll w = true → waitCheck x w s = none →
      Answers (.poll c) s fun t => ((ctx (attach x (fName w) s) x).con.pending = none → (flagsNow t x).z = false ∧
      SameG s t x ∧ SameT s t x) ∧ (∀ e, (ctx (attach x (fName w) s) x).con.pending = some e →
      (flagsNow t x).z = true ∧ tOf t x (fld w 21 3) = e.time) ∧
      (flagsNow t x).c = (ctx (attach x (fName w) s) x).con.overrun ∧
      (ctx t x).con = { subject := some (fName w), pending := none, overrun := false } ∧ GoesOn s t x ∧
      Computes s t c x 2) ∧
    (∀ (c x : Nat) (w : W32), Issues s c x .arm w = true → armCheck x w s = none →
      Answers (.arm c) s fun t => t.ev = { s.ev with reqs := s.ev.reqs ++ [{ due := retireLc (issueAt s c) 1 + 2, obj := objectNo c (fName w), on := true }] } ∧
      (ctx t x).r = (ctx s x).r ∧ GoesOn s t x ∧ Retires s t c x 1 ∧
      t = { s with now := t.now, cx := t.cx, cl := t.cl, ev := t.ev }) ∧
    (∀ (c x : Nat) (w : W32), Issues s c x .disarm w = true → armCheck x w s = none →
      Answers (.disarm c) s fun t => t.ev = { s.ev with reqs := s.ev.reqs ++ [{ due := retireLc (issueAt s c) 1 + 2, obj := objectNo c (fName w), on := false }] } ∧
      (ctx t x).r = (ctx s x).r ∧ GoesOn s t x ∧ Retires s t c x 1 ∧
      t = { s with now := t.now, cx := t.cx, cl := t.cl, ev := t.ev }) ∧
    (∀ (x n : Nat) (k : WaitInfo), s.released = true → x < 2048 → outOfService s (x / 64) = false →
      (ctx s x).state = .waiting → (ctx s x).wait = some k → k.timeout = some n → (ctx s x).stepping = false →
      Quiet s (max (lc s) n) = true → Answers (.waitTimeout x) s fun t => (ctx t x).state = .ready ∧
      (ctx t x).cls = 1 ∧ (flagsNow t x).z = false ∧ (flagsNow t x).c = k.c ∧ (ctx t x).wait = none ∧
      (ctx t x).r.g = (ctx s x).r.g ∧ lc t = max (lc s) n ∧ ((cluster s (x / 64)).run = none → CtxsBut [x] s t) ∧
      (∀ y, y / 64 ≠ x / 64 → ctx t y = ctx s y) ∧ ClustersBut [x / 64] s t ∧
      t = { s with cl := t.cl, cx := t.cx, now := t.now, regs := t.regs, acc := t.acc })

/-- HPOP gives the head of the queue of its lane and removes it, where the queue belongs to the program; HCNT gives its length; THR and BLNK set a value in range as the register write does and report another; BLNK one-shot asks for its interval; MEAS starts and stops the measurement of the lane; MRD reads a word of the result; REC puts a program record into the buffer where it has room, time runs and the stream is open. Z says whether the lane took it. The model's own choices behind it: log entries 3, 4, 28, 32, 39. -/
def Obligations.StampInstructions : Prop :=
  ∀ s : State,
    (∀ (c x : Nat) (w : W32), Issues s c x .hpop w = true → stampCheck laneT x w s = none →
      Answers (.hpop c) s fun t => (cfgBit (stamp s (laneT s x w)) 6 = false →
      (stamp t (laneT s x w)) = stamp s (laneT s x w) ∧ (flagsNow t x).z = true ∧ (flagsNow t x).c = true ∧
      SameT s t x ∧ SameG s t x) ∧ (∀ h rest, cfgBit (stamp s (laneT s x w)) 6 = true →
      (inQueue { s with now := 2 * (issueAt s c / 2 + 1) } (stamp s (laneT s x w))) = h :: rest →
      (stamp t (laneT s x w)).queue = (stamp s (laneT s x w)).queue.tail ∧ tOf t x (fTd w) = h.word ∧
      (fld w 13 5 ≠ 0 → gOf t x (fld w 13 5) = h.frame.setWidth 32) ∧ (flagsNow t x).z = false ∧
      (flagsNow t x).c = false) ∧ (cfgBit (stamp s (laneT s x w)) 6 = true →
      (inQueue { s with now := 2 * (issueAt s c / 2 + 1) } (stamp s (laneT s x w))) = [] → (flagsNow t x).z = true ∧
      (flagsNow t x).c = false ∧ SameT s t x ∧ SameG s t x) ∧ StampsBut [laneT s x w] s t ∧ GoesOn s t x ∧
      Retires s t c x 3 ∧ t = { s with now := t.now, cx := t.cx, cl := t.cl, sl := t.sl }) ∧
    (∀ (c x : Nat) (w : W32), Issues s c x .hcnt w = true → stampCheck laneI x w s = none →
      Answers (.hcnt c) s fun t => TakesG s t x (fA w) (at32 (inQueue { s with now := 2 * (issueAt s c / 2 + 1) } (stamp s (laneI s x w))).length 0) ∧
      (flagsNow t x).z = ((inQueue { s with now := 2 * (issueAt s c / 2 + 1) } (stamp s (laneI s x w))).length == 0) ∧
      SameT s t x ∧ GoesOn s t x ∧ Retires s t c x 2 ∧ t = { s with now := t.now, cx := t.cx, cl := t.cl }) ∧
    (∀ (c x : Nat) (w : W32), Issues s c x .thr w = true → stampCheck laneI x w s = none →
      Answers (.thr c) s fun t => (flagsNow t x).z = (thrInRange (gOf s x (fA w)) && zeros (gOf s x (fA w)) 0x0C00FC00) ∧
      ((thrInRange (gOf s x (fA w)) && zeros (gOf s x (fA w)) 0x0C00FC00) = true →
      reg t (.slThr (laneI s x w)) = gOf s x (fA w) &&& 0xF3FF03FF ∧ (stamp t (laneI s x w)).thrPend.isSome = true) ∧
      ((thrInRange (gOf s x (fA w)) && zeros (gOf s x (fA w)) 0x0C00FC00) = false → t.sl = s.sl ∧
      rbit t (.slEvents (laneI s x w)) 7 = true) ∧ StampsBut [laneI s x w] s t ∧
      RegsBut [regAddr (.slThr (laneI s x w)), regAddr (.slEvents (laneI s x w))] s t ∧ SameG s t x ∧ SameT s t x ∧
      GoesOn s t x ∧ Retires s t c x 2 ∧
      t = { s with now := t.now, cx := t.cx, cl := t.cl, sl := t.sl, regs := t.regs, acc := t.acc }) ∧
    (∀ (c x : Nat) (w : W32), Issues s c x .blnkOne w = true → stampCheck laneI x w s = none →
      Answers (.blnkOneShot c) s fun t => (stamp t (laneI s x w)).oneShotAt = (stamp s (laneI s x w)).oneShotAt ++ [retireLc (issueAt s c) 2 + 2] ∧
      (flagsNow t x).z = true ∧ StampsBut [laneI s x w] s t ∧ SameG s t x ∧ SameT s t x ∧ GoesOn s t x ∧
      Retires s t c x 2 ∧ t = { s with now := t.now, cx := t.cx, cl := t.cl, sl := t.sl }) ∧
    (∀ (c x : Nat) (w : W32), Issues s c x .blnkSet w = true → stampCheck laneI x w s = none →
      Answers (.blnkSet c) s fun t => (flagsNow t x).z = (fld (gOf s x (fA w)) 15 1 == 0 && decide (fld (gOf s x (fA w)) 0 15 ≤ 20479)) ∧
      ((fld (gOf s x (fA w)) 15 1 == 0 && decide (fld (gOf s x (fA w)) 0 15 ≤ 20479)) = true →
      reg t (.slBlnk (laneI s x w)) = gOf s x (fA w)) ∧
      ((fld (gOf s x (fA w)) 15 1 == 0 && decide (fld (gOf s x (fA w)) 0 15 ≤ 20479)) = false →
      reg t (.slBlnk (laneI s x w)) = reg s (.slBlnk (laneI s x w)) ∧ rbit t (.slEvents (laneI s x w)) 7 = true) ∧
      RegsBut [regAddr (.slBlnk (laneI s x w)), regAddr (.slEvents (laneI s x w))] s t ∧ SameG s t x ∧ SameT s t x ∧
      GoesOn s t x ∧ Retires s t c x 2 ∧
      t = { s with now := t.now, cx := t.cx, cl := t.cl, regs := t.regs, acc := t.acc }) ∧
    (∀ (c x : Nat) (w : W32), Issues s c x .measStart w = true → stampCheck laneI x w s = none →
      Answers (.measStart c) s fun t => (flagsNow t x).z = (!rgRefuses s (laneI s x w) && (held s c).isNone && (meas s (laneI s x w)).stopLc != some (issueAt s c / 2)) ∧
      ((!rgRefuses s (laneI s x w) && (held s c).isNone && (meas s (laneI s x w)).stopLc != some (issueAt s c / 2)) = true →
      (meas t (laneI s x w)).state ≠ .idle ∧ (meas t (laneI s x w)).startLc = some (issueAt s c / 2, x)) ∧
      ((!rgRefuses s (laneI s x w) && (held s c).isNone && (meas s (laneI s x w)).stopLc != some (issueAt s c / 2)) = false →
      t.rg = s.rg ∧ rbit t (.rgLevents (laneI s x w)) 2 = true) ∧ MeasBut [laneI s x w] s t ∧ SameG s t x ∧
      SameT s t x ∧ GoesOn s t x ∧ Retires s t c x 2 ∧
      t = { s with now := t.now, cx := t.cx, cl := t.cl, rg := t.rg, regs := t.regs, acc := t.acc }) ∧
    (∀ (c x : Nat) (w : W32), Issues s c x .measStop w = true → stampCheck laneI x w s = none →
      Answers (.measStop c) s fun t => (flagsNow t x).z = true ∧
      meas t (laneI s x w) = meas (rgStop (laneI s x w) s) (laneI s x w) ∧ MeasBut [laneI s x w] s t ∧ SameG s t x ∧
      SameT s t x ∧ GoesOn s t x ∧ Retires s t c x 2 ∧
      t = { s with now := t.now, cx := t.cx, cl := t.cl, rg := t.rg }) ∧
    (∀ (c x : Nat) (w : W32), Issues s c x .mrd w = true → stampCheck laneT x w s = none →
      Answers (.mrd c) s fun t => TakesT s t x (fTd w) ((meas s (laneT s x w)).words.getD (fld w 8 3) 0) ∧
      SameG s t x ∧ SameF s t x ∧ GoesOn s t x ∧ Computes s t c x 3) ∧
    (∀ (c x : Nat) (w : W32), Issues s c x .record w = true → recCheck x w s = none →
      Answers (.recw c) s fun t => (flagsNow t x).z = (decide (recWords s x + (if fSel w == 1 then 2 else 1) ≤ 8) && s.fr.running && streamOn s (recStream s x w) && streamOwner s (recStream s x w) == tenantOf s x) ∧
      ((decide (recWords s x + (if fSel w == 1 then 2 else 1) ≤ 8) && s.fr.running && streamOn s (recStream s x w) && streamOwner s (recStream s x w) == tenantOf s x) = true →
      (ctx t x).recs.length = (ctx s x).recs.length + 1) ∧
      ((decide (recWords s x + (if fSel w == 1 then 2 else 1) ≤ 8) && s.fr.running && streamOn s (recStream s x w) && streamOwner s (recStream s x w) == tenantOf s x) = false →
      (ctx t x).recs = (ctx s x).recs) ∧ SameG s t x ∧ SameT s t x ∧ GoesOn s t x ∧
      Computes s t c x (if fSel w == 1 then 3 else 2))

/-- The engine reads the next entry of the lane whose turn it is into its prefetch buffer; the head of the buffer becomes the pending entry of the lane once it lies within the lookahead; a requested jump is recorded as pending and a requested stop ends the playback, each at its lane cycle; STOP asks for the end two lane cycles later. Every other lane stays as it was. The model's own choices behind it: log entries 3, 4, 38. -/
def Obligations.SegmentPlayback : Prop :=
  ∀ s : State, s.released = true →
    (∀ k : Nat, k < 256 → fetchLane s (pulseCl k) = some k → outOfService s (pulseCl k) = false →
      (engineRead { s with now := max s.now (cluster s (pulseCl k)).sgAt } (pulseCl k) (((playback s k).addr + (playback s k).fetched) % 2048)).2 = false →
      Answers (.segmentFetch k) s fun t => (playback t k).fetched = (playback s k).fetched + 1 ∧
      (playback t k).buf = (playback s k).buf ++ [{ idx := (playback s k).fetched, e := segEntry (engineRead { s with now := max s.now (cluster s (pulseCl k)).sgAt } (pulseCl k) (((playback s k).addr + (playback s k).fetched) % 2048)).1 (playback s k).base (playback s k).ctx, fromLc := lc t + 1 }] ∧
      (cluster t (pulseCl k)).sgLast = k % 16 ∧ (cluster t (pulseCl k)).sgAt = t.now + 1 ∧
      t.now = max s.now (cluster s (pulseCl k)).sgAt ∧ PlaybacksBut [k] s t ∧ ClustersBut [pulseCl k] s t ∧
      t = { s with now := t.now, pb := t.pb, cl := t.cl }) ∧
    (∀ (k m : Nat) (h : SegEntry) (rest : List SegEntry), k < 256 → (playback s k).play = true →
      (playback s k).buf = h :: rest → (pulse s k).seg = none → queuedCount (pulse s k) ≤ 61 →
      presentLc s k (max (lc s) h.fromLc) h.e.time = some m →
      Answers (.segmentPresent k) s fun t => (pulse t k).seg = some (m, h.e) ∧ (playback t k).buf = rest ∧
      lc t = max (lc s) m ∧ PulsesBut [k] s t ∧ PlaybacksBut [k] s t ∧
      t = { s with now := t.now, pl := t.pl, pb := t.pb }) ∧
    (∀ (k n d : Nat) (rest : List (Nat × Nat)), k < 256 → (playback s k).jumpAt = (n, d) :: rest →
      (playback (boundaryDue k (max n (lc s) - 1) { s with now := max s.now (2 * n) }) k).jumpAt = (n, d) :: rest →
      rest.all (fun j => decide (max n (lc s) < j.1)) = true →
      Answers (.jumpRecord k) s fun t => (playback t k).jump = some d ∧ (playback t k).jumpAt = rest ∧
      (playback t k).play = (playback (boundaryDue k (max n (lc s) - 1) { s with now := max s.now (2 * n) }) k).play ∧
      lc t = max (lc s) n ∧ PlaybacksBut [k] s t ∧
      t = { boundaryDue k (max n (lc s) - 1) { s with now := max s.now (2 * n) } with pb := t.pb }) ∧
    (∀ (k n : Nat), k < 256 → (playback s k).play = true → (playback s k).stopAt = some n →
      Answers (.playbackStop k) s fun t => (playback t k).play = false ∧ (playback t k).buf = [] ∧
      (playback t k).jump = none ∧ (playback t k).jumpAt = [] ∧ (playback t k).stopAt = none ∧
      (pulse t k).seg = none ∧ (pulse t k).queue = (pulse s k).queue ∧ ((playback s k).bound = none →
      rbit t (.sgLEvents k) 3 = true ∧ (playback t k).idleAt = 2 * max (lc s) n + 1) ∧ lc t = max (lc s) n ∧
      PulsesBut [k] s t ∧ PlaybacksBut [k] s t ∧ ((playback s k).bound = none → (pulse s k).seg = none →
      RegsBut [regAddr (.sgLEvents k)] s t) ∧
      t = { s with now := t.now, pl := t.pl, pb := t.pb, regs := t.regs, sp := t.sp, fl := t.fl, acc := t.acc }) ∧
    (∀ (who : Who) (k : Nat), k < 256 → LaneRights s who k = true → outOfService s (pulseCl k) = false →
      Answers (.sgStop who k) s fun t => ((playback (boundaryDue k (lc s) s) k).play = true →
      (playback (boundaryDue k (lc s) s) k).stopAt = none → (playback t k).stopAt = some (lc s + 2)) ∧
      ((playback (boundaryDue k (lc s) s) k).play = false → playback t k = playback (boundaryDue k (lc s) s) k) ∧
      (playback t k).play = (playback (boundaryDue k (lc s) s) k).play ∧ t.busStatus = 0 ∧ PlaybacksBut [k] s t ∧
      t = { boundaryDue k (lc s) s with pb := t.pb, busStatus := t.busStatus })

/-- The oldest record on its way joins its stream where its frame is open and the quota has room, and is late where the frame is not open; the oldest closed frame is sealed HOLD lane cycles after its tick and becomes the newest sealed frame of the time now loaded. The model's own choices behind it: log entries 3, 4, 44. -/
def Obligations.SeparatorRecordsAndFrames : Prop :=
  ∀ s : State, s.released = true →
    (∀ (m : Nat) (r : SpRec) (rest : List SpRec), s.sp.inbound = r :: rest → progTrig r = none → removed s r = false →
      r.stream = some m → streamOn s m = true → streamOwner s m = r.tenant →
      (s.sp.frames.any fun f => f.no == r.frame) = true →
      streamUsed s m + r.words.length ≤ 256 * rfld s (.spSQuota m) 0 11 →
      Answers (.separatorRecordIn) s fun t => t.sp.inbound = rest ∧ (stream t m).recs = (stream s m).recs ++ [r] ∧
      (stream t m).loss = (stream s m).loss ∧ StreamsBut [m] s t ∧ t = { s with sp := t.sp }) ∧
    (∀ (m : Nat) (r : SpRec) (rest : List SpRec), s.sp.inbound = r :: rest → progTrig r = none → removed s r = false →
      r.stream = some m → streamOn s m = true → streamOwner s m = r.tenant →
      (s.sp.frames.any fun f => f.no == r.frame) = false →
      Answers (.separatorRecordIn) s fun t => t.sp.inbound = rest ∧ (stream t m).recs = (stream s m).recs ∧
      (stream t m).loss = min (2 ^ 32 - 1) ((stream s m).loss + 1) ∧ rbit t .spEvents 0 = true ∧ StreamsBut [m] s t ∧
      t = { s with sp := t.sp, regs := t.regs, fl := t.fl, acc := t.acc }) ∧
    (∀ (f : OpenFrame) (rest : List OpenFrame) (n : Nat), s.sp.frames = f :: rest → f.closed = some n →
      Answers (.frameSeal) s fun t => t.sp.frames = rest ∧ (f.gen = s.sp.gen → t.sp.sealedTo = some f.frame ∧
      t.sp.sealedEnd = f.stop) ∧ (f.gen ≠ s.sp.gen → t.sp.sealedTo = s.sp.sealedTo ∧
      t.sp.sealedEnd = s.sp.sealedEnd) ∧ t.sp.lateTrig = [] ∧ t.sp.trigLoss = false ∧ t.sp.upBad = false ∧
      (isTail s = false → t.sp.ends = s.sp.ends ++ [(f.no, f.frame)]) ∧ lc t = max (lc s) (n + rfld s .spCfg 16 16) ∧
      t = { s with sp := t.sp, regs := t.regs, fl := t.fl, now := t.now, acc := t.acc })

/-- A port sends the rest of an item cut by a pause first, then on P3 downstream a frame-end word that may leave, and otherwise the packet at the head of the stream that the round-robin serves; a frame-end word from upstream advances the newest frame it names, a packet that goes on is kept for its next part, a malformed frame is counted; the end of the wait for an upstream part is reported; CH_XOFF_IN stops sending on P3 of a device that is not the tail. The model's own choices behind it: log entries 3, 4, 14, 15, 44, 49. -/
def Obligations.SeparatorPorts : Prop :=
  ∀ s : State, s.released = true →
    (∀ (p e : Nat) (w : Sending), p = 0 ∨ p = 1 ∨ p = 3 → maySend s p = true → (port s p).rest ≠ [] →
      (port s p).sending = some (w, e) → Answers (.packetSend p) s fun t => (port t p).tx = (port s p).rest ∧
      (port t p).rest = [] ∧ (port t p).sending = some (w, startLc s p + 2 * (port s p).rest.length) ∧
      (port t p).lseqTx = ((port s p).lseqTx + 1) % 2 ^ 24 ∧ lc t = startLc s p ∧ PortsBut [p] s t ∧
      t = { s with now := t.now, pt := t.pt }) ∧
    (∀ (p m n a : Nat) (as : List Nat) (q : Packet) (rest : List Packet), p = 0 ∨ p = 1 ∨ p = 3 → maySend s p = true →
      (port s p).rest = [] → (p = 3 → endReady s = none) →
      ((heldStreams s).filter fun j => portOf s j == p).filterMap (headLc s) = a :: as →
      n = slotFrom p (max (startLc s p) (as.foldl min a)) →
      (drr (65536 * ((readyStreams (toLc n (xoffs s)) p n).length + 1)) (readyStreams (toLc n (xoffs s)) p n) (readyStreams (toLc n (xoffs s)) p n) (toLc n (xoffs s))).1 = some m →
      (stream s m).replays = [] → (stream s m).queue = q :: rest → q.hb = false →
      ((tenantNos s).all fun u => (tenant s u).leaving.isNone) = true →
      Answers (.packetSend p) s fun t => (port t p).sending = some (.packet m q.frame, n + 2 * (sealWords s m q.key (bodyWords s q)).length) ∧
      (port t p).tx = sealWords s m q.key (bodyWords s q) ∧ (port t p).lseqTx = ((port s p).lseqTx + 1) % 2 ^ 24 ∧
      (stream t m).queue = rest ∧ (stream t m).lastSent = some (q.gen, q.frame) ∧ tget 0 p t.sp.last = m ∧
      lc t = max (lc s) n ∧ PortsBut [p] s t ∧ t = { s with now := t.now, pt := t.pt, sp := t.sp }) ∧
    (∀ (k : Nat), maySend s 3 = true → (port s 3).rest = [] → endReady s = some k →
      Answers (.packetSend 3) s fun t => (port t 3).tx = [frameEndWord s k] ∧
      (port t 3).sending = some (.item, startLc s 3 + 2) ∧ (port t 3).lseqTx = ((port s 3).lseqTx + 1) % 2 ^ 24 ∧
      t.sp.ends = s.sp.ends.drop 1 ∧ lc t = startLc s 3 ∧ PortsBut [3] s t ∧
      t = { s with now := t.now, pt := t.pt, sp := t.sp }) ∧
    (∀ (f : LinkFrame) (w : W64), chainPos s ≠ 0 → (port s 3).up = true → linkOk 3 f = true → f.kind = 3 →
      f.flags = 0 → (port s 3).part = none → f.body = [w] → fld w 56 8 = 0xFC →
      Answers (.upstreamPacket f) s fun t => t.sp.upEnd = laterOf s.sp.upEnd (genOf s (fld w 0 48), fld w 0 48) ∧
      (port t 3).part = none ∧ (port t 3).lseqRx = (f.lseq + 1) % 2 ^ 24 ∧ PortsBut [3] s t ∧
      t = { s with pt := t.pt, sp := t.sp, regs := t.regs, fl := t.fl, acc := t.acc }) ∧
    (∀ f : LinkFrame, chainPos s ≠ 0 → (port s 3).up = true → linkOk 3 f = true → f.kind = 3 → f.flags = 1 →
      (port s 3).part = none → Answers (.upstreamPacket f) s fun t => (port t 3).part = some f.body ∧
      (port t 3).lseqRx = (f.lseq + 1) % 2 ^ 24 ∧ t.sp = s.sp ∧ PortsBut [3] s t ∧
      t = { s with pt := t.pt, regs := t.regs, fl := t.fl, acc := t.acc }) ∧
    (∀ f : LinkFrame, chainPos s ≠ 0 → (port s 3).up = true → linkOk 3 f = false →
      Answers (.upstreamPacket f) s fun t => (port t 3).part = none ∧ rbit t (.ptEvents 3) 5 = true ∧ t.sp = s.sp ∧
      PortsBut [3] s t ∧ t = { s with pt := t.pt, regs := t.regs, fl := t.fl, acc := t.acc }) ∧
    ((((heldStreams s).flatMap fun m => (stream s m).queue.filter fun q => !q.rdy) ≠ []) →
      Answers (.upstreamWaitTimeout) s fun t => rbit t .spEvents 3 = true ∧
      t.sp.missed.length = s.sp.missed.length + 1 ∧ t.sp.frames = s.sp.frames ∧
      t = { s with now := t.now, sp := t.sp, regs := t.regs, fl := t.fl, acc := t.acc }) ∧
    (∀ level : Bool, Answers (.chXoffIn level) s fun t => t.sp.xoffIn = level ∧ (isTail s = true →
      t = { s with sp := { s.sp with xoffIn := level, sendStop := false } }) ∧ (isTail s = false →
      t.sp.sendStop = level) ∧ t.sp.streams = s.sp.streams ∧ PortsBut [3] s t ∧ t = { s with sp := t.sp, pt := t.pt })

/-- The oldest event under way on a channel is taken in the lane cycle in which it begins: it is counted as passed where the channel is enabled and counted as dropped otherwise, and a passed Milkline event asks for the enables of its groups; requests of enables take effect at their lane cycle, where one for an object disables it if any of them does. The model's own choices behind it: log entries 3, 4, 42. -/
def Obligations.EventChannels : Prop :=
  ∀ s : State, s.released = true →
    (∀ (c n : Nat) (p : Nat × Nat), c < 32 → n < 32 → s.ev.asserted.find? (·.2 == (256 + 32 * c + n)) = some p →
      passes s (256 + 32 * c + n) = true → s.ev.reqs = [] → s.ev.pendW = [] → s.fl.clears = [] → s.fl.cleared = [] →
      Answers (.clusterChannelEvent c n) s fun t => reg t (passReg (256 + 32 * c + n)) = reg s (passReg (256 + 32 * c + n)) + 1 ∧
      t.ev.asserted = s.ev.asserted.erase p ∧ tget 0 (256 + 32 * c + n) t.ev.lastEv = p.1 + 1 ∧ t.sp = s.sp ∧
      t.tn = s.tn ∧ t.jr = s.jr ∧ t.byre = s.byre) ∧
    (∀ (c n : Nat) (p : Nat × Nat), c < 32 → n < 32 → s.ev.asserted.find? (·.2 == (256 + 32 * c + n)) = some p →
      passes s (256 + 32 * c + n) = false → s.ev.reqs = [] → s.ev.pendW = [] → s.fl.clears = [] → s.fl.cleared = [] →
      Answers (.clusterChannelEvent c n) s fun t => reg t (dropReg (256 + 32 * c + n)) = reg s (dropReg (256 + 32 * c + n)) + 1 ∧
      t.ev.asserted = s.ev.asserted.erase p ∧ tget 0 (256 + 32 * c + n) t.ev.lastEv = p.1 + 1 ∧
      t = { s with now := t.now, regs := t.regs, fl := t.fl, ev := t.ev, acc := t.acc } ∧ lc t = max (lc s) p.1) ∧
    (∀ (n delay : Nat) (p : Nat × Nat), n < 248 → delay ≤ 61440 → s.ev.asserted.find? (·.2 == n) = some p →
      passes s n = true → s.ev.reqs = [] → s.ev.pendW = [] → s.fl.clears = [] → s.fl.cleared = [] →
      Answers (.milklineEvent n delay) s fun t => reg t (passReg n) = reg s (passReg n) + 1 ∧
      tget 0 n t.ev.lastEv = p.1 + 1 ∧
      ((groupsOn s 16 n).all fun g => t.ev.reqs.contains { due := (p.1 * 16384 + delay) / 16384 + 2, obj := 2048 + g, on := true }) = true ∧
      ((groupsOn s 0 n).all fun g => t.ev.reqs.contains { due := (p.1 * 16384 + delay) / 16384 + 2, obj := 2048 + g, on := false }) = true ∧
      t.tn = s.tn ∧ t.jr = s.jr) ∧
    (∀ (n delay : Nat) (p : Nat × Nat), n < 248 → delay ≤ 61440 → s.ev.asserted.find? (·.2 == n) = some p →
      passes s n = false → s.ev.reqs = [] → s.ev.pendW = [] → s.fl.clears = [] → s.fl.cleared = [] →
      Answers (.milklineEvent n delay) s fun t => reg t (dropReg n) = reg s (dropReg n) + 1 ∧
      tget 0 n t.ev.lastEv = p.1 + 1 ∧
      t = { s with now := t.now, regs := t.regs, fl := t.fl, ev := t.ev, acc := t.acc } ∧ lc t = max (lc s) p.1) ∧
    (∀ r : EnReq, r ∈ s.ev.reqs →
      (s.ev.reqs.all fun q => decide (r.due ≤ q.due) && (decide (q.obj < 1280) || decide (2048 ≤ q.obj) && decide (q.obj < 2112))) = true →
      Answers (.enableChange) s fun t => rbit t (enReg r.obj) 31 = ((s.ev.reqs.filter (·.due == r.due)).all fun q => q.obj != r.obj || q.on) ∧
      t.ev = { s.ev with reqs := s.ev.reqs.filter (·.due != r.due) } ∧ lc t = max (lc s) r.due ∧
      t = { s with now := t.now, regs := t.regs, ev := t.ev, acc := t.acc })

/-- With the right to write it: the EN of a channel or a group asks for that enable two lane cycles later; a source of a lane consumer acts two lane cycles later where its names are known, and is refused otherwise; the source of the conversion consumer, which only the steward writes, becomes a journal record. Without the right the write is refused and changes nothing. The model's own choices behind it: log entries 3, 4, 42, 43. -/
def Obligations.EventWrites : Prop :=
  ∀ s : State, s.released = true →
    (∀ (who : Who) (obj : Nat) (v : W32), obj < 1280 → obj < 248 ∨ 256 ≤ obj →
      (match clusterAt (regAddr (ctlOf obj)) with | some c => outOfService s c | none => false) = false →
      writerActive s who.tenant = true → mayWrite s who.tenant (ctlOf obj) v = true → (who.tenant = 0 →
      (v &&& stewardPart (ctlOf obj)) = (reg (committed s) (ctlOf obj) &&& stewardPart (ctlOf obj))) →
      Answers (.channelCtlWrite who obj v) s fun t => t = { s with ev := { s.ev with reqs := s.ev.reqs ++ [{ due := lc s + 2, obj := obj, on := bitAt v 31 }] }, busStatus := 0 }) ∧
    (∀ (who : Who) (obj : Nat) (v : W32), obj < 1280 → mayWrite s who.tenant (ctlOf obj) v = false →
      Answers (.channelCtlWrite who obj v) s fun t => t = { s with busStatus := 0x04 }) ∧
    (∀ (who : Who) (g : Nat) (v : W32), g < 64 → writerActive s who.tenant = true →
      mayWrite s who.tenant (.evGrpCfg g) v = true → (who.tenant = 0 →
      (v &&& stewardPart (.evGrpCfg g)) = (reg (committed s) (.evGrpCfg g) &&& stewardPart (.evGrpCfg g))) →
      Answers (.groupCfgWrite who g v) s fun t => t = { s with ev := { s.ev with reqs := s.ev.reqs ++ [{ due := lc s + 2, obj := 2048 + g, on := bitAt v 31 }] }, busStatus := 0 }) ∧
    (∀ (who : Who) (c n : Nat) (v : W32), c < 32 → n < 16 → outOfService s c = false →
      writerActive s who.tenant = true → mayWrite s who.tenant (.clLev c n) v = true →
      Answers (.clLevWrite who c n v) s fun t => (nameKnown (fld v 31 1) (fld v 16 10) && nameKnown (fld v 15 1) (fld v 0 10) = true →
      t = { s with ev := { s.ev with pendW := s.ev.pendW ++ [(lc s + 2, regAddr (.clLev c n), v &&& (if c < 16 then 0x83FF83FF else 0xC3FFC3FF))] }, busStatus := 0 }) ∧
      (nameKnown (fld v 31 1) (fld v 16 10) && nameKnown (fld v 15 1) (fld v 0 10) = false →
      rbit t (.clEvstat c) 0 = true ∧ RegsBut [regAddr (.clEvstat c)] s t ∧
      t = { s with regs := t.regs, acc := t.acc, busStatus := 0x04 })) ∧
    (∀ (who : Who) (v : W32), who.tenant = 0 → regBad (committed s) 0 .evAdcSel v = false →
      journalRefused s 0 none 1 = none → Answers (.evAdcSelWrite who v) s fun t => t.busStatus = 0 ∧
      t.jr = { s.jr with nextId := s.jr.nextId + 1, cmdQ := s.jr.cmdQ ++ [{ id := s.jr.nextId, type := 0x01, tenant := 0, sched := none, payload := regPayload (regAddr .evAdcSel) v, replay := false }] } ∧
      reg t .evAdcSel = reg s .evAdcSel ∧ t = { s with jr := t.jr, busStatus := t.busStatus }) ∧
    (∀ (who : Who) (v : W32), who.tenant ≠ 0 →
      Answers (.evAdcSelWrite who v) s fun t => t = { s with busStatus := 0x04 }) ∧
    (∀ (who : Who) (c n : Nat) (v : W32), c < 32 → n < 16 → mayWrite s who.tenant (.clLev c n) v = false →
      Answers (.clLevWrite who c n v) s fun t => t = { s with busStatus := 0x04 }) ∧
    (∀ (who : Who) (g : Nat) (v : W32), g < 64 → mayWrite s who.tenant (.evGrpCfg g) v = false →
      Answers (.groupCfgWrite who g v) s fun t => t = { s with busStatus := 0x04 })

/-- LB_STATUS, and a command of an opcode that is not defined: one whose tag is wrong is answered with AUTH_FAIL and counted, for the device and for the tenant it names; one whose counter is not above LAST is answered with REPLAY, LAST and what is kept of the command accepted with it, and counted so; both leave LAST, the keys and everything outside the tenant unit, the registers, the records of the Separator and the path as it was. One whose counter is above the reservation waits for the key-area write that raises it. A command of an opcode that is not defined that reaches step 6 is answered with CAPABILITY_DENIED where its tenant is suspended and with ILLEGAL_INSTRUCTION otherwise, and leaves everything outside the tenant unit and the path as it was. The model's own choices behind it: log entries 3, 4, 14, 46, 48, 49. -/
def Obligations.CommandVerification : Prop :=
  ∀ s : State, s.released = true →
    (∀ f : CmdFrame, canVerify s = true → PathFree s f.path = true → wellFormed f.words = true → cOp f.words = 0x46 →
      authentic s f.words = false → Answers (.lbStatus f) s fun t => Responds s t f 0x0F [] ∧
      rbit t .tnEvents 0 = true ∧ (tenant t (cTenant f.words)).afail = (tenant s (cTenant f.words)).afail + 1 ∧
      (s.tn.failLog.length < 16 → t.tn.failLog.length = s.tn.failLog.length + 1) ∧
      (tenant t (cTenant f.words)).last = (tenant s (cTenant f.words)).last ∧ t.tn.keys = s.tn.keys ∧
      t.tn.jobs = s.tn.jobs ∧ TenantsBut [cTenant f.words] s t ∧
      t = { s with now := t.now, regs := t.regs, sp := t.sp, tn := t.tn, pt := t.pt, mspi := t.mspi, acc := t.acc }) ∧
    (∀ f : CmdFrame, canVerify s = true → PathFree s f.path = true → wellFormed f.words = true → cOp f.words = 0x46 →
      authentic s f.words = true → cCounter f.words ≤ (tenant s (cTenant f.words)).last →
      Answers (.lbStatus f) s fun t => RespondsWith s t f (tenant s (cTenant f.words)).last 0x10 [BitVec.ofNat 64 (keptStatus s f)] ∧
      rbit t .tnEvents 1 = true ∧ (tenant t (cTenant f.words)).replays = (tenant s (cTenant f.words)).replays + 1 ∧
      (tenant t (cTenant f.words)).last = (tenant s (cTenant f.words)).last ∧ t.tn.keys = s.tn.keys ∧
      t.tn.jobs = s.tn.jobs ∧ TenantsBut [cTenant f.words] s t ∧
      t = { s with now := t.now, regs := t.regs, sp := t.sp, tn := t.tn, pt := t.pt, mspi := t.mspi, acc := t.acc }) ∧
    (∀ f : CmdFrame, canVerify s = true → PathFree s f.path = true → wellFormed f.words = true → cOp f.words = 0x46 →
      authentic s f.words = true → (tenant s (cTenant f.words)).last < cCounter f.words →
      (keyOf s (cTenant f.words)).resv < cCounter f.words →
      Answers (.lbStatus f) s fun t => runOf t f.path = some { words := f.words, waits := [], keyWait := true, acted := false, status := 0, payload := [] } ∧
      t.tn.jobs = s.tn.jobs ++ [{ write := .resv (cTenant f.words) (reservation (cCounter f.words)), due := max (lc (taking s f)) (lmax (s.tn.jobs.map (·.due))) + 40, path := some f.path }] ∧
      (tenant t (cTenant f.words)).last = cCounter f.words ∧ t.tn.keys = s.tn.keys ∧
      TenantsBut [cTenant f.words] s t ∧ t = { s with now := t.now, tn := t.tn, pt := t.pt, mspi := t.mspi }) ∧
    (∀ f : CmdFrame, canVerify s = true → PathFree s f.path = true → wellFormed f.words = true →
      opDefined (cOp f.words) = false → authentic s f.words = false →
      Answers (.undefinedCommand f) s fun t => Responds s t f 0x0F [] ∧ rbit t .tnEvents 0 = true ∧
      (tenant t (cTenant f.words)).afail = (tenant s (cTenant f.words)).afail + 1 ∧ (s.tn.failLog.length < 16 →
      t.tn.failLog.length = s.tn.failLog.length + 1) ∧
      (tenant t (cTenant f.words)).last = (tenant s (cTenant f.words)).last ∧ t.tn.keys = s.tn.keys ∧
      t.tn.jobs = s.tn.jobs ∧ TenantsBut [cTenant f.words] s t ∧
      t = { s with now := t.now, regs := t.regs, sp := t.sp, tn := t.tn, pt := t.pt, mspi := t.mspi, acc := t.acc }) ∧
    (∀ f : CmdFrame, canVerify s = true → PathFree s f.path = true → wellFormed f.words = true →
      opDefined (cOp f.words) = false → authentic s f.words = true →
      cCounter f.words ≤ (tenant s (cTenant f.words)).last →
      Answers (.undefinedCommand f) s fun t => RespondsWith s t f (tenant s (cTenant f.words)).last 0x10 [BitVec.ofNat 64 (keptStatus s f)] ∧
      rbit t .tnEvents 1 = true ∧ (tenant t (cTenant f.words)).replays = (tenant s (cTenant f.words)).replays + 1 ∧
      (tenant t (cTenant f.words)).last = (tenant s (cTenant f.words)).last ∧ t.tn.keys = s.tn.keys ∧
      t.tn.jobs = s.tn.jobs ∧ TenantsBut [cTenant f.words] s t ∧
      t = { s with now := t.now, regs := t.regs, sp := t.sp, tn := t.tn, pt := t.pt, mspi := t.mspi, acc := t.acc }) ∧
    (∀ f : CmdFrame, canVerify s = true → PathFree s f.path = true → wellFormed f.words = true →
      opDefined (cOp f.words) = false → authentic s f.words = true →
      (tenant s (cTenant f.words)).last < cCounter f.words → (keyOf s (cTenant f.words)).resv < cCounter f.words →
      Answers (.undefinedCommand f) s fun t => runOf t f.path = some { words := f.words, waits := [], keyWait := true, acted := false, status := 0, payload := [] } ∧
      t.tn.jobs = s.tn.jobs ++ [{ write := .resv (cTenant f.words) (reservation (cCounter f.words)), due := max (lc (taking s f)) (lmax (s.tn.jobs.map (·.due))) + 40, path := some f.path }] ∧
      (tenant t (cTenant f.words)).last = cCounter f.words ∧ t.tn.keys = s.tn.keys ∧
      TenantsBut [cTenant f.words] s t ∧ t = { s with now := t.now, tn := t.tn, pt := t.pt, mspi := t.mspi }) ∧
    (∀ f : CmdFrame, wellFormed f.words = true → Reaches s f (cOp f.words) = true → authentic s f.words = true →
      opDefined (cOp f.words) = false → cTenant f.words = 0 ∨ (tenant s (cTenant f.words)).state ≠ .suspended →
      Answers (.undefinedCommand f) s fun t => Responds s t f 0x05 [] ∧
      (tenant t (cTenant f.words)).last = cCounter f.words ∧ t.tn.keys = s.tn.keys ∧ t.tn.jobs = s.tn.jobs ∧
      TenantsBut [cTenant f.words] s t ∧ t = { s with now := t.now, tn := t.tn, pt := t.pt, mspi := t.mspi }) ∧
    (∀ f : CmdFrame, wellFormed f.words = true → Reaches s f (cOp f.words) = true → authentic s f.words = true →
      opDefined (cOp f.words) = false → cTenant f.words ≠ 0 → (tenant s (cTenant f.words)).state = .suspended →
      Answers (.undefinedCommand f) s fun t => Responds s t f 0x04 [] ∧
      (tenant t (cTenant f.words)).last = cCounter f.words ∧ t.tn.keys = s.tn.keys ∧ t.tn.jobs = s.tn.jobs ∧
      TenantsBut [cTenant f.words] s t ∧ t = { s with now := t.now, tn := t.tn, pt := t.pt, mspi := t.mspi })

/-- REG_READ answers with the registers read, REG_WRITE with the number of entries applied, REPLAY queues the packet of the window that it names or answers NOT_FOUND, REQ_REPLY gives its reply to the post that waits under its ticket, UNGATE is accepted while the TS is locked and waits, unless TB_CTRL.GATE was written in the same lane cycle, which cancels it, DIGEST_GET answers with the digest in force and its frame. The model's own choices behind it: log entries 3, 4, 7, 14, 20, 49, 51, 72. -/
def Obligations.AccessCommands : Prop :=
  ∀ s : State, s.released = true →
    (∀ f : CmdFrame, wellFormed f.words = true → Reaches s f 0x01 = true → authentic s f.words = true →
      Permits (taking s f) f 0x01 = true → fld (pw (cPayload f.words) 0) 0 32 % 4 = 0 →
      Answers (.regRead f) s fun t => Responds s t f 0 (pairUp (busReads { path := f.path, tenant := cTenant f.words } (fld (pw (cPayload f.words) 0) 32 16) (fld (pw (cPayload f.words) 0) 0 32) (taking s f)).1) ∧
      (tenant t (cTenant f.words)).last = cCounter f.words) ∧
    (∀ (f : CmdFrame) (e : W64), wellFormed f.words = true → Reaches s f 0x02 = true → authentic s f.words = true →
      Permits (taking s f) f 0x02 = true → cPayload f.words = [e] →
      (regWrite { path := f.path, tenant := cTenant f.words } (cSchedFrame f.words) (fld e 32 32) (lo32 e) (taking s f)).1 = 0 →
      (regWrite { path := f.path, tenant := cTenant f.words } (cSchedFrame f.words) (fld e 32 32) (lo32 e) (taking s f)).2.1 = [] →
      f.path = .mspi → Answers (.regWrite f) s fun t => Responds s t f 0 [1] ∧
      t.regs = (regWrite { path := f.path, tenant := cTenant f.words } (cSchedFrame f.words) (fld e 32 32) (lo32 e) (taking s f)).2.2.regs) ∧
    (∀ (f : CmdFrame) (e : W64), wellFormed f.words = true → Reaches s f 0x02 = true → authentic s f.words = true →
      Permits (taking s f) f 0x02 = true → cPayload f.words = [e] →
      (regWrite { path := f.path, tenant := cTenant f.words } (cSchedFrame f.words) (fld e 32 32) (lo32 e) (taking s f)).1 ≠ 0 →
      f.path = .mspi →
      Answers (.regWrite f) s fun t => Responds s t f (regWrite { path := f.path, tenant := cTenant f.words } (cSchedFrame f.words) (fld e 32 32) (lo32 e) (taking s f)).1 [0]) ∧
    (∀ (f : CmdFrame) (m : Nat) (x : Sent), wellFormed f.words = true → Reaches s f 0x04 = true →
      authentic s f.words = true → Permits (taking s f) f 0x04 = true → m = fld (pw (cPayload f.words) 0) 48 10 →
      ((stream s m).window.find? fun y => y.frame == fld (pw (cPayload f.words) 0) 0 48) = some x →
      Answers (.replay f) s fun t => Responds s t f 0 [] ∧
      (stream t m).replays = (stream s m).replays ++ [replayed (taking s f) m x] ∧
      (stream t m).window = (stream s m).window ∧ StreamsBut [m] s t ∧
      (tenant t (cTenant f.words)).last = cCounter f.words ∧ t.jr = s.jr) ∧
    (∀ f : CmdFrame, wellFormed f.words = true → Reaches s f 0x04 = true → authentic s f.words = true →
      Permits (taking s f) f 0x04 = true →
      ((stream s (fld (pw (cPayload f.words) 0) 48 10)).window.find? fun y => y.frame == fld (pw (cPayload f.words) 0) 0 48) = none →
      Answers (.replay f) s fun t => Responds s t f 0x16 [] ∧ rbit t .spEvents 8 = true ∧ t.sp = s.sp ∧
      (tenant t (cTenant f.words)).last = cCounter f.words) ∧
    (∀ (f : CmdFrame) (q : Post), wellFormed f.words = true → Reaches s f 0x05 = true → authentic s f.words = true →
      Permits (taking s f) f 0x05 = true → (ctx s (pCtx (cPayload f.words))).post = some q →
      Answers (.reqReply f) s fun t => Responds s t f 0 [] ∧
      (ctx t (pCtx (cPayload f.words))).post = (if q.ticket = fld (pw (cPayload f.words) 0) 40 8 ∧
      q.reply = none then some { q with reply := some (lo32 (pw (cPayload f.words) 0)) } else some q) ∧
      CtxsBut [pCtx (cPayload f.words)] s t ∧ (tenant t (cTenant f.words)).last = cCounter f.words) ∧
    (∀ f : CmdFrame, wellFormed f.words = true → Reaches s f 0x03 = true → authentic s f.words = true →
      Permits (taking s f) f 0x03 = true → Answers (.ungate (.command f)) s fun t => (tsLocked s = true →
      Responds s t f 0 []) ∧ (tsLocked s = true → s.tb.gateLc ≠ some (lc (taking s f)) →
      t.tb.ungates.length = s.tb.ungates.length + 1) ∧ (tsLocked s = true → s.tb.gateLc = some (lc (taking s f)) →
      rbit t .tbEvents 11 = true ∧ t.tb = s.tb) ∧ (tsLocked s = false → Responds s t f 0x0A [] ∧
      rbit t .tbEvents 11 = true ∧ t.tb = s.tb) ∧ (tenant t (cTenant f.words)).last = cCounter f.words) ∧
    (∀ who : Who, TbRights s who = true → who.tenant ≠ 0 → service s who.tenant 2 = true →
      Answers (.ungate (.register who)) s fun t => (tsLocked s = true → s.tb.gateLc ≠ some (lc s) →
      t.tb.ungates.length = s.tb.ungates.length + 1) ∧ (tsLocked s = true → s.tb.gateLc = some (lc s) →
      rbit t .tbEvents 11 = true ∧ t.tb.ungates = s.tb.ungates) ∧ (tsLocked s = false → rbit t .tbEvents 11 = true ∧
      t.tb.ungates = s.tb.ungates) ∧ t.cx = s.cx ∧ t.pl = s.pl) ∧
    (∀ f : CmdFrame, wellFormed f.words = true → Reaches s f 0x30 = true → authentic s f.words = true →
      Permits (taking s f) f 0x30 = true →
      Answers (.digestGet f) s fun t => Responds s t f 0 (pairUp s.jr.digest.value ++ [at64 s.jr.digest.frame 0]) ∧
      t.jr = s.jr ∧ (tenant t (cTenant f.words)).last = cCounter f.words)

/-- A PERIOD, CTX_ALLOC, CODE_WRITE, DATA_WRITE, CTX_ENTRY, CAP_SET, TEN_SUSPEND, TEN_RESUME or TEN_REMOVE that passes its own checks and those of the store becomes a record with its payload, and its response waits for the record; one that fails its own checks is answered with the code and becomes no record. The model's own choices behind it: log entries 3, 4, 49. -/
def Obligations.JournaledCommands : Prop :=
  ∀ s : State, s.released = true →
    (∀ f : CmdFrame, wellFormed f.words = true → Reaches s f 0x06 = true → authentic s f.words = true →
      Permits (taking s f) f 0x06 = true → stepEight 0x06 (cTenant f.words) (cPayload f.words) (taking s f) = none →
      journalRefused (taking s f) (cTenant f.words) (cSchedFrame f.words) (cPayload f.words).length = none →
      Answers (.period f) s fun t => Records s t f 0x06 (cTenant f.words) (cPayload f.words) ∧
      (tenant t (cTenant f.words)).last = cCounter f.words ∧ t.cx = s.cx ∧ t.cl = s.cl ∧ t.regs = s.regs) ∧
    (∀ f : CmdFrame, wellFormed f.words = true → Reaches s f 0x10 = true → authentic s f.words = true →
      Permits (taking s f) f 0x10 = true → stepEight 0x10 (cTenant f.words) (cPayload f.words) (taking s f) = none →
      journalRefused (taking s f) (cTenant f.words) (cSchedFrame f.words) (cPayload f.words).length = none →
      Answers (.ctxAlloc f) s fun t => Records s t f 0x10 (cTenant f.words) (cPayload f.words) ∧
      (tenant t (cTenant f.words)).last = cCounter f.words ∧ t.cx = s.cx ∧ t.cl = s.cl ∧ t.regs = s.regs) ∧
    (∀ f : CmdFrame, wellFormed f.words = true → Reaches s f 0x11 = true → authentic s f.words = true →
      Permits (taking s f) f 0x11 = true → stepEight 0x11 (cTenant f.words) (cPayload f.words) (taking s f) = none →
      journalRefused (taking s f) (cTenant f.words) (cSchedFrame f.words) (cPayload f.words).length = none →
      Answers (.codeWrite f) s fun t => Records s t f 0x11 (cTenant f.words) (cPayload f.words) ∧
      (tenant t (cTenant f.words)).last = cCounter f.words ∧ t.cx = s.cx ∧ t.cl = s.cl ∧ t.regs = s.regs) ∧
    (∀ f : CmdFrame, wellFormed f.words = true → Reaches s f 0x12 = true → authentic s f.words = true →
      Permits (taking s f) f 0x12 = true → stepEight 0x12 (cTenant f.words) (cPayload f.words) (taking s f) = none →
      journalRefused (taking s f) (cTenant f.words) (cSchedFrame f.words) (cPayload f.words).length = none →
      Answers (.dataWrite f) s fun t => Records s t f 0x12 (cTenant f.words) (cPayload f.words) ∧
      (tenant t (cTenant f.words)).last = cCounter f.words ∧ t.cx = s.cx ∧ t.cl = s.cl ∧ t.regs = s.regs) ∧
    (∀ f : CmdFrame, wellFormed f.words = true → Reaches s f 0x13 = true → authentic s f.words = true →
      Permits (taking s f) f 0x13 = true → stepEight 0x13 (cTenant f.words) (cPayload f.words) (taking s f) = none →
      journalRefused (taking s f) (cTenant f.words) (cSchedFrame f.words) (cPayload f.words).length = none →
      Answers (.ctxEntry f) s fun t => Records s t f 0x13 (cTenant f.words) (cPayload f.words) ∧
      (tenant t (cTenant f.words)).last = cCounter f.words ∧ t.cx = s.cx ∧ t.cl = s.cl ∧ t.regs = s.regs) ∧
    (∀ f : CmdFrame, wellFormed f.words = true → Reaches s f 0x22 = true → authentic s f.words = true →
      Permits (taking s f) f 0x22 = true → stepEight 0x22 (cTenant f.words) (cPayload f.words) (taking s f) = none →
      journalRefused (taking s f) (cTenant f.words) (cSchedFrame f.words) (cPayload f.words).length = none →
      Answers (.capSet f) s fun t => Records s t f 0x22 (cTenant f.words) (cPayload f.words) ∧
      (tenant t (cTenant f.words)).last = cCounter f.words ∧ t.cx = s.cx ∧ t.cl = s.cl ∧ t.regs = s.regs) ∧
    (∀ f : CmdFrame, wellFormed f.words = true → Reaches s f 0x23 = true → authentic s f.words = true →
      Permits (taking s f) f 0x23 = true → stepEight 0x23 (cTenant f.words) (cPayload f.words) (taking s f) = none →
      journalRefused (taking s f) (cTenant f.words) (cSchedFrame f.words) (cPayload f.words).length = none →
      Answers (.tenSuspend f) s fun t => Records s t f 0x23 (cTenant f.words) (cPayload f.words) ∧
      (tenant t (cTenant f.words)).last = cCounter f.words ∧ t.cx = s.cx ∧ t.cl = s.cl ∧ t.regs = s.regs) ∧
    (∀ f : CmdFrame, wellFormed f.words = true → Reaches s f 0x24 = true → authentic s f.words = true →
      Permits (taking s f) f 0x24 = true → stepEight 0x24 (cTenant f.words) (cPayload f.words) (taking s f) = none →
      journalRefused (taking s f) (cTenant f.words) (cSchedFrame f.words) (cPayload f.words).length = none →
      Answers (.tenResume f) s fun t => Records s t f 0x24 (cTenant f.words) (cPayload f.words) ∧
      (tenant t (cTenant f.words)).last = cCounter f.words ∧ t.cx = s.cx ∧ t.cl = s.cl ∧ t.regs = s.regs) ∧
    (∀ f : CmdFrame, wellFormed f.words = true → Reaches s f 0x25 = true → authentic s f.words = true →
      Permits (taking s f) f 0x25 = true → stepEight 0x25 (cTenant f.words) (cPayload f.words) (taking s f) = none →
      journalRefused (taking s f) (cTenant f.words) (cSchedFrame f.words) (cPayload f.words).length = none →
      Answers (.tenRemove f) s fun t => Records s t f 0x25 (cTenant f.words) (cPayload f.words) ∧
      (tenant t (cTenant f.words)).last = cCounter f.words ∧ t.cx = s.cx ∧ t.cl = s.cl ∧ t.regs = s.regs) ∧
    (∀ (f : CmdFrame) (code : Nat), wellFormed f.words = true → Reaches s f 0x22 = true → authentic s f.words = true →
      Permits (taking s f) f 0x22 = true →
      (stepEight 0x22 (cTenant f.words) (cPayload f.words) (taking s f)).map (·.1) = some code → code = 0x04 →
      Answers (.capSet f) s fun t => Responds s t f code [] ∧ rbit t .tnEvents 2 = true ∧ t.jr = s.jr ∧
      (tenant t (cTenant f.words)).last = cCounter f.words) ∧
    (∀ (f : CmdFrame) (code : Nat), wellFormed f.words = true → Reaches s f 0x24 = true → authentic s f.words = true →
      Permits (taking s f) f 0x24 = true →
      (stepEight 0x24 (cTenant f.words) (cPayload f.words) (taking s f)).map (·.1) = some code →
      Answers (.tenResume f) s fun t => Responds s t f code [] ∧ t.jr = s.jr ∧
      (tenant t (cTenant f.words)).last = cCounter f.words)

/-- START waits for the next tick; STOP stops a context, inside a lock once it ends; HALT halts it, inside a lock once it ends, and a waiting one with its PC back on its WAIT; RESUME and STEP make a halted context ready; FORCE breaks the lock of a context that waits to halt. As commands they are answered with OK. No other context changes its state or registers. The model's own choices behind it: log entries 3, 4, 29, 47. -/
def Obligations.RunControl : Prop :=
  ∀ s : State, s.released = true →
    (∀ f : CmdFrame, wellFormed f.words = true → Reaches s f 0x14 = true → authentic s f.words = true →
      Permits (taking s f) f 0x14 = true → startOk (ctx s (pCtx (cPayload f.words))) = true →
      held s ((pCtx (cPayload f.words)) / 64) = none →
      Answers (.ctxStart (.command f)) s fun t => Responds s t f 0 [] ∧
      (tenant t (cTenant f.words)).last = cCounter f.words ∧
      ctx t (pCtx (cPayload f.words)) = { ctx s (pCtx (cPayload f.words)) with startPend := true } ∧
      CtxsBut [pCtx (cPayload f.words)] s t ∧ ClustersBut [(pCtx (cPayload f.words)) / 64] s t) ∧
    (∀ (who : Who) (x : Nat), x < 2048 → outOfService s (x / 64) = false → writerActive s who.tenant = true →
      mayWrite s who.tenant (.ctxCtrl x) (at32 1 0) = true → startOk (ctx s x) = true → held s (x / 64) = none →
      Answers (.ctxStart (.register who x)) s fun t => ctx t x = { ctx s x with startPend := true } ∧
      t.busStatus = 0 ∧ CtxsBut [x] s t ∧ ClustersBut [x / 64] s t) ∧
    (∀ f : CmdFrame, wellFormed f.words = true → Reaches s f 0x15 = true → authentic s f.words = true →
      Permits (taking s f) f 0x15 = true → (ctx s (pCtx (cPayload f.words))).state ≠ .free →
      Answers (.ctxStop (.command f)) s fun t => Responds s t f 0 [] ∧
      (tenant t (cTenant f.words)).last = cCounter f.words ∧ ((ctx s (pCtx (cPayload f.words))).l = true →
      (ctx t (pCtx (cPayload f.words))).stopPend = true ∧
      (ctx t (pCtx (cPayload f.words))).state = (ctx s (pCtx (cPayload f.words))).state) ∧
      ((ctx s (pCtx (cPayload f.words))).l = false → (ctx t (pCtx (cPayload f.words))).state = .stopped ∧
      (ctx t (pCtx (cPayload f.words))).wait = none ∧ (ctx t (pCtx (cPayload f.words))).post = none ∧
      (ctx t (pCtx (cPayload f.words))).startPend = false) ∧ CtxsBut [pCtx (cPayload f.words)] s t ∧
      ClustersBut [(pCtx (cPayload f.words)) / 64] s t) ∧
    (∀ (who : Who) (x : Nat), x < 2048 → outOfService s (x / 64) = false → writerActive s who.tenant = true →
      mayWrite s who.tenant (.ctxCtrl x) (at32 1 1) = true → (ctx s x).state ≠ .free →
      Answers (.ctxStop (.register who x)) s fun t => ((ctx s x).l = true → (ctx t x).stopPend = true ∧
      (ctx t x).state = (ctx s x).state) ∧ ((ctx s x).l = false → (ctx t x).state = .stopped ∧ (ctx t x).wait = none ∧
      (ctx t x).post = none ∧ (ctx t x).startPend = false) ∧ t.busStatus = 0 ∧ CtxsBut [x] s t ∧
      ClustersBut [x / 64] s t) ∧
    (∀ f : CmdFrame, wellFormed f.words = true → Reaches s f 0x16 = true → authentic s f.words = true →
      Permits (taking s f) f 0x16 = true → haltOk (ctx s (pCtx (cPayload f.words))) = true →
      Answers (.ctxHalt (.command f)) s fun t => Responds s t f 0 [] ∧
      (tenant t (cTenant f.words)).last = cCounter f.words ∧ ((ctx s (pCtx (cPayload f.words))).l = true →
      (ctx t (pCtx (cPayload f.words))).haltPend = true ∧
      (ctx t (pCtx (cPayload f.words))).state = (ctx s (pCtx (cPayload f.words))).state) ∧
      ((ctx s (pCtx (cPayload f.words))).l = false → (ctx t (pCtx (cPayload f.words))).state = .halted ∧
      (ctx t (pCtx (cPayload f.words))).pc = (if (ctx s (pCtx (cPayload f.words))).state = .waiting then (ctx s (pCtx (cPayload f.words))).pc - 1 else (ctx s (pCtx (cPayload f.words))).pc)) ∧
      (ctx t (pCtx (cPayload f.words))).r = (ctx s (pCtx (cPayload f.words))).r ∧
      CtxsBut [pCtx (cPayload f.words)] s t ∧ ClustersBut [(pCtx (cPayload f.words)) / 64] s t) ∧
    (∀ (who : Who) (x : Nat), x < 2048 → outOfService s (x / 64) = false → writerActive s who.tenant = true →
      mayWrite s who.tenant (.ctxCtrl x) (at32 1 2) = true → haltOk (ctx s x) = true →
      Answers (.ctxHalt (.register who x)) s fun t => ((ctx s x).l = true → (ctx t x).haltPend = true ∧
      (ctx t x).state = (ctx s x).state) ∧ ((ctx s x).l = false → (ctx t x).state = .halted ∧
      (ctx t x).pc = (if (ctx s x).state = .waiting then (ctx s x).pc - 1 else (ctx s x).pc)) ∧
      (ctx t x).r = (ctx s x).r ∧ t.busStatus = 0 ∧ CtxsBut [x] s t ∧ ClustersBut [x / 64] s t) ∧
    (∀ f : CmdFrame, wellFormed f.words = true → Reaches s f 0x17 = true → authentic s f.words = true →
      Permits (taking s f) f 0x17 = true → (ctx s (pCtx (cPayload f.words))).state = .halted →
      Answers (.ctxResume (.command f)) s fun t => Responds s t f 0 [] ∧
      (tenant t (cTenant f.words)).last = cCounter f.words ∧ (ctx t (pCtx (cPayload f.words))).state = .ready ∧
      (ctx t (pCtx (cPayload f.words))).stepping = false ∧
      (ctx t (pCtx (cPayload f.words))).pc = (ctx s (pCtx (cPayload f.words))).pc ∧
      (ctx t (pCtx (cPayload f.words))).r = (ctx s (pCtx (cPayload f.words))).r ∧
      CtxsBut [pCtx (cPayload f.words)] s t ∧ ClustersBut [(pCtx (cPayload f.words)) / 64] s t) ∧
    (∀ (who : Who) (x : Nat), x < 2048 → outOfService s (x / 64) = false → writerActive s who.tenant = true →
      mayWrite s who.tenant (.ctxCtrl x) (at32 1 3) = true → (ctx s x).state = .halted →
      Answers (.ctxResume (.register who x)) s fun t => (ctx t x).state = .ready ∧ (ctx t x).stepping = false ∧
      (ctx t x).pc = (ctx s x).pc ∧ (ctx t x).r = (ctx s x).r ∧ t.busStatus = 0 ∧ CtxsBut [x] s t ∧
      ClustersBut [x / 64] s t) ∧
    (∀ f : CmdFrame, wellFormed f.words = true → Reaches s f 0x18 = true → authentic s f.words = true →
      Permits (taking s f) f 0x18 = true → (ctx s (pCtx (cPayload f.words))).state = .halted →
      held s ((pCtx (cPayload f.words)) / 64) = none →
      Answers (.ctxStep (.command f)) s fun t => Responds s t f 0 [] ∧
      (tenant t (cTenant f.words)).last = cCounter f.words ∧ (ctx t (pCtx (cPayload f.words))).state = .ready ∧
      (ctx t (pCtx (cPayload f.words))).stepping = true ∧
      (ctx t (pCtx (cPayload f.words))).pc = (ctx s (pCtx (cPayload f.words))).pc ∧
      (ctx t (pCtx (cPayload f.words))).r = (ctx s (pCtx (cPayload f.words))).r ∧
      CtxsBut [pCtx (cPayload f.words)] s t ∧ ClustersBut [(pCtx (cPayload f.words)) / 64] s t) ∧
    (∀ (who : Who) (x : Nat), x < 2048 → outOfService s (x / 64) = false → writerActive s who.tenant = true →
      mayWrite s who.tenant (.ctxCtrl x) (at32 1 4) = true → (ctx s x).state = .halted → held s (x / 64) = none →
      Answers (.ctxStep (.register who x)) s fun t => (ctx t x).state = .ready ∧ (ctx t x).stepping = true ∧
      (ctx t x).pc = (ctx s x).pc ∧ (ctx t x).r = (ctx s x).r ∧ t.busStatus = 0 ∧ CtxsBut [x] s t ∧
      ClustersBut [x / 64] s t) ∧
    (∀ f : CmdFrame, wellFormed f.words = true → Reaches s f 0x19 = true → authentic s f.words = true →
      Permits (taking s f) f 0x19 = true → (ctx s (pCtx (cPayload f.words))).haltPend = true →
      (ctx s (pCtx (cPayload f.words))).l = true → (cluster s ((pCtx (cPayload f.words)) / 64)).lock.isSome = true →
      Answers (.ctxBreak (.command f)) s fun t => Responds s t f 0 [] ∧
      (tenant t (cTenant f.words)).last = cCounter f.words ∧ (ctx t (pCtx (cPayload f.words))).state = .halted ∧
      (ctx t (pCtx (cPayload f.words))).lockBrk = true ∧ (ctx t (pCtx (cPayload f.words))).l = false ∧
      (cluster s ((pCtx (cPayload f.words)) / 64)).lock.map (·.pc) = some (ctx t (pCtx (cPayload f.words))).pc ∧
      (cluster s ((pCtx (cPayload f.words)) / 64)).lock.map (·.saved) = some (ctx t (pCtx (cPayload f.words))).r ∧
      (cluster t ((pCtx (cPayload f.words)) / 64)).lock = none ∧ (∀ j, j ≠ (pCtx (cPayload f.words)) →
      (ctx t j).state = (ctx s j).state ∧ (ctx t j).r = (ctx s j).r) ∧
      ClustersBut [(pCtx (cPayload f.words)) / 64] s t) ∧
    (∀ (who : Who) (x : Nat), x < 2048 → outOfService s (x / 64) = false → writerActive s who.tenant = true →
      mayWrite s who.tenant (.ctxCtrl x) (at32 1 5) = true → (ctx s x).haltPend = true → (ctx s x).l = true →
      (cluster s (x / 64)).lock.isSome = true →
      Answers (.ctxBreak (.register who x)) s fun t => (ctx t x).state = .halted ∧ (ctx t x).lockBrk = true ∧
      (ctx t x).l = false ∧ (cluster s (x / 64)).lock.map (·.pc) = some (ctx t x).pc ∧
      (cluster s (x / 64)).lock.map (·.saved) = some (ctx t x).r ∧ (cluster t (x / 64)).lock = none ∧
      t.busStatus = 0 ∧ (∀ j, j ≠ x → (ctx t j).state = (ctx s j).state ∧ (ctx t j).r = (ctx s j).r) ∧
      ClustersBut [x / 64] s t)

/-- KEY_INIT on the MSPI, while there is no key of the steward, and KEY_SET start a key-area write of four words; ZEROISE marks the zeroisation and drops post slots; a key-area write that completes puts its key, reservation or erasure into the key area; the end of a zeroisation leaves no key and LAST 0 for every tenant; the end of a clearing is reported. The model's own choices behind it: log entries 3, 4, 14, 46, 48, 77. -/
def Obligations.KeysAndZeroisation : Prop :=
  ∀ s : State, s.released = true →
    (∀ f : CmdFrame, f.path = .mspi → canVerify s = true → PathFree s .mspi = true → wellFormed f.words = true →
      cOp f.words = 0x20 → cTenant f.words = 0 → cCounter f.words = 0 → cSched f.words = false →
      formOk 0x20 (cPayload f.words) = true → (keyOf s 0).valid = false →
      (1 ≤ s.st.lcState && s.st.lcState ≤ 3) = true → s.tn.zeroising = false → purging s = false →
      Answers (.keyInit f) s fun t => t.tn = { s.tn with jobs := s.tn.jobs ++ [{ write := .init (BitVec.ofNat 128 ((pw (cPayload f.words) 0).toNat * 2 ^ 64 + (pw (cPayload f.words) 1).toNat)), due := max (lc s) (lmax (s.tn.jobs.map (·.due))) + 160, path := some .mspi }] } ∧
      Waits t f) ∧
    (∀ f : CmdFrame, wellFormed f.words = true → Reaches s f 0x21 = true → authentic s f.words = true →
      Permits (taking s f) f 0x21 = true →
      pTenant (cPayload f.words) = 0 ∨ ((tenant s (pTenant (cPayload f.words))).state ≠ .absent ∧
      (tenant s (pTenant (cPayload f.words))).leaving = none) →
      Answers (.keySet f) s fun t => t.tn.jobs = s.tn.jobs ++ [{ write := .set (pTenant (cPayload f.words)) (BitVec.ofNat 128 ((pw (cPayload f.words) 1).toNat * 2 ^ 64 + (pw (cPayload f.words) 2).toNat) ^^^ BitVec.ofNat 128 (aes (wrapKey (keyOf s (cTenant f.words)).key) (cCounter f.words * 2 ^ 64 + pTenant (cPayload f.words)))), due := max (lc (taking s f)) (lmax (s.tn.jobs.map (·.due))) + 160, path := some f.path }] ∧
      t.tn.keys = s.tn.keys ∧ (tenant t (cTenant f.words)).last = cCounter f.words ∧ Waits t f) ∧
    (∀ f : CmdFrame, wellFormed f.words = true → Reaches s f 0x26 = true → authentic s f.words = true →
      Permits (taking s f) f 0x26 = true → runOf s .p0 = none → runOf s .p1 = none → runOf s .mspi = none →
      Answers (.zeroise f) s fun t => t.tn.zeroMark = true ∧ t.tn.zeroising = true ∧ t.tn.jobs = [] ∧
      t.tn.keys = s.tn.keys ∧ (∀ x, (ctx t x).post = none) ∧ Responds s t f 0 [] ∧
      (tenant t (cTenant f.words)).last = cCounter f.words ∧ t.regs = s.regs ∧ t.jr = s.jr) ∧
    (s.tn.zeroising = true → Answers (.zeroiseDone) s fun t => t.tn.keys = [] ∧ t.tn.jobs = [] ∧
      t.tn.zeroMark = false ∧ t.tn.zeroising = false ∧ (∀ u, (tenant t u).last = 0) ∧ rbit t .tnEvents 4 = true ∧
      (s.st.compatPend = true → t.st.compat = true ∧ t.st.compatPend = false) ∧ (s.st.compatPend = false →
      t.st = s.st) ∧ RegsBut [regAddr .tnEvents] s t ∧
      t = { s with tn := t.tn, regs := t.regs, st := t.st, acc := t.acc }) ∧
    (∀ (j : KeyJob) (rest : List KeyJob) (k : W128) (r : Running), (port s 0).buf = [] → (port s 1).buf = [] →
      s.mspi.cmd = none → s.tn.jobs = j :: rest → j.write = .init k → j.path = some .mspi → runOf s .mspi = some r →
      r.keyWait = true → r.acted = true → r.waits = [] → cCounter r.words = 0 →
      Answers (.keyAreaWriteDone) s fun t => keyOf t 0 = { key := k, resv := 0, valid := true } ∧
      (tenant t 0).last = 0 ∧ t.tn.jobs = rest ∧ runOf t .mspi = none ∧
      t.mspi.rsp = some (responseWords t r.words (cCounter r.words) r.status r.payload) ∧ (∀ u, u ≠ 0 →
      keyOf t u = keyOf s u) ∧ lc t = max (lc s) j.due) ∧
    (∀ (j : KeyJob) (rest : List KeyJob) (u : Nat) (k : W128), (port s 0).buf = [] → (port s 1).buf = [] →
      s.mspi.cmd = none → s.tn.jobs = j :: rest → j.write = .set u k → j.path = none →
      Answers (.keyAreaWriteDone) s fun t => keyOf t u = { key := k, resv := 0, valid := true } ∧
      (tenant t u).last = 0 ∧ rbit t .tnEvents 3 = true ∧ t.tn.rekeyed = s.tn.rekeyed ++ [u] ∧ t.tn.jobs = rest ∧
      (∀ v, v ≠ u → keyOf t v = keyOf s v) ∧ lc t = max (lc s) j.due) ∧
    (∀ (j : KeyJob) (rest : List KeyJob) (u v : Nat), (port s 0).buf = [] → (port s 1).buf = [] → s.mspi.cmd = none →
      s.tn.jobs = j :: rest → j.write = .resv u v → j.path = none →
      Answers (.keyAreaWriteDone) s fun t => keyOf t u = { keyOf s u with resv := v } ∧ (∀ y, y ≠ u →
      keyOf t y = keyOf s y) ∧ t.tn.jobs = rest ∧ t.tn.tens = s.tn.tens ∧ lc t = max (lc s) j.due ∧
      t = { s with now := t.now, tn := t.tn }) ∧
    (∀ (j : KeyJob) (rest : List KeyJob) (u : Nat), (port s 0).buf = [] → (port s 1).buf = [] → s.mspi.cmd = none →
      s.tn.jobs = j :: rest → j.write = .erase u → j.path = none →
      Answers (.keyAreaWriteDone) s fun t => keyOf t u = KeyEntry.reset ∧ (∀ y, y ≠ u → keyOf t y = keyOf s y) ∧
      t.tn.jobs = rest ∧ t.tn.tens = s.tn.tens ∧ lc t = max (lc s) j.due ∧ t = { s with now := t.now, tn := t.tn }) ∧
    (∀ k : Clearing, k ∈ s.tn.clearing → (s.tn.clearing.all fun q => decide (k.due ≤ q.due)) = true →
      Answers (.clearingDone) s fun t => t.tn.clearing = s.tn.clearing.filter (fun q => decide (k.due < q.due)) ∧
      rbit t .tnEvents 6 = true ∧ lc t = max (lc s) k.due ∧ RegsBut [regAddr .tnEvents] s t ∧
      t = { s with now := t.now, regs := t.regs, tn := t.tn, acc := t.acc })

/-- SUSPECT_READ answers with words of the suspect that it names; ACCEPT_SUSPECT, DISCARD and SCHED_CANCEL become records where what they name is there; COMPACT, a write of JR_CTRL and a fill of 75 % of a half start a compaction where none runs; JOURNAL_ERASE in FACTORY_TEST or PROVISIONED clears the heads of both halves and holds the core in reset. The model's own choices behind it: log entries 3, 4, 14, 16, 55, 56, 57. -/
def Obligations.JournalCommands : Prop :=
  ∀ s : State, s.released = true →
    (∀ (f : CmdFrame) (x : Suspect), wellFormed f.words = true → Reaches s f 0x31 = true →
      authentic s f.words = true → Permits (taking s f) f 0x31 = true →
      (s.jr.suspects.find? fun y => y.seq % 2 ^ 32 == fld (pw (cPayload f.words) 0) 0 32) = some x →
      fld (pw (cPayload f.words) 0) 32 16 + fld (pw (cPayload f.words) 0) 48 16 ≤ x.len →
      Answers (.suspectRead f) s fun t => Responds s t f 0 (rawWords (activeHalf s) (x.start + fld (pw (cPayload f.words) 0) 32 16) (fld (pw (cPayload f.words) 0) 48 16)) ∧
      t.jr = s.jr ∧ (tenant t (cTenant f.words)).last = cCounter f.words) ∧
    (∀ f : CmdFrame, wellFormed f.words = true → Reaches s f 0x31 = true → authentic s f.words = true →
      Permits (taking s f) f 0x31 = true →
      (s.jr.suspects.find? fun y => y.seq % 2 ^ 32 == fld (pw (cPayload f.words) 0) 0 32) = none →
      Answers (.suspectRead f) s fun t => Responds s t f 0x0A [] ∧ t.jr = s.jr ∧
      (tenant t (cTenant f.words)).last = cCounter f.words) ∧
    (∀ (f : CmdFrame) (x : Suspect), wellFormed f.words = true → Reaches s f 0x32 = true →
      authentic s f.words = true → Permits (taking s f) f 0x32 = true →
      (s.jr.suspects.find? fun y => y.seq == (pw (cPayload f.words) 0).toNat) = some x → x.known = true →
      recFormOk (fld (pw (rawWords (activeHalf s) x.start x.len) 1) 40 16) (((rawWords (activeHalf s) x.start x.len).drop 3).take (fld (pw (rawWords (activeHalf s) x.start x.len) 1) 0 16)) = true →
      stepEight (fld (pw (rawWords (activeHalf s) x.start x.len) 1) 40 16) (fld (pw (rawWords (activeHalf s) x.start x.len) 1) 30 10) (((rawWords (activeHalf s) x.start x.len).drop 3).take (fld (pw (rawWords (activeHalf s) x.start x.len) 1) 0 16)) (taking s f) = none →
      journalRefused (taking s f) 0 none ((((rawWords (activeHalf s) x.start x.len).drop 3).take (fld (pw (rawWords (activeHalf s) x.start x.len) 1) 0 16)).length + 2) = none →
      Answers (.acceptSuspect f) s fun t => Records s t f 0x32 0 ([pw (cPayload f.words) 0, (pw (rawWords (activeHalf s) x.start x.len) 1)] ++ (((rawWords (activeHalf s) x.start x.len).drop 3).take (fld (pw (rawWords (activeHalf s) x.start x.len) 1) 0 16))) ∧
      (tenant t (cTenant f.words)).last = cCounter f.words) ∧
    (∀ f : CmdFrame, wellFormed f.words = true → Reaches s f 0x33 = true → authentic s f.words = true →
      Permits (taking s f) f 0x33 = true →
      (s.jr.suspects.any fun y => y.seq == (pw (cPayload f.words) 0).toNat) = true →
      journalRefused (taking s f) 0 none (cPayload f.words).length = none →
      Answers (.discard f) s fun t => Records s t f 0x33 0 (cPayload f.words) ∧
      (tenant t (cTenant f.words)).last = cCounter f.words) ∧
    (∀ f : CmdFrame, wellFormed f.words = true → Reaches s f 0x35 = true → authentic s f.words = true →
      Permits (taking s f) f 0x35 = true →
      (s.jr.sched.any fun d => d.seq == (pw (cPayload f.words) 0).toNat && (cTenant f.words == 0 || d.r.tenant == cTenant f.words)) = true →
      journalRefused (taking s f) (cTenant f.words) none (cPayload f.words).length = none →
      Answers (.schedCancel f) s fun t => Records s t f 0x35 (cTenant f.words) (cPayload f.words) ∧
      (tenant t (cTenant f.words)).last = cCounter f.words) ∧
    (∀ f : CmdFrame, wellFormed f.words = true → Reaches s f 0x34 = true → authentic s f.words = true →
      Permits (taking s f) f 0x34 = true →
      Answers (.compact (.command f)) s fun t => t.jr = (compactStart (committed (taking s f)).jr.canon (taking s f)).jr ∧
      t.jr.compact.isSome = true ∧ Responds s t f 0 [] ∧ (tenant t (cTenant f.words)).last = cCounter f.words) ∧
    (∀ who : Who, who.tenant = 0 →
      Answers (.compact (.register who)) s fun t => t = { compactStart (committed s).jr.canon s with busStatus := 0 } ∧
      t.jr.compact.isSome = true) ∧
    (390144 ≤ s.jr.fill → Answers (.compact .threshold) s fun t => t = compactStart (committed s).jr.canon s ∧
      t.jr.compact.isSome = true) ∧
    (∀ f : CmdFrame, wellFormed f.words = true → Reaches s f 0x36 = true → authentic s f.words = true →
      Permits (taking s f) f 0x36 = true → s.st.lcState = 1 ∨ s.st.lcState = 2 →
      Answers (.journalErase f) s fun t => ((List.range 6).all fun i => tget 0 i t.jr.halfA == 0 && tget 0 i t.jr.halfB == 0) = true ∧
      t.jr.fill = 0 ∧ t.released = false ∧ t.pending = s.pending ∧ t.byre.state = .reset)

/-- RECOVER gates the outputs and begins the items of its mask; LBIST_RUN makes the named clusters pending together or is refused whole; Q_RELEASE ends a quarantine after a passed test; COMPAT_SCAN begins a zeroisation, COMPAT_DISABLE disables it; LC_ADVANCE to FIELD blows the fuses before its response and to the others purges after it; LB_STATUS answers with the bitmaps. The model's own choices behind it: log entries 3, 4, 62, 63, 64. -/
def Obligations.TestCommands : Prop :=
  ∀ s : State, s.released = true →
    (∀ f : CmdFrame, wellFormed f.words = true → Reaches s f 0x40 = true → authentic s f.words = true →
      Permits (taking s f) f 0x40 = true → s.st.lbPend = 0 → s.st.astTodo = [] →
      (fld (pw (cPayload f.words) 0) 0 6) ≠ 0 → rbit s .asCtrl 0 = false → ckoRunning s = false →
      Answers (.recover f) s fun t => t.st.astTodo = (List.range 6).filter (fun i => (fld (pw (cPayload f.words) 0) 0 6) / 2 ^ i % 2 == 1) ∧
      t.st.astSrc = 3 ∧ rbit t .tbCtrl 8 = true ∧ Waits t f ∧ (tenant t (cTenant f.words)).last = cCounter f.words ∧
      t.jr = s.jr) ∧
    (∀ f : CmdFrame, wellFormed f.words = true → Reaches s f 0x40 = true → authentic s f.words = true →
      Permits (taking s f) f 0x40 = true → s.st.lbPend ≠ 0 ∨ s.st.astTodo ≠ [] →
      Answers (.recover f) s fun t => Responds s t f 0x0A [] ∧ (tenant t (cTenant f.words)).last = cCounter f.words ∧
      t.st = s.st ∧ t.regs = s.regs) ∧
    (∀ f : CmdFrame, wellFormed f.words = true → Reaches s f 0x41 = true → authentic s f.words = true →
      Permits (taking s f) f 0x41 = true → lbistCode (lo32 (pw (cPayload f.words) 0)) (taking s f) = 0 →
      Answers (.lbistRun f) s fun t => Responds s t f 0 [] ∧
      t.st = { s.st with lbPend := s.st.lbPend ||| (lo32 (pw (cPayload f.words) 0)) } ∧
      ((List.range 32).all fun c => fld (lo32 (pw (cPayload f.words) 0)) c 1 == 0 || reg t (.stClRes c) == 0) = true ∧
      (tenant t (cTenant f.words)).last = cCounter f.words) ∧
    (∀ f : CmdFrame, wellFormed f.words = true → Reaches s f 0x41 = true → authentic s f.words = true →
      Permits (taking s f) f 0x41 = true → lbistCode (lo32 (pw (cPayload f.words) 0)) (taking s f) ≠ 0 →
      Answers (.lbistRun f) s fun t => Responds s t f (lbistCode (lo32 (pw (cPayload f.words) 0)) (taking s f)) [] ∧
      t.st = s.st ∧ t.regs = s.regs ∧ (tenant t (cTenant f.words)).last = cCounter f.words) ∧
    (∀ f : CmdFrame, wellFormed f.words = true → Reaches s f 0x42 = true → authentic s f.words = true →
      Permits (taking s f) f 0x42 = true → fld s.st.lbOk (fld (pw (cPayload f.words) 0) 0 5) 1 = 1 →
      Answers (.qRelease f) s fun t => Responds s t f 0 [] ∧
      quarantined t (fld (pw (cPayload f.words) 0) 0 5) = false ∧ (∀ c, c < 32 →
      c ≠ (fld (pw (cPayload f.words) 0) 0 5) → quarantined t c = quarantined s c) ∧
      (tenant t (cTenant f.words)).last = cCounter f.words ∧ t.st = s.st) ∧
    (∀ f : CmdFrame, wellFormed f.words = true → Reaches s f 0x42 = true → authentic s f.words = true →
      Permits (taking s f) f 0x42 = true → fld s.st.lbOk (fld (pw (cPayload f.words) 0) 0 5) 1 = 0 →
      Answers (.qRelease f) s fun t => Responds s t f 0x11 [] ∧ t.byre = s.byre ∧
      (tenant t (cTenant f.words)).last = cCounter f.words) ∧
    (∀ f : CmdFrame, wellFormed f.words = true → Reaches s f 0x43 = true → authentic s f.words = true →
      Permits (taking s f) f 0x43 = true → compatScanCode s = 0 → runOf s .p0 = none → runOf s .p1 = none →
      runOf s .mspi = none → Answers (.compatScan f) s fun t => Responds s t f 0 [] ∧ t.st.compatPend = true ∧
      t.tn.zeroising = true ∧ t.tn.zeroMark = true ∧ (tenant t (cTenant f.words)).last = cCounter f.words) ∧
    (∀ f : CmdFrame, wellFormed f.words = true → Reaches s f 0x44 = true → authentic s f.words = true →
      Permits (taking s f) f 0x44 = true → s.st.lcState = 2 ∨ s.st.lcState = 3 →
      Answers (.compatDisable f) s fun t => Responds s t f 0 [] ∧ t.st = { s.st with compatDis := true } ∧
      (tenant t (cTenant f.words)).last = cCounter f.words) ∧
    (∀ f : CmdFrame, wellFormed f.words = true → Reaches s f 0x45 = true → authentic s f.words = true →
      Permits (taking s f) f 0x45 = true → (fld (pw (cPayload f.words) 0) 0 3) = 3 →
      advanceListed s.st.lcState 3 = true → noTransition s = true → Answers (.lcAdvance f) s fun t => Waits t f ∧
      t.st = { s.st with trans := .blowing 3 (lc (taking s f) + 625000) false } ∧
      (tenant t (cTenant f.words)).last = cCounter f.words) ∧
    (∀ f : CmdFrame, wellFormed f.words = true → Reaches s f 0x45 = true → authentic s f.words = true →
      Permits (taking s f) f 0x45 = true → (fld (pw (cPayload f.words) 0) 0 3) ≠ 3 →
      advanceListed s.st.lcState (fld (pw (cPayload f.words) 0) 0 3) = true → noTransition s = true →
      runOf s .p0 = none → runOf s .p1 = none → runOf s .mspi = none →
      Answers (.lcAdvance f) s fun t => Responds s t f 0 [] ∧
      t.st = { s.st with trans := .toPurge (fld (pw (cPayload f.words) 0) 0 3) (lc (taking s f) + 312500) } ∧
      (tenant t (cTenant f.words)).last = cCounter f.words) ∧
    (∀ f : CmdFrame, wellFormed f.words = true → Reaches s f 0x45 = true → authentic s f.words = true →
      Permits (taking s f) f 0x45 = true →
      advanceListed s.st.lcState (fld (pw (cPayload f.words) 0) 0 3) = false ∨ noTransition s = false →
      Answers (.lcAdvance f) s fun t => Responds s t f 0x0A [] ∧ t.st = s.st ∧
      (tenant t (cTenant f.words)).last = cCounter f.words) ∧
    (∀ f : CmdFrame, wellFormed f.words = true → Reaches s f 0x46 = true → authentic s f.words = true →
      Permits (taking s f) f 0x46 = true →
      Answers (.lbStatus f) s fun t => Responds s t f 0 [cat64 s.st.lbPend s.byre.quar, cat64 s.st.lbOk 0] ∧
      (tenant t (cTenant f.words)).last = cCounter f.words ∧ t.st = s.st ∧ t.jr = s.jr)

/-- A slice takes its cluster out of service, restores it and returns it; a passed test of 40 blocks clears its pending bit, a failed one quarantines the cluster; an item of the analog self-test records its failures; a purge zeroises and ends with the fuses of the target blown, after which the state is in force or a cold start follows. The model's own choices behind it: log entries 3, 4, 5, 62, 63, 64. -/
def Obligations.SelfTestEvents : Prop :=
  ∀ s : State, s.released = true →
    (∀ (n c : Nat), nextSlice s = some (n, c) → s.st.slices.length < rfld s .frBudLb 0 3 →
      Answers (.lbistSliceStart) s fun t => t.st = { s.st with slices := s.st.slices ++ [{ cluster := c, start := n, blocks := min (rfld s .frBudLb 8 6) (40 - blocksDone s c), restored := false, failCause := 0 }], lbRun := s.st.lbRun ||| at32 1 c, lastStart := some n } ∧
      lc t = max (lc s) n ∧ t = { s with now := t.now, st := t.st }) ∧
    (∀ (c : Nat) (k : Slice) (v : BistVerdict), c < 32 → sliceOf s c = some k → goldOk s = true → k.restored = false →
      v ≠ .restore → verdictOf s k v = true → Answers (.lbistSliceRestore c v) s fun t => (v = .pass →
      rfld t (.stClRes c) 0 6 = (blocksDone s c + k.blocks) % 64 ∧
      sliceOf t c = some { k with restored := true, failCause := 0 } ∧
      lc t = max (lc s) (k.start + 37500 + 3125 * k.blocks)) ∧ (∀ b, v = .signature b →
      rfld t (.stClRes c) 8 6 = b % 64 ∧
      sliceOf t c = some { k with blocks := b + 1 - blocksDone s c, restored := true, failCause := 2 }) ∧
      RegsBut [regAddr (.stClRes c)] s t ∧ t = { s with now := t.now, regs := t.regs, st := t.st, acc := t.acc }) ∧
    (∀ (c : Nat) (k : Slice) (v : BistVerdict), c < 32 → sliceOf s c = some k → goldOk s = true → k.restored = false →
      v = .restore → Answers (.lbistSliceRestore c v) s fun t => (v = .restore →
      sliceOf t c = some { k with restored := true, failCause := 3 } ∧ t.free = s.free + 1) ∧
      lc t = max (lc s) (k.start + 37500 + 3125 * k.blocks)) ∧
    (∀ (c : Nat) (k : Slice), c < 32 → sliceOf s c = some k → k.restored = true → k.failCause = 0 →
      (s.st.heldW.all fun p => clusterAt p.1 != some c) = true →
      Answers (.lbistSliceEnd c) s fun t => sliceOf t c = none ∧ fld t.st.lbRun c 1 = 0 ∧
      lc t = max (lc s) (k.start + 75000 + 3125 * k.blocks) ∧ (blocksDone s c ≠ 40 → t.st.lbPend = s.st.lbPend ∧
      t.regs = s.regs) ∧ (blocksDone s c = 40 → fld t.st.lbPend c 1 = 0 ∧ fld t.st.lbOk c 1 = 1 ∧
      rfld t (.stClRes c) 28 4 = 1) ∧ t.byre = s.byre) ∧
    (∀ (c : Nat) (k : Slice), c < 32 → sliceOf s c = some k → k.restored = true → k.failCause ≠ 0 →
      (s.st.heldW.all fun p => clusterAt p.1 != some c) = true →
      Answers (.lbistSliceEnd c) s fun t => sliceOf t c = none ∧ fld t.st.lbRun c 1 = 0 ∧
      lc t = max (lc s) (k.start + 75000 + 3125 * k.blocks) ∧ fld t.st.lbPend c 1 = 0 ∧ fld t.st.lbOk c 1 = 0 ∧
      rfld t (.stClRes c) 28 4 = k.failCause % 16 ∧ quarantined t c = true ∧ rbit t .stEvents 3 = true ∧
      rbit t .flFpend 0x11 = true) ∧
    (∀ (item : Nat) (r : AstResult), s.st.astTodo = [item] → item < 6 → astMay s item = true → s.byre.checks = true →
      s.st.astPath = none → ((judged s item r.values).filter fun p => outOfWindow s item p.1 p.2) = [] → item = 1 →
      r.locked = true → Answers (.astItemDone r) s fun t => t.st.astTodo = [] ∧ rbit t .stAst item = true ∧
      rbit t .stEvents 0 = true ∧ rbit t .stAst (8 + item) = rbit s .stAst (8 + item)) ∧
    (∀ (item : Nat) (r : AstResult), s.st.astTodo = [item] → item < 6 → astMay s item = true → s.byre.checks = true →
      s.st.astPath = none → ((judged s item r.values).filter fun p => outOfWindow s item p.1 p.2) ≠ [] →
      s.st.astLog.length ≤ 16 → Answers (.astItemDone r) s fun t => t.st.astTodo = [] ∧ rbit t .stAst item = true ∧
      rbit t .stAst (8 + item) = true ∧ rbit t .stEvents 0 = true ∧ rbit t .stEvents 1 = true ∧
      rbit t .flFpend 0x0A = true ∧
      t.st.astLog.length = min 16 (s.st.astLog.length + ((judged s item r.values).filter fun p => outOfWindow s item p.1 p.2).length)) ∧
    (∀ (target n : Nat), s.st.trans = .toPurge target n →
      Answers (.purgeStart) s fun t => t.st.trans = .purging target (lc t + purgeWords) ∧ t.st.purgeMark = true ∧
      t.tn.keys = [] ∧ (∀ u, (tenant t u).last = 0) ∧ lc t = (if responsesGone s then lc s else max (lc s) n)) ∧
    (∀ (target n : Nat), s.st.trans = .purging target n → Answers (.purgeDone) s fun t => t.jr.halfA = [] ∧
      t.jr.halfB = [] ∧ t.jr.fill = 0 ∧ t.st.purgeMark = false ∧ t.st.trans = .blowing target (lc t + 625000) true ∧
      lc t = max (lc s) n ∧ t = { s with now := t.now, jr := t.jr, st := t.st }) ∧
    (∀ n : Nat, s.st.trans = .blowing 3 n false → (port s 0).buf = [] → (port s 1).buf = [] → s.mspi.cmd = none →
      Answers (.fuseBlowDone) s fun t => tget 0 3 t.st.fuses = 0xFFFF ∧ t.st.lcState = 3 ∧ t.st.trans = .none) ∧
    (∀ (target n : Nat), s.st.trans = .blowing target n true →
      Answers (.fuseBlowDone) s fun t => tget 0 target t.st.fuses = 0xFFFF ∧ t.released = false ∧
      t.byre.state = .reset ∧ t.st.lcState = lcOfFuses t.st.fuses)

/-- Losing a condition of UP takes a port DOWN and reports it, and a port that was not UP keeps the condition only; gaining the last condition, or a HELLO that is received, brings it UP with LINKUP counted; a HELLO with another session number is reported as a reset of the partner; HELLO frames are sent at block lock and at each period, but in SCRAPPED; P3 hears nothing at position 0. The other ports stay as they were. The model's own choices behind it: log entries 3, 4, 49. -/
def Obligations.PortLinks : Prop :=
  ∀ s : State, s.released = true →
    (∀ (p : Nat) (why : DownCause), p = 0 ∨ p = 1 ∨ p = 3 → p ≠ 3 ∨ chainPos s ≠ 0 → (port s p).up = true →
      Answers (.linkDown p why) s fun t => (port t p).up = false ∧ rbit t (.ptEvents p) 1 = true ∧
      (port t p).resps = (port s p).resps ∧ (port t p).part = none ∧ PortsBut [p] s t) ∧
    (∀ (p : Nat) (why : DownCause), p = 0 ∨ p = 1 ∨ p = 3 → p ≠ 3 ∨ chainPos s ≠ 0 → (port s p).up = false →
      Answers (.linkDown p why) s fun t => t = modPort p (fun u => match why with | .blockLock => { u with lock := false, helloOk := false } | .highBer => { u with hiber := true } | .localFault => { u with lf := true } | .remoteFault => { u with rf := true }) s) ∧
    (∀ p : Nat, p = 0 ∨ p = 1 ∨ p = 3 → p ≠ 3 ∨ chainPos s ≠ 0 → (port s p).lock = false → (port s p).up = false →
      Answers (.blockLockGained p) s fun t => (port t p).lock = true ∧ (port t p).helloOk = false ∧
      (port t p).up = false ∧ ((portEn s p && p != 3 && s.st.lcState != 5) = true →
      (port t p).lseqTx = ((port s p).lseqTx + 1) % 2 ^ 24 ∧
      (port t p).helloDue = lc s + usLc (rfld s (.ptCfg p) 4 12)) ∧
      ((portEn s p && p != 3 && s.st.lcState != 5) = false → (port t p).lseqTx = (port s p).lseqTx) ∧
      PortsBut [p] s t ∧ t = { s with pt := t.pt }) ∧
    (∀ p : Nat, p = 0 ∨ p = 1 ∨ p = 3 → p ≠ 3 ∨ chainPos s ≠ 0 → (port s p).hiber = true → (port s p).up = false →
      Answers (.highBerCleared p) s fun t => (port t p).hiber = false ∧
      (port t p).up = (portEn s p && (port s p).lock && !(port s p).lf && !(port s p).rf && (port s p).helloOk) ∧
      ((port t p).up = true → (port t p).linkup = ((port s p).linkup + 1) % 65536 ∧ (port t p).lseqTx = 0 ∧
      (port t p).lseqRx = 0 ∧ rbit t (.ptEvents p) 0 = true) ∧ PortsBut [p] s t ∧
      t = { s with pt := t.pt, regs := t.regs, acc := t.acc }) ∧
    (∀ p : Nat, p = 0 ∨ p = 1 ∨ p = 3 → p ≠ 3 ∨ chainPos s ≠ 0 → ((port s p).lf || (port s p).rf) = true →
      (port s p).up = false → Answers (.faultSetWindowEnd p) s fun t => (port t p).lf = false ∧
      (port t p).rf = false ∧
      (port t p).up = (portEn s p && (port s p).lock && !(port s p).hiber && (port s p).helloOk) ∧
      ((port t p).up = true → (port t p).linkup = ((port s p).linkup + 1) % 65536 ∧ (port t p).lseqTx = 0 ∧
      (port t p).lseqRx = 0 ∧ rbit t (.ptEvents p) 0 = true) ∧ PortsBut [p] s t ∧
      t = { s with pt := t.pt, regs := t.regs, acc := t.acc }) ∧
    (∀ (p : Nat) (f : LinkFrame), p = 0 ∨ p = 1 ∨ p = 3 → p ≠ 3 ∨ chainPos s ≠ 0 → (port s p).lock = true →
      portEn s p = true → linkOk p f = true → f.kind = 5 → (port s p).up = false →
      Answers (.helloReceived p f) s fun t => (port t p).helloOk = true ∧ (port t p).helloAt = lc s ∧
      (port t p).up = (!(port s p).hiber && !(port s p).lf && !(port s p).rf) ∧ ((port t p).up = true →
      (port t p).linkup = ((port s p).linkup + 1) % 65536 ∧ (port t p).lseqTx = 0 ∧ (port t p).lseqRx = 0 ∧
      rbit t (.ptEvents p) 0 = true) ∧ PortsBut [p] s t) ∧
    (∀ (p : Nat) (f : LinkFrame), p = 0 ∨ p = 1 ∨ p = 3 → p ≠ 3 ∨ chainPos s ≠ 0 → (port s p).lock = true →
      portEn s p = true → linkOk p f = true → f.kind = 5 → hi32 (f.body.headD 0) ≠ reg s (.ptPsess p) →
      Answers (.helloReceived p f) s fun t => reg t (.ptPsess p) = hi32 (f.body.headD 0) ∧
      rbit t (.ptEvents p) 2 = true ∧ PortsBut [p] s t) ∧
    (∀ p : Nat, p = 0 ∨ p = 1 ∨ p = 3 → p ≠ 3 ∨ chainPos s ≠ 0 → (port s p).helloOk = true →
      Answers (.helloTimeout p) s fun t => (port t p).helloOk = false ∧ (port t p).up = false ∧
      ((port s p).up = true → rbit t (.ptEvents p) 1 = true) ∧
      lc t = max (lc s) ((port s p).helloAt + usLc (rfld s (.ptCfg p) 16 16)) ∧ PortsBut [p] s t) ∧
    (∀ p : Nat, p = 0 ∨ p = 1 ∨ p = 3 → s.st.lcState ≠ 5 → portEn s p = true → p = 3 ∨ (port s p).lock = true →
      Answers (.helloSend p) s fun t => (port t p).lseqTx = ((port s p).lseqTx + 1) % 2 ^ 24 ∧
      (port t p).helloDue = max (lc s) (port s p).helloDue + usLc (rfld s (.ptCfg p) 4 12) ∧
      (port t p).up = (port s p).up ∧ lc t = max (lc s) (port s p).helloDue ∧ PortsBut [p] s t ∧
      t = { s with now := t.now, pt := t.pt }) ∧
    (∀ why : DownCause, chainPos s = 0 → Answers (.linkDown 3 why) s fun t => t = s) ∧
    (chainPos s = 0 → Answers (.blockLockGained 3) s fun t => t = s) ∧
    (chainPos s = 0 → Answers (.highBerCleared 3) s fun t => t = s) ∧
    (chainPos s = 0 → Answers (.faultSetWindowEnd 3) s fun t => t = s) ∧
    (∀ f : LinkFrame, chainPos s = 0 → Answers (.helloReceived 3 f) s fun t => t = s) ∧
    (chainPos s = 0 → Answers (.helloTimeout 3) s fun t => t = s) ∧
    (∀ p : Nat, p = 0 ∨ p = 1 ∨ p = 3 → s.st.lcState = 5 → Answers (.helloSend p) s fun t => t = s)

/-- A PAUSE stops sending for its quanta of 64 lane cycles, one of 0 quanta ends the pause, as its end does; the device pauses its partner when less than 24 KiB of its command buffer is free and ends that when 40 KiB are; the oldest response of a port that may respond is sent. The model's own choices behind it: log entries 3, 4, 49. -/
def Obligations.PortFlow : Prop :=
  ∀ s : State, s.released = true →
    (∀ (p q : Nat), p < 2 → q < 65536 → (port s p).up = true →
      Answers (.pauseReceived p q) s fun t => (port t p).pausedTo = (if q = 0 then none else some (lc s + 64 * q)) ∧
      (port t p).lseqRx = ((port s p).lseqRx + 1) % 2 ^ 24 ∧ PortsBut [p] s t ∧ t = { s with pt := t.pt }) ∧
    (∀ (p n : Nat), p < 2 → (port s p).pausedTo = some n →
      Answers (.pauseEnd p) s fun t => (port t p).pausedTo = none ∧ (port t p).rest = (port s p).rest ∧
      lc t = max (lc s) n ∧ PortsBut [p] s t ∧ t = { s with now := t.now, pt := t.pt }) ∧
    (∀ p : Nat, p < 2 → s.st.lcState ≠ 5 → portEn s p = true → (port s p).lock = true → (port s p).xoff = false →
      bufFree s p < 24576 → Answers (.pauseSend p) s fun t => (port t p).xoff = true ∧ (port t p).xoffAt = lc s ∧
      (port t p).lseqTx = ((port s p).lseqTx + 1) % 2 ^ 24 ∧ PortsBut [p] s t ∧ t = { s with pt := t.pt }) ∧
    (∀ p : Nat, p < 2 → s.st.lcState ≠ 5 → portEn s p = true → (port s p).lock = true → (port s p).xoff = true →
      40960 ≤ bufFree s p → Answers (.pauseSend p) s fun t => (port t p).xoff = false ∧
      (port t p).lseqTx = ((port s p).lseqTx + 1) % 2 ^ 24 ∧ PortsBut [p] s t ∧ t = { s with pt := t.pt }) ∧
    (∀ p : Nat, p < 2 → s.st.lcState ≠ 5 → portEn s p = true → (port s p).lock = true → (port s p).xoff = true →
      bufFree s p < 40960 → Answers (.pauseSend p) s fun t => (port t p).xoff = true ∧ (port t p).xoffAt = lc t ∧
      lc t = max (lc s) ((port s p).xoffAt + 4096) ∧ (port t p).lseqTx = ((port s p).lseqTx + 1) % 2 ^ 24 ∧
      PortsBut [p] s t ∧ t = { s with now := t.now, pt := t.pt }) ∧
    (∀ p : Nat, p < 2 → s.st.lcState ≠ 5 → portEn s p = true → (port s p).lock = true → (port s p).xoff = false →
      24576 ≤ bufFree s p → Answers (.pauseSend p) s fun t => t = s) ∧
    (∀ (path : Path) (p : Nat) (ws : List W64) (rest : List (List W64)), portNo path = some p →
      mayRespond s p = true → (port s p).resps = ws :: rest →
      Answers (.responseSend path) s fun t => (port t p).resps = rest ∧
      (port t p).sending = some (.response, startLc s p + 2 * ws.length) ∧ (port t p).tx = ws ∧
      (port t p).lseqTx = ((port s p).lseqTx + 1) % 2 ^ 24 ∧ lc t = startLc s p ∧ PortsBut [p] s t ∧
      t = { s with now := t.now, pt := t.pt })

/-- Character lock stores the phase; its loss is reported, as is the loss of alignment; a trigger word with a correct check is released 108 lane cycles later into the trigger list and counted, one without is counted and dropped; a frame mark that matches restarts the count of frames, one that does not is reported; a broadcast joins the list of 16 or is lost. The model's own choices behind it: log entries 3, 4, 44, 52. -/
def Obligations.TtcStream : Prop :=
  ∀ s : State, s.released = true →
    (∀ ph : Nat, ph < 64 → ttcEn s = true → s.ttc.lock = false →
      Answers (.characterLock ph) s fun t => t = { s with ttc := { s.ttc with lock := true, phase := ph, matched := false } }) ∧
    (s.ttc.lock = true → Answers (.lockLost) s fun t => t.ttc = { s.ttc with lock := false, matched := false } ∧
      rbit t .ptTtcEvents 0 = true ∧ (ttcAligned s = true → rbit t .ptTtcEvents 1 = true ∧
      t.fr.flags = s.fr.flags ||| 8) ∧ (ttcAligned s = false → t.fr = s.fr) ∧ RegsBut [regAddr .ptTtcEvents] s t ∧
      t = { s with regs := t.regs, ttc := t.ttc, fr := t.fr, acc := t.acc }) ∧
    (∀ (code : BitVec 16) (time : W64) (ck : BitVec 16), ttcTakes s = true →
      crc16 (bytesOf 2 code.toNat ++ bytesOf 8 time.toNat) = ck →
      Answers (.triggerWord code time ck) s fun t => t = { s with ttc := { s.ttc with release := s.ttc.release ++ [(lc s + 108, time, code)] } }) ∧
    (∀ (code : BitVec 16) (time : W64) (ck : BitVec 16), ttcTakes s = true →
      crc16 (bytesOf 2 code.toNat ++ bytesOf 8 time.toNat) ≠ ck →
      Answers (.triggerWord code time ck) s fun t => rbit t .ptTtcEvents 2 = true ∧ t.ttc = s.ttc ∧
      t = { s with regs := t.regs, fl := t.fl, acc := t.acc }) ∧
    (∀ (n : Nat) (code : BitVec 16) (time : W64) (rest : List (Nat × W64 × BitVec 16)), s.ttc.release = (n, time, code) :: rest →
      Answers (.triggerRelease) s fun t => t.ttc.release = rest ∧ (s.fr.running = true → s.sp.trigs.length < 1024 →
      (t.sp.trigs.any fun g => g.time == time && g.src == 0 && g.code == code) = true) ∧ (s.fr.running = false →
      t.sp = s.sp) ∧ lc t = max (lc s) n ∧ t.tn = s.tn) ∧
    (∀ (fm : BitVec 48) (ck : BitVec 16), ttcTakes s = true → crc16 (bytesOf 6 fm.toNat) = ck → s.fr.running = true →
      markMatched s fm.toNat = true →
      Answers (.frameMark fm ck) s fun t => t = { s with ttc := { s.ttc with matched := true, ticks := 0 } }) ∧
    (∀ (fm : BitVec 48) (ck : BitVec 16), ttcTakes s = true → crc16 (bytesOf 6 fm.toNat) = ck → s.fr.running = true →
      markMatched s fm.toNat = false → Answers (.frameMark fm ck) s fun t => t.ttc = { s.ttc with matched := false } ∧
      rbit t .ptTtcEvents 3 = true ∧ (ttcAligned s = true → rbit t .ptTtcEvents 1 = true) ∧
      t = { s with regs := t.regs, fl := t.fl, ttc := t.ttc, fr := t.fr, acc := t.acc }) ∧
    (∀ (fm : BitVec 48) (ck : BitVec 16), ttcTakes s = true → crc16 (bytesOf 6 fm.toNat) ≠ ck →
      Answers (.frameMark fm ck) s fun t => t = s) ∧
    (∀ (code : W8) (arg ck : BitVec 16), ttcTakes s = true →
      crc16 (bytesOf 1 code.toNat ++ bytesOf 2 arg.toNat) = ck → s.ttc.bc.length < 16 →
      Answers (.broadcast code arg ck) s fun t => t = { s with ttc := { s.ttc with bc := s.ttc.bc ++ [at32 1 31 ||| at32 code.toNat 16 ||| at32 arg.toNat 0] } }) ∧
    (∀ (code : W8) (arg ck : BitVec 16), ttcTakes s = true →
      crc16 (bytesOf 1 code.toNat ++ bytesOf 2 arg.toNat) = ck → 16 ≤ s.ttc.bc.length →
      Answers (.broadcast code arg ck) s fun t => t.ttc = s.ttc ∧ rbit t .ptTtcEvents 4 = true ∧
      RegsBut [regAddr .ptTtcEvents] s t ∧ t = { s with regs := t.regs, acc := t.acc }) ∧
    (∀ (code : W8) (arg ck : BitVec 16), ttcTakes s = true →
      crc16 (bytesOf 1 code.toNat ++ bytesOf 2 arg.toNat) ≠ ck → Answers (.broadcast code arg ck) s fun t => t = s)

/-- An RC register updated in the lane cycle of the read returns the value before the update and keeps the update (R15). For an issuer that may read it: CL_BUD_SYS_MIN is answered and returns to 0xFFFF, TB_PHERR_MAX to 0; the heads of the drop log, the failure log, the broadcast list, the log of self-test failures and of overflows are answered and removed; BY_RRAM_DATA steps its address; RG_RES0 latches the other result words, and the low word of a pair or of data memory its high word. A counter that increments in the lane cycle of the read is answered with its old value. Without the right 0 is answered and nothing changes. What is due in that lane cycle has come about before the read (upToNow; the model's choice, log entry 4). The model's own choices behind it: log entries 3, 4, 7, 46, 68. -/
def Obligations.ReadsThatAct : Prop :=
  ∀ s : State, s.released = true →
    (∀ (who : Who) (u : State) (c : Nat), u = upToNow s → c < 32 → outOfService u c = false →
      mayRead u who.tenant (.clBudSysMin c) = true →
      Answers (.clBudSysMinRead who c) s fun t => t.busData = [((rcNow u (.clBudSysMin c)).map (·.1)).getD (reg u (.clBudSysMin c))] ∧
      reg t (.clBudSysMin c) = ((rcNow u (.clBudSysMin c)).map (·.2)).getD 0xFFFF ∧
      RegsBut [regAddr (.clBudSysMin c)] u t ∧ t = { u with regs := t.regs, busData := t.busData, acc := t.acc }) ∧
    (∀ (who : Who) (u : State), u = upToNow s →
      Answers (.tbPherrMaxRead who) s fun t => t.busData = [((rcNow u .tbPherrMax).map (·.1)).getD (reg u .tbPherrMax)] ∧
      reg t .tbPherrMax = ((rcNow u .tbPherrMax).map (·.2)).getD 0 ∧ RegsBut [regAddr .tbPherrMax] u t ∧
      t = { u with regs := t.regs, busData := t.busData, acc := t.acc }) ∧
    (∀ (who : Who) (u : State) (k : Nat), u = upToNow s → k < 256 → outOfService u (pulseCl k) = false →
      mayRead u who.tenant (.lnDropLog k) = true →
      Answers (.lnDropLogRead who k) s fun t => t.busData = [headWord (pulse u k).dropLog] ∧
      (pulse t k).dropLog = (pulse u k).dropLog.tail ∧ (pulse t k).queue = (pulse u k).queue ∧ PulsesBut [k] u t ∧
      t = { u with pl := t.pl, busData := t.busData }) ∧
    (∀ (who : Who) (u : State) (k : Nat), u = upToNow s → k < 256 → outOfService u (pulseCl k) = false →
      mayRead u who.tenant (.lnDropLog k) = false →
      Answers (.lnDropLogRead who k) s fun t => t = { u with busData := [0] }) ∧
    (∀ (who : Who) (u : State) (k : Nat), u = upToNow s → k < 256 → outOfService u (stampCl k) = false →
      mayRead u who.tenant (.rgRes k 0) = true →
      Answers (.rgRes0Read who k) s fun t => t.busData = [rgResWord u k 0] ∧
      ((List.range 10).all fun i => i == 0 || shadowAt t who.path (regAddr (.rgRes k i)) == rgResWord u k i) = true ∧
      t = { u with shadow := t.shadow, busData := t.busData }) ∧
    (∀ (who : Who) (u : State), u = upToNow s → who.tenant = 0 →
      Answers (.tnFailLogRead who) s fun t => t.busData = [headWord u.tn.failLog] ∧
      t.tn = { u.tn with failLog := u.tn.failLog.tail } ∧ t = { u with tn := t.tn, busData := t.busData }) ∧
    (∀ (who : Who) (u : State), u = upToNow s → who.tenant = 0 →
      Answers (.ptTtcBcRead who) s fun t => t.busData = [headWord u.ttc.bc] ∧
      t.ttc = { u.ttc with bc := u.ttc.bc.tail } ∧ t = { u with ttc := t.ttc, busData := t.busData }) ∧
    (∀ (who : Who) (u : State), u = upToNow s → who.tenant = 0 →
      Answers (.stAstLogRead who) s fun t => t.busData = [headWord u.st.astLog] ∧
      t.st = { u.st with astLog := u.st.astLog.tail } ∧ t = { u with st := t.st, busData := t.busData }) ∧
    (∀ (who : Who) (u : State), u = upToNow s → who.tenant = 0 →
      Answers (.flOvfLogRead who) s fun t => t.busData = [headWord u.fl.ovfLog] ∧
      t.fl = { u.fl with ovfLog := u.fl.ovfLog.tail } ∧ t = { u with fl := t.fl, busData := t.busData }) ∧
    (∀ (who : Who) (u : State), u = upToNow s → who.tenant = 0 →
      Answers (.byRramDataRead who) s fun t => t.busData = [rramGet u (rramIdx u)] ∧
      rfld t .byRramAddr 2 10 = (rramIdx u + 1) % 1024 ∧ RegsBut [regAddr .byRramAddr] u t ∧
      t = { u with regs := t.regs, busData := t.busData, acc := t.acc }) ∧
    (∀ (who : Who) (u : State) (a : Nat) (r h : Reg) (v : W64), u = upToNow s → a < 2 ^ 31 →
      (clusterAt a).any (outOfService u) = false → memAt a = none → regOfAddr a = some r →
      mayRead u who.tenant (r) = true → readsShadow r = false → highOf r = some h → wide u who.tenant r = some v →
      Answers (.lowWordRead who a) s fun t => t.busData = [regView u who.tenant r] ∧
      shadowAt t who.path (regAddr h) = hi32 v ∧ t = { u with shadow := t.shadow, busData := t.busData }) ∧
    (∀ (who : Who) (u : State) (a c i : Nat), u = upToNow s → a < 2 ^ 31 → outOfService u c = false →
      memAt a = some (c, true, i, false) → memReads u who.tenant c true i = true →
      (cluster u c).dmemBad.contains i = false →
      Answers (.lowWordRead who a) s fun t => t.busData = [lo32 (tget 0 i (cluster u c).dmem)] ∧
      shadowAt t who.path (a + 4) = hi32 (tget 0 i (cluster u c).dmem) ∧
      t = { u with shadow := t.shadow, busData := t.busData }) ∧
    (∀ (who : Who) (u : State) (a : Nat), u = upToNow s → a < 2 ^ 31 →
      Answers (.lowWordRead who (2 ^ 31 + a)) s fun t => t = { u with busData := t.busData }) ∧
    (∀ (who : Who) (u : State) (r : Reg), u = upToNow s → (clusterAt (regAddr r)).any (outOfService u) = false →
      memAt (regAddr r) = none → regAddr r < 2 ^ 31 → regOfAddr (regAddr r) = some r → isCounter r = true →
      highOf r = none → mayRead u who.tenant (r) = true →
      Answers (.lowWordRead who (regAddr r)) s fun t => t = { u with busData := [((((accNow u).olds.find? fun p => p.1 == regAddr r)).map (·.2)).getD (regView u who.tenant r)] })

/-- For every register address A and every issuer, a read at A | 0x8000_0000 is answered with the value that a read at A is answered with, and, where nothing else is due in that lane cycle, leaves every other part of the state as it was: nothing clears, nothing pops, no word is latched. -/
def Obligations.PeekReads : Prop :=
  ∀ s : State, s.released = true →
    (∀ (who : Who) (a : Nat) (r : Reg), a < 2 ^ 31 → regOfAddr a = some r →
      Answers (.lowWordRead who (2 ^ 31 + a)) s fun t => (upToNow s = s → t = { s with busData := t.busData }) ∧
      t.busData.length = 1 ∧ Answers (.lowWordRead who a) s (fun u => u.busData = t.busData))

/-- A read returns the registers of the Byre from an offset on; 1 to 16 words enter the empty write buffer and apply one in a keeper cycle from the second edge, one that names no register is reported; STATUS returns its four bits; a command is taken where none is; RSP returns the response and clears it. The model's own choices behind it: log entries 3, 4, 7, 53. -/
def Obligations.MspiTransfers : Prop :=
  ∀ s : State,
    (∀ (o n : Nat), o < 65536 → Answers (.mspiRead o n) s fun t => t.mspi.out.length = n ∧ (∀ i, i < n →
      t.mspi.out.getD i 0 = (match regOfAddr (0x700000 + o + 4 * i) with | some r => regView s 0 r | none => 0)) ∧
      t.mspi = { s.mspi with out := t.mspi.out } ∧ t = { s with mspi := t.mspi }) ∧
    (∀ (o : Nat) (l : List W32), o < 65536 → s.mspi.wbuf = [] → 1 ≤ l.length → l.length ≤ 16 →
      Answers (.mspiWrite o l) s fun t => t.mspi = { s.mspi with wbuf := t.mspi.wbuf, applyAt := s.byre.kc + 2 } ∧
      t.mspi.wbuf.length = l.length ∧ (∀ i, i < l.length →
      t.mspi.wbuf.getD i (0, 0) = (o + 4 * i, onesSet s (0x700000 + o + 4 * i) (l.getD i 0))) ∧
      t = { s with mspi := t.mspi }) ∧
    (∀ (o : Nat) (l : List W32), o < 65536 → s.mspi.wbuf ≠ [] ∨ l = [] ∨ 16 < l.length →
      Answers (.mspiWrite o l) s fun t => t = s) ∧
    (∀ (o : Nat) (v : W32) (l : List (Nat × W32)), s.mspi.wbuf = (o, v) :: l → s.byre.mirror = [] →
      (match regOfAddr (0x700000 + o) with | some r => mspiMay s r | none => false) = false →
      Answers (.mspiWriteApply) s fun t => t.mspi = { s.mspi with wbuf := l, applyAt := s.mspi.applyAt + 1 } ∧
      rbit t .byEvents 7 = true ∧ t.byre = { s.byre with kc := max s.byre.kc s.mspi.applyAt } ∧
      t = { s with regs := t.regs, byre := t.byre, mspi := t.mspi, acc := t.acc }) ∧
    (∀ (o : Nat) (v : W32) (l : List (Nat × W32)), s.mspi.wbuf = (o, v) :: l → s.byre.mirror = [] →
      0x700000 + o = regAddr .byKtReload → rbit s .byCfg 31 = false →
      Answers (.mspiWriteApply) s fun t => t.mspi = { s.mspi with wbuf := l, applyAt := s.mspi.applyAt + 1 } ∧
      reg t .byKtReload = (if v = 0 then 1 else v) ∧ RegsBut [regAddr .byKtReload] s t ∧
      t = { s with regs := t.regs, byre := t.byre, mspi := t.mspi, acc := t.acc }) ∧
    (Answers (.mspiStatus) s fun t => t.mspi.out = [at32 (b2n s.byre.ready + 2 * b2n (!s.mspi.wbuf.isEmpty) + 4 * b2n s.mspi.cmdBusy + 8 * b2n s.mspi.rsp.isSome) 0] ∧
      t = { s with mspi := t.mspi }) ∧
    (∀ (n : Nat) (l : List W64), s.released = true → n = 8 * l.length → s.byre.ready = true → s.mspi.cmdBusy = false →
      wellFormed l = true → canVerify s = false →
      Answers (.mspiCmd n l) s fun t => t.mspi = { s.mspi with cmdBusy := true, cmd := some l } ∧
      t = { s with mspi := t.mspi }) ∧
    (∀ (n : Nat) (l : List W64), n ≠ 8 * l.length ∨ s.mspi.cmdBusy = true ∨ wellFormed l = false ∨ s.byre.ready = false →
      Answers (.mspiCmd n l) s fun t => t = s) ∧
    (Answers (.mspiRsp) s fun t => (∀ ws, s.mspi.rsp = some ws →
      t.mspi = { s.mspi with rsp := none, out := 1 :: ws.flatMap fun w => [hi32 w, lo32 w] }) ∧ (s.mspi.rsp = none →
      t.mspi.out = [0]) ∧ t = { s with mspi := t.mspi })

/-- With the rails up an instruction that is available captures its register and takes its effect: EXTEST and SAMPLE take the boundary cells, SCANSEL selects a chain and enters scan mode with the core stopped in the safe state, SCANSHIFT and SCANCLK act on chains, ASTRUN begins a self-test, ASTRD returns a log entry, OTPRD and OTPWR read a word of the OTP and blow its fuses, LCADV starts a transition; Test-Logic-Reset ends scan mode with a cold start. The model's own choices behind it: log entries 3, 4, 7, 54, 62, 64. -/
def Obligations.JtagInstructions : Prop :=
  ∀ s : State,
    (∀ (cells : BitVec 540), tapOn s = true → boundaryOn s = true →
      Answers (.extest cells) s fun t => t.jtag = { s.jtag with ir := 0x00, out := (capturedCells s).1, boundary := cells } ∧
      t.free = s.free + 1 ∧ t = { s with jtag := t.jtag, free := t.free }) ∧
    (∀ (cells : BitVec 540), tapOn s = true → s.st.lcState ≠ 5 →
      Answers (.samplePreload cells) s fun t => t.jtag = { s.jtag with ir := 0x01, out := (capturedCells s).1, boundary := cells } ∧
      t.free = s.free + 1 ∧ t = { s with jtag := t.jtag, free := t.free }) ∧
    (∀ (cells : BitVec 540), tapOn s = true → boundaryOn s = false →
      Answers (.extest cells) s fun t => t.jtag = { s.jtag with ir := 0x00, out := 0 } ∧
      t = { s with jtag := t.jtag }) ∧
    (tapOn s = true → Answers (.idcode) s fun t => t.jtag = { s.jtag with ir := 0x02, out := 0x30512A6F } ∧
      t = { s with jtag := t.jtag }) ∧
    (tapOn s = true → boundaryOn s = true →
      Answers (.clamp) s fun t => t.jtag = { s.jtag with ir := 0x03, out := 0 } ∧ t = { s with jtag := t.jtag }) ∧
    (tapOn s = true → boundaryOn s = true →
      Answers (.highz) s fun t => t.jtag = { s.jtag with ir := 0x04, out := 0 } ∧ t = { s with jtag := t.jtag }) ∧
    (tapOn s = true → Answers (.bypass) s fun t => t.jtag = { s.jtag with ir := 0xFF, out := 0 } ∧
      t = { s with jtag := t.jtag }) ∧
    (∀ n : Nat, n < 64 → tapOn s = true → scanOn s = true → s.released = true → s.jtag.scanMode = false →
      Answers (.scansel n) s fun t => t.jtag.ir = 0x80 ∧ t.jtag.chain = n ∧ t.jtag.scanMode = true ∧
      t.released = false ∧ t.byre.ready = false ∧ fld t.byre.safe 4 1 = 1 ∧ t.st.lbPend = 0 ∧ t.cx = s.cx) ∧
    (∀ n : Nat, n < 64 → tapOn s = true → scanOn s = false →
      Answers (.scansel n) s fun t => t.jtag = { s.jtag with ir := 0x80, out := 0 } ∧ t = { s with jtag := t.jtag }) ∧
    (∀ b : W64, scanOn s = true → s.jtag.scanMode = true → Answers (.scanshift b) s fun t => t.jtag.ir = 0x81 ∧
      tget 0 s.jtag.chain t.jtag.chains = b ∧ t.jtag.scanMode = true ∧ t.free = s.free + 1 ∧
      t = { s with jtag := t.jtag, free := t.free }) ∧
    (∀ p : Bool, tapOn s = true → scanOn s = true → s.jtag.scanMode = true →
      Answers (.scanclk p) s fun t => t.jtag = { s.jtag with ir := 0x82, out := 0, chains := if p then [] else s.jtag.chains } ∧
      t = { s with jtag := t.jtag }) ∧
    (∀ m : Nat, m < 256 → m % 64 ≠ 0 → tapOn s = true → astOn s = true → s.released = true → s.st.astTodo = [] →
      Answers (.astrun m) s fun t => t.jtag = { s.jtag with ir := 0x90, out := BitVec.ofNat 540 (rfld s .stAst 0 8) } ∧
      t.st.astTodo = (List.range 6).filter (fun i => m % 64 / 2 ^ i % 2 == 1) ∧ t.st.astSrc = 2 ∧ t.st.astLog = [] ∧
      reg t .stAst = 0) ∧
    (tapOn s = true → astOn s = true →
      Answers (.astrd) s fun t => t.jtag = { s.jtag with ir := 0x91, out := (cat64 (headWord s.st.astLog) (reg s .stAst)).setWidth 540 } ∧
      t.st = { s.st with astLog := s.st.astLog.tail } ∧ t = { s with jtag := t.jtag, st := t.st }) ∧
    (∀ a : Nat, a < 65536 → tapOn s = true → s.st.lcState ≠ 5 →
      Answers (.otprd a) s fun t => t.jtag = { s.jtag with ir := 0xA0, out := (otpMapWord s a).setWidth 540 } ∧
      t = { s with jtag := t.jtag }) ∧
    (∀ (a : Nat) (v : W32), a < 65536 → tapOn s = true → s.st.lcState = 0 ∨ s.st.lcState = 1 →
      Answers (.otpwr a v) s fun t => otpMapWord t a = otpMapWord s a ||| v ∧ (∀ b, b ≠ a →
      otpMapWord t b = otpMapWord s b) ∧ (∀ r : Reg, regAddr r < 2 ^ 40 → otpReg t r = otpReg s r) ∧
      t.jtag = { s.jtag with ir := 0xB1, out := 0 } ∧ t = { s with jtag := t.jtag, otp := t.otp }) ∧
    (∀ g : Nat, g < 8 → tapOn s = true → s.st.lcState ≠ 5 → s.released = true → lcadvListed s g = true →
      noTransition s = true → Answers (.lcadv g) s fun t => t.jtag = { s.jtag with ir := 0xB0, out := 1 } ∧ (g ≠ 1 →
      t.st.trans = .toPurge g (lc s)) ∧ (g = 1 → t.st.trans = .blowing 1 (lc s + 625000) false)) ∧
    (∀ g : Nat, g < 8 → tapOn s = true → lcadvListed s g = false ∨ noTransition s = false →
      Answers (.lcadv g) s fun t => t.jtag = { s.jtag with ir := 0xB0, out := 0 } ∧ t = { s with jtag := t.jtag }) ∧
    (Answers (.testLogicReset) s fun t => t.jtag = Jtag.reset ∧ (s.jtag.scanMode = true → t.released = false ∧
      t.byre.state = .reset ∧ t.byre.cause = 5) ∧ (s.jtag.scanMode = false → t = { s with jtag := Jtag.reset }))

/-- The power-on reset of the Byre leaves its registers at reset and the MRAM and OTP as they were; the enables rise one a step and after the last the core is released in START; they fall one a step down to SLEEP; a power-good failure, a brown-out and the end of a drain lower them with the core held; a brown-out may restart after it. The wake record is written at the end of a drain. The model's own choices behind it: log entries 3, 4, 6, 9, 10, 58, 61. -/
def Obligations.PowerSequence : Prop :=
  ∀ s : State,
    (Answers (.byrePowerOnReset) s fun t => t.released = false ∧ t.regs = [] ∧ t.byre = Byre.reset ∧
      t.jr.halfA = s.jr.halfA ∧ t.jr.halfB = s.jr.halfB ∧ t.tn.keys = s.tn.keys ∧ t.otp = s.otp ∧
      t.st.fuses = s.st.fuses ∧ t.cx = [] ∧ t.pl = [] ∧ t.pending = s.pending) ∧
    (s.byre.state = .powerup → s.byre.pwren = 0 →
      Answers (.powerStep) s fun t => t.byre = { s.byre with pwren := 1, kc := max s.byre.kc (s.byre.stepAt + 1), stepAt := max s.byre.kc (s.byre.stepAt + 1) } ∧
      t = { s with byre := t.byre }) ∧
    (s.byre.state = .powerup → s.byre.pwren = 1 →
      Answers (.powerStep) s fun t => t.byre = { s.byre with pwren := 3, rails := s.byre.rails ||| railsOf 1, kc := max s.byre.kc (s.byre.stepAt + 1 + rfld s .byPseq 0 8), stepAt := max s.byre.kc (s.byre.stepAt + 1 + rfld s .byPseq 0 8) } ∧
      t = { s with byre := t.byre }) ∧
    (s.byre.state = .powerup → s.byre.pwren = 3 →
      Answers (.powerStep) s fun t => t.byre = { s.byre with pwren := 7, rails := s.byre.rails ||| railsOf 2, kc := max s.byre.kc (s.byre.stepAt + 1 + rfld s .byPseq 0 8), stepAt := max s.byre.kc (s.byre.stepAt + 1 + rfld s .byPseq 0 8) } ∧
      t = { s with byre := t.byre }) ∧
    (s.byre.state = .powerup → s.byre.pwren = 7 →
      Answers (.powerStep) s fun t => t.byre = { s.byre with pwren := 15, rails := s.byre.rails ||| railsOf 3, kc := max s.byre.kc (s.byre.stepAt + 1 + rfld s .byPseq 0 8), stepAt := max s.byre.kc (s.byre.stepAt + 1 + rfld s .byPseq 0 8) } ∧
      t = { s with byre := t.byre }) ∧
    (s.byre.state = .powerup → s.byre.pwren = 15 → Answers (.powerStep) s fun t => t.released = true ∧
      t.byre.state = .start ∧ t.byre.boot = (s.byre.boot + 1) % 2 ^ 32 ∧ t.byre.rails = s.byre.rails ||| railsOf 4 ∧
      t.byre.kc = max s.byre.kc (s.byre.stepAt + 1 + rfld s .byPseq 0 8) ∧ t.now = 0 ∧ t.cx = [] ∧
      t.pending = s.pending ∧ fld (rramGet t 0) 31 1 = 0 ∧
      (t.byre.warm = ((s.byre.cause == 6 || s.byre.cause == 7) && bitAt (rramGet s 0) 31 && rbit s .byCfg 4))) ∧
    (s.byre.state = .powerup → s.byre.pwren >>> 1 ≠ (0 : BitVec 4) →
      Answers (.powerGoodTimeout) s fun t => rbit t .byEvents 5 = true ∧ t.byre.state = .powerdown ∧
      t.byre.pwren = s.byre.pwren >>> 1 ∧ t.released = false ∧ t.pending = s.pending ∧ t.jr.halfB = s.jr.halfB) ∧
    (s.byre.state = .powerdown → s.byre.wpend = none →
      Answers (.powerDownStep) s fun t => (s.byre.pwren >>> 1 ≠ (0 : BitVec 4) → t.byre.state = .powerdown) ∧
      (s.byre.pwren >>> 1 = (0 : BitVec 4) → t.byre.state = .sleep ∧ t.byre.rails = 0 ∧ rbit t .byEvents 1 = true ∧
      t.byre.sleptAt = t.byre.kc ∧ t.jtag = Jtag.reset) ∧ t.byre.pwren = s.byre.pwren >>> 1 ∧
      t.byre.kc = max s.byre.kc (s.byre.stepAt + rfld s .byPseq 0 8) ∧
      t = { s with jtag := t.jtag, regs := t.regs, byre := t.byre, acc := t.acc }) ∧
    (∀ w : WakeHeld, s.byre.state = .powerdown → s.byre.pwren >>> 1 = (0 : BitVec 4) → s.byre.wpend = some w →
      Answers (.powerDownStep) s fun t => t.byre.state = .powerup ∧ t.byre.cause = w.cause ∧
      rbit t .byEvents 0 = true ∧ rramGet t 1 = at32 w.cause 28 ||| at32 w.mask 8) ∧
    (∀ lost : BitVec 6, lost ≠ 0 → s.released = true → s.byre.pwren >>> 1 ≠ (0 : BitVec 4) →
      Answers (.brownout lost) s fun t => rbit t .byEvents 4 = true ∧ fld t.byre.safe 5 1 = 1 ∧
      t.byre.rails = s.byre.rails &&& ~~~lost ∧ t.byre.downFor = (if rbit s .byCfg 8 then some 4 else none) ∧
      t.byre.state = .powerdown ∧ t.byre.pwren = s.byre.pwren >>> 1 ∧ t.released = false ∧ t.pending = s.pending) ∧
    (∀ n : Nat, s.byre.state = .sleep → s.byre.restartAt = some n →
      Answers (.brownoutRestart) s fun t => t.byre.state = .powerup ∧ t.byre.cause = 4 ∧ t.byre.restartAt = none ∧
      t.byre.pwren = 0 ∧ rramGet t 1 = at32 4 28 ∧ t.byre.kc = max s.byre.kc n ∧ t = { s with byre := t.byre }) ∧
    (s.byre.state = .drain → writerWorks s = false → s.byre.pwren >>> 1 ≠ (0 : BitVec 4) →
      Answers (.drainComplete) s fun t => fld (rramGet t 0) 31 1 = 1 ∧ (∀ i, i < s.byre.drainSave.length →
      rramGet t (5 + i) = s.byre.drainSave.getD i 0) ∧ t.byre.state = .powerdown ∧ t.byre.pwren = s.byre.pwren >>> 1 ∧
      t.released = false ∧ t.pending = s.pending ∧ t.jr.halfB = s.jr.halfB ∧ t.byre.kc = s.byre.kc + 2) ∧
    (s.byre.state = .drain → s.byre.pwren >>> 1 ≠ (0 : BitVec 4) →
      Answers (.drainTimeout) s fun t => fld (rramGet t 0) 31 1 = 1 ∧ (∀ i, i < s.byre.drainSave.length →
      rramGet t (5 + i) = s.byre.drainSave.getD i 0) ∧ t.byre.state = .powerdown ∧ t.byre.pwren = s.byre.pwren >>> 1 ∧
      t.released = false ∧ t.pending = s.pending ∧ (writerWorks s = true → rbit t .byEvents 6 = true ∧
      t.jr.cur = none))

/-- SLEEP begins the drain, OFF lowers the rails, WAKE in SLEEP starts a power-up, HRESET and RST_N hold the core in reset with their cause, each with its key where it needs one; after the reset the core is released or the power-up goes on; READY rises once every step is complete and the TS is locked, or after the lock timeout with NOLOCK. SAFE_N and GATE_ALL set their causes of the safe state. The model's own choices behind it: log entries 3, 4, 10, 16, 33, 34, 58, 59, 61. -/
def Obligations.ResetsAndStarts : Prop :=
  ∀ s : State,
    (∀ src : ByPath, ByMay s src = true → s.byre.mirror = [] → outranked (toKc (s.byre.kc + 2) s) 5 = false →
      s.byre.state = .run → Answers (.sleep src 0xA5) s fun t => t.byre.state = .drain ∧ t.byre.ready = false ∧
      fld t.byre.safe 2 1 = 1 ∧ t.byre.drainAt = s.byre.kc + 2 ∧ t.st.lbPend = 0 ∧ t.cx = s.cx ∧ t.jr = s.jr) ∧
    (∀ src : ByPath, ByMay s src = true → s.byre.mirror = [] → outranked (toKc (s.byre.kc + 2) s) 4 = false →
      s.byre.state ≠ .sleep → s.byre.state ≠ .powerdown → s.byre.pwren >>> 1 ≠ (0 : BitVec 4) →
      Answers (.off src 0xA5) s fun t => t.byre.state = .powerdown ∧ t.byre.pwren = s.byre.pwren >>> 1 ∧
      fld t.byre.safe 2 1 = 1 ∧ t.released = false ∧ t.jr.cur = none) ∧
    (∀ (src : ByPath) (k : W8), ByMay s src = true → s.byre.mirror = [] → k ≠ 0xA5 →
      Answers (.sleep src k) s fun t => rbit t .byEvents 7 = true ∧ t.byre = { s.byre with kc := s.byre.kc + 2 } ∧
      RegsBut [regAddr .byEvents] s t ∧ t.released = s.released ∧ t.jr = s.jr) ∧
    (∀ (src : ByPath) (k : W8), ByMay s src = true → s.byre.mirror = [] → k ≠ 0xA5 →
      Answers (.off src k) s fun t => rbit t .byEvents 7 = true ∧ t.byre = { s.byre with kc := s.byre.kc + 2 } ∧
      RegsBut [regAddr .byEvents] s t ∧ t.released = s.released ∧ t.jr = s.jr) ∧
    (∀ (src : ByPath) (k : W8), ByMay s src = true → s.byre.mirror = [] → k ≠ 0xA5 →
      Answers (.hreset src k) s fun t => rbit t .byEvents 7 = true ∧ t.byre = { s.byre with kc := s.byre.kc + 2 } ∧
      RegsBut [regAddr .byEvents] s t ∧ t.released = s.released ∧ t.jr = s.jr) ∧
    (∀ src : ByPath, ByMay s src = true → s.byre.mirror = [] → outranked (toKc (s.byre.kc + 2) s) 3 = false →
      s.byre.state ≠ .sleep → s.byre.state ≠ .powerdown →
      Answers (.hreset src 0xA5) s fun t => t.byre.state = .reset ∧ t.byre.cause = 3 ∧
      t.byre.resetEnd = some (s.byre.kc + 2 + 6) ∧ rbit t .byEvents 2 = true ∧ fld t.byre.safe 3 1 = 1 ∧
      t.released = false) ∧
    (∀ src : ByPath, ByMay s src = true → s.byre.mirror = [] → outranked (toKc (s.byre.kc + 2) s) 5 = true →
      Answers (.sleep src 0xA5) s fun t => t.byre = { s.byre with kc := s.byre.kc + 2 } ∧ t.regs = s.regs ∧
      t.released = s.released ∧ t.st = s.st) ∧
    (∀ src : ByPath, ByMay s src = true → s.byre.mirror = [] → outranked (toKc (s.byre.kc + 2) s) 4 = true →
      Answers (.off src 0xA5) s fun t => t.byre = { s.byre with kc := s.byre.kc + 2 } ∧ t.regs = s.regs ∧
      t.released = s.released ∧ t.st = s.st) ∧
    (∀ src : ByPath, ByMay s src = true → s.byre.mirror = [] → outranked (toKc (s.byre.kc + 2) s) 3 = true →
      Answers (.hreset src 0xA5) s fun t => t.byre = { s.byre with kc := s.byre.kc + 2 } ∧ t.regs = s.regs ∧
      t.released = s.released ∧ t.st = s.st) ∧
    (∀ src : ByPath, ByMay s src = true → s.byre.mirror = [] → s.byre.decided.1 ≠ s.byre.kc + 2 →
      s.byre.passed.1 ≠ s.byre.kc + 2 → s.byre.state = .sleep →
      Answers (.wake src) s fun t => t.byre.state = .powerup ∧ t.byre.cause = 7 ∧ rbit t .byEvents 0 = true ∧
      rramGet t 1 = at32 7 28 ∧ t.byre.stepAt = s.byre.kc + 2) ∧
    (∀ src : ByPath, ByMay s src = true → s.byre.mirror = [] → s.byre.decided.1 ≠ s.byre.kc + 2 →
      s.byre.passed.1 ≠ s.byre.kc + 2 → s.byre.wpend.map (·.edge) ≠ some (s.byre.kc + 2) →
      s.byre.state = .drain ∨ s.byre.state = .powerdown →
      Answers (.wake src) s fun t => t.byre.wpend = some (s.byre.wpend.getD { cause := 7, mask := 0, edge := s.byre.kc + 2 }) ∧
      t.byre.state = s.byre.state ∧ t.regs = s.regs) ∧
    (∀ src : ByPath, ByMay s src = true → s.byre.mirror = [] →
      Answers (.gateAll src) s fun t => fld t.byre.safe 1 1 = 1 ∧ t.byre.state = s.byre.state ∧ t.cx = s.cx ∧
      t.released = s.released) ∧
    (∀ level : Bool, Answers (.safeN level) s fun t => t.byre.pinLow = !level ∧ (level = false →
      fld t.byre.safe 0 1 = 1) ∧ (level = true → t = { s with byre := { s.byre with pinLow := false } }) ∧
      t.byre.state = s.byre.state ∧ t.cx = s.cx) ∧
    (outranked (toKc (s.byre.kc + 1) s) 3 = false → s.byre.state ≠ .sleep → s.byre.state ≠ .powerdown →
      Answers (.rstN) s fun t => t.byre.state = .reset ∧ t.byre.cause = 2 ∧ t.byre.resetEnd = none ∧
      rbit t .byEvents 2 = true ∧ rramGet t 1 = at32 2 28 ∧ t.released = false ∧ t.jr.cur = none) ∧
    (outranked (toKc (s.byre.kc + 1) s) 3 = false → s.byre.state = .sleep →
      Answers (.rstN) s fun t => t.byre.state = .powerup ∧ t.byre.cause = 2 ∧ rbit t .byEvents 2 = true ∧
      rramGet t 1 = at32 2 28 ∧ t = { s with regs := t.regs, byre := t.byre, acc := t.acc }) ∧
    (outranked (toKc (s.byre.kc + 1) s) 3 = true →
      Answers (.rstN) s fun t => t = { s with byre := { s.byre with kc := s.byre.kc + 1 } }) ∧
    (s.byre.state = .reset →
      Answers (.hardResetEnd) s fun t => ((s.byre.pwren == 0xF && s.byre.rails == 0x3F) = true → t.released = true ∧
      t.byre.state = .start ∧ t.byre.boot = (s.byre.boot + 1) % 2 ^ 32) ∧
      ((s.byre.pwren == 0xF && s.byre.rails == 0x3F) = false → t.byre.state = .powerup ∧ t.byre.resetEnd = none ∧
      t.released = s.released) ∧ t.byre.kc = max s.byre.kc (s.byre.resetEnd.getD (s.byre.kc + 2))) ∧
    (s.released = true → s.byre.state = .start → stepsComplete (checkSteps s) = true → tsLocked s = true →
      s.byre.sleepHeld = false → Answers (.readyRise) s fun t => t.byre.ready = true ∧ t.byre.readyRisen = true ∧
      t.byre.state = .run ∧ t.byre.safe = s.byre.safe &&& ~~~0x3C ∧ t.byre.tready = lc s % 2 ^ 32 ∧ lc t = lc s) ∧
    (s.released = true → s.byre.state = .start → stepsComplete (checkSteps s) = false ∨ tsLocked s = false →
      Answers (.readyRise) s fun t => t.byre.ready = s.byre.ready ∧ t.byre.state = .start ∧ t.byre.safe = s.byre.safe) ∧
    (s.released = true → s.byre.state = .start → s.jr.replayed = true → tsLocked s = false →
      s.byre.sleepHeld = false → Answers (.nolockTimeout) s fun t => t.byre.ready = true ∧ t.byre.nolock = true ∧
      t.byre.state = .run ∧ t.byre.safe = s.byre.safe &&& ~~~0x3C ∧ lc t = max (lc s) 62500000)

/-- Register writes due by a unit's keeper edge apply before the unit acts at it. A keeper comparator's crossing is latched and blanks where it produces; a producing event of an enabled wake channel wakes from SLEEP with cause 6; thresholds pend and apply where the comparator is clear or blanked; the keeper timer reloads or stops at its expiry; the crystal takes over, fails and is tried again; BY_KCLK_MEAS takes the lane cycles of 1,024 keeper cycles; writes reach the Byre two keeper edges later from the MSPI, and become journal records through the mirror; writes of the retention RAM outside words 0x10 to 0x1FF are ignored. The model's own choices behind it: log entries 3, 4, 5, 53, 58, 59, 60, 61. -/
def Obligations.KeeperUnits : Prop :=
  ∀ s : State,
    (∀ (i n : Nat) (b level : Bool), edgeBegins (sampleEdge s (max n s.byre.kc)) s = s → i < 8 →
      rbit s (.byKcCfg i) 31 = true → kcState (kcomp s i) b ≠ level →
      kcHidden (kcomp s i) (sampleEdge s (max n s.byre.kc)) = true →
      Answers (.keeperCrossing i b level n) s fun t => (if b then (kcomp t i).sB = level ∧
      (kcomp t i).sA = (kcomp s i).sA else (kcomp t i).sA = level ∧ (kcomp t i).sB = (kcomp s i).sB) ∧
      t.byre.kc = (sampleEdge s (max n s.byre.kc)) ∧ (kcomp t i).repA = (kcomp s i).repA ∧
      (kcomp t i).repB = (kcomp s i).repB ∧ t = { s with byre := t.byre }) ∧
    (∀ (i n : Nat) (b level : Bool), edgeBegins (sampleEdge s (max n s.byre.kc)) s = s → i < 8 →
      rbit s (.byKcCfg i) 31 = true → kcState (kcomp s i) b ≠ level →
      kcHidden (kcomp s i) (sampleEdge s (max n s.byre.kc)) = false →
      rbit s (.byKcCfg i) ((if b then 2 else 0) + (if level then 0 else 1)) = false →
      Answers (.keeperCrossing i b level n) s fun t => (if b then (kcomp t i).sB = level ∧
      (kcomp t i).sA = (kcomp s i).sA else (kcomp t i).sA = level ∧ (kcomp t i).sB = (kcomp s i).sB) ∧
      t.byre.kc = (sampleEdge s (max n s.byre.kc)) ∧
      (if b then (kcomp t i).repB = level else (kcomp t i).repA = level) ∧
      rbit t (.byKcLatch i) ((if b then 2 else 0) + (if level then 0 else 1)) = true ∧
      RegsBut [regAddr (.byKcLatch i)] s t ∧ (kcomp t i).blankTo = (kcomp s i).blankTo ∧
      t = { s with regs := t.regs, byre := t.byre, acc := t.acc }) ∧
    (∀ (i n : Nat) (b level : Bool), edgeBegins (sampleEdge s (max n s.byre.kc)) s = s → i < 8 →
      rbit s (.byKcCfg i) 31 = true → kcState (kcomp s i) b ≠ level →
      kcHidden (kcomp s i) (sampleEdge s (max n s.byre.kc)) = false →
      rbit s (.byKcCfg i) ((if b then 2 else 0) + (if level then 0 else 1)) = true → channelsOf s (0x900 + i) = [] →
      Answers (.keeperCrossing i b level n) s fun t => (if b then (kcomp t i).sB = level ∧
      (kcomp t i).sA = (kcomp s i).sA else (kcomp t i).sA = level ∧ (kcomp t i).sB = (kcomp s i).sB) ∧
      t.byre.kc = (sampleEdge s (max n s.byre.kc)) ∧
      rbit t (.byKcLatch i) ((if b then 2 else 0) + (if level then 0 else 1)) = true ∧
      (s.released = false ∨ (s.ev.reqs.all fun q => decide (lc s < q.due)) = true →
      RegsBut [regAddr (.byKcLatch i)] s t) ∧ t.byre.state = s.byre.state ∧ (0 < rfld s (.byKcBlnk i) 16 8 →
      (kcomp t i).blankTo = max (kcomp s i).blankTo ((sampleEdge s (max n s.byre.kc)) + rfld s (.byKcBlnk i) 16 8)) ∧
      (s.released = false ∨ (s.ev.reqs.all fun q => decide (lc s < q.due)) = true →
      t = { s with regs := t.regs, byre := t.byre, acc := t.acc })) ∧
    (∀ (i n : Nat) (b level : Bool) (m : ByWrite), i < 8 → rbit s (.byKcCfg i) 31 = true →
      kcState (kcomp s i) b ≠ level → s.byre.mirror = [m] → m.addr = regAddr .byWake →
      m.due ≤ (sampleEdge s (max n s.byre.kc)) → s.mspi.wbuf = [] →
      kcHidden (kcomp s i) (sampleEdge s (max n s.byre.kc)) = true →
      Answers (.keeperCrossing i b level n) s fun t => (if b then (kcomp t i).sB = level ∧
      (kcomp t i).sA = (kcomp s i).sA else (kcomp t i).sA = level ∧ (kcomp t i).sB = (kcomp s i).sB) ∧
      t.byre.kc = (sampleEdge s (max n s.byre.kc)) ∧
      reg t .byWake = (reg s .byWake &&& ~~~m.mask) ||| (m.value &&& m.mask) ∧ t.byre.mirror = [] ∧
      RegsBut [regAddr .byWake] s t ∧ t = { s with regs := t.regs, byre := t.byre, acc := t.acc }) ∧
    (∀ (i n ch : Nat) (b level : Bool), edgeBegins (sampleEdge s (max n s.byre.kc)) s = s → i < 8 →
      rbit s (.byKcCfg i) 31 = true → kcState (kcomp s i) b ≠ level →
      kcHidden (kcomp s i) (sampleEdge s (max n s.byre.kc)) = false →
      rbit s (.byKcCfg i) ((if b then 2 else 0) + (if level then 0 else 1)) = true →
      s.byre.wokeAt ≠ some (sampleEdge s (max n s.byre.kc)) → s.byre.decided.1 ≠ (sampleEdge s (max n s.byre.kc)) →
      s.byre.passed.1 ≠ (sampleEdge s (max n s.byre.kc)) → channelsOf s (0x900 + i) = [ch] →
      tget 0 ch s.ev.lastEv ≠ (sampleEdge s (max n s.byre.kc)) + 1 → 248 ≤ ch → ch < 256 → passes s ch = true →
      bitAt (reg s .byWake) (ch - 248) = true → s.byre.state = .sleep → s.released = false →
      clearingNow s (regAddr (passReg ch)) (reg s (passReg ch)).toNat = none →
      Answers (.keeperCrossing i b level n) s fun t => t.byre.state = .powerup ∧ t.byre.cause = 6 ∧ t.byre.pwren = 0 ∧
      rramGet t 1 = at32 6 28 ||| at32 (2 ^ (ch - 248)) 8 ∧ rbit t .byEvents 0 = true ∧ rramGet t 2 = klatch t ∧
      reg t (passReg ch) = reg s (passReg ch) + 1) ∧
    (∀ (i : Nat) (v : W32), i < 8 → rbit s .byCfg 31 = false → s.byre.mirror = [] →
      Answers (.kcThrWrite .mspi i v) s fun t => reg t (.byKcThr i) = (reg s (.byKcThr i) &&& ~~~regRwMask (.byKcThr i)) ||| (v &&& regRwMask (.byKcThr i)) ∧
      kcomp t i = { kcomp s i with pend := true } ∧ t.byre.kc = s.byre.kc + 2 ∧ RegsBut [regAddr (.byKcThr i)] s t ∧
      t = { s with regs := t.regs, byre := t.byre, acc := t.acc }) ∧
    (∀ i : Nat, i < 8 → (kcomp s i).pend = true →
      (kcBlanked (kcomp s i) (sampleEdge s (s.byre.kc + 1)) || kcThrClear (kcomp s i) (reg s (.byKcThr i))) = true →
      Answers (.kcThrApply i) s fun t => kcomp t i = { kcomp s i with thr := reg s (.byKcThr i), pend := false, blankFrom := (kcomp t i).blankFrom, blankTo := max (kcomp s i).blankTo ((sampleEdge s (s.byre.kc + 1)) + 1) } ∧
      t.byre.kc = (sampleEdge s (s.byre.kc + 1)) ∧ (∀ j, j ≠ i → kcomp t j = kcomp s j) ∧
      t = { s with byre := t.byre }) ∧
    (∀ i : Nat, i < 8 →
      (kcomp s i).pend = false ∨ (kcBlanked (kcomp s i) (sampleEdge s (s.byre.kc + 1)) || kcThrClear (kcomp s i) (reg s (.byKcThr i))) = false →
      Answers (.kcThrApply i) s fun t => t = s) ∧
    (∀ (n : Nat) (level : Bool), n < 4 → edgeBegins (s.byre.kc + 1) s = s → fld s.byre.win n 1 ≠ b2n level →
      level = rbit s .byWake (8 + n) →
      Answers (.wakeIn n level) s fun t => t = { s with byre := { s.byre with kc := s.byre.kc + 1, win := setFld s.byre.win n 1 (b2n level) } }) ∧
    (∀ (n : Nat) (level : Bool), s.byre.wokeAt ≠ some (s.byre.kc + 1) → s.byre.decided.1 ≠ (s.byre.kc + 1) →
      s.byre.passed.1 ≠ (s.byre.kc + 1) → n < 4 → edgeBegins (s.byre.kc + 1) s = s → fld s.byre.win n 1 ≠ b2n level →
      level ≠ rbit s .byWake (8 + n) → channelsOf s (0xB00 + n) = [] →
      Answers (.wakeIn n level) s fun t => t = (if s.released then enablesDue (lc s) s.ev.reqs.length { s with byre := { { s.byre with kc := s.byre.kc + 1, win := setFld s.byre.win n 1 (b2n level) } with passed := ((s.byre.kc + 1), 0) } } else { s with byre := { { s.byre with kc := s.byre.kc + 1, win := setFld s.byre.win n 1 (b2n level) } with passed := ((s.byre.kc + 1), 0) } })) ∧
    (∀ (n ch : Nat) (level : Bool), s.byre.wokeAt ≠ some (s.byre.kc + 1) → s.byre.decided.1 ≠ (s.byre.kc + 1) →
      s.byre.passed.1 ≠ (s.byre.kc + 1) → n < 4 → edgeBegins (s.byre.kc + 1) s = s → fld s.byre.win n 1 ≠ b2n level →
      level ≠ rbit s .byWake (8 + n) → channelsOf s (0xB00 + n) = [ch] → tget 0 ch s.ev.lastEv ≠ s.byre.kc + 2 →
      248 ≤ ch → ch < 256 → passes s ch = true → bitAt (reg s .byWake) (ch - 248) = true → s.byre.state = .sleep →
      s.released = false → clearingNow s (regAddr (passReg ch)) (reg s (passReg ch)).toNat = none →
      Answers (.wakeIn n level) s fun t => t.byre.state = .powerup ∧ t.byre.cause = 6 ∧ t.byre.pwren = 0 ∧
      rramGet t 1 = at32 6 28 ||| at32 (2 ^ (ch - 248)) 8 ∧ rbit t .byEvents 0 = true ∧ rramGet t 2 = klatch t) ∧
    (∀ (n ch : Nat) (level : Bool), n < 4 → edgeBegins (s.byre.kc + 1) s = s → fld s.byre.win n 1 ≠ b2n level →
      level ≠ rbit s .byWake (8 + n) → channelsOf s (0xB00 + n) = [ch] → tget 0 ch s.ev.lastEv ≠ s.byre.kc + 2 →
      248 ≤ ch → ch < 256 → passes s ch = true → s.byre.state = .powerup → s.released = false →
      s.byre.wokeAt = some (s.byre.kc + 1) → s.byre.cause = 6 →
      Answers (.wakeIn n level) s fun t => t.byre.state = s.byre.state ∧ t.byre.cause = s.byre.cause ∧
      rramGet t 1 = setFld (rramGet s 1) 8 8 (fld (rramGet s 1) 8 8 ||| (passedNow (toKc (s.byre.kc + 1) s) ||| 2 ^ (ch - 248))) ∧
      rramGet t 2 = klatch t ∧ (∀ j, j ≠ 1 → j ≠ 2 → rramGet t j = rramGet s j)) ∧
    (∀ (n ch : Nat) (level : Bool), n < 4 → edgeBegins (s.byre.kc + 1) s = s → fld s.byre.win n 1 ≠ b2n level →
      level ≠ rbit s .byWake (8 + n) → channelsOf s (0xB00 + n) = [ch] → s.byre.state = .sleep → s.released = false →
      s.byre.wokeAt ≠ some (s.byre.kc + 1) → outranked (toKc (s.byre.kc + 1) s) 6 = true →
      Answers (.wakeIn n level) s fun t => t.byre.state = .sleep ∧ t.byre.rram = s.byre.rram ∧
      reg t .byEvents = reg s .byEvents) ∧
    (rbit s .byKtCfg 31 = true → edgeBegins (expiryKc s) s = s → channelsOf s 0xA00 = [] →
      Answers (.keeperTimerExpiry) s fun t => t.byre.kc = (max s.byre.kc (s.byre.ktAt + s.byre.ktLoad * ktPre s)) ∧
      t.byre.state = s.byre.state ∧ (∀ i, i < 8 → rbit s (.byKcCfg i) 8 = true → rfld t (.byKcLatch i) 0 4 = 0) ∧
      (rbit s .byKtCfg 30 = true → t.byre.ktLoad = (reg s .byKtReload).toNat ∧ t.byre.ktAt = t.byre.kc ∧
      reg t .byKtCfg = reg s .byKtCfg) ∧ (rbit s .byKtCfg 30 = false → t.byre.ktLoad = 0 ∧
      rbit t .byKtCfg 31 = false) ∧ (∀ i, i < 8 → 0 < rfld s (.byKcBlnk i) 0 8 →
      (kcomp t i).blankTo = max (kcomp s i).blankTo (t.byre.kc + rfld s (.byKcBlnk i) 0 8)) ∧
      (s.released = false ∨ (s.ev.reqs.all fun q => decide (lc s < q.due)) = true →
      t = { s with regs := t.regs, byre := t.byre, acc := t.acc })) ∧
    (∀ v : W32, rbit s .byCfg 31 = false → s.byre.mirror = [] →
      Answers (.ktCfgWrite .mspi v) s fun t => reg t .byKtCfg = (reg s .byKtCfg &&& ~~~regRwMask .byKtCfg) ||| (v &&& regRwMask .byKtCfg) ∧
      t.byre = { s.byre with kc := s.byre.kc + 2, ktAt := s.byre.kc + 2, ktLoad := if !rbit s .byKtCfg 31 && bitAt v 31 then (reg s .byKtReload).toNat else ktCount (modBy (fun b => { b with kc := b.kc + 2 }) s) } ∧
      RegsBut [regAddr .byKtCfg] s t ∧ t = { s with regs := t.regs, byre := t.byre, acc := t.acc }) ∧
    (∀ on : Bool, rbit s .byCfg 31 = false → s.byre.mirror = [] →
      Answers (.byClkSrc .mspi on) s fun t => rbit t .byClk 0 = on ∧
      t.byre = { s.byre with kc := s.byre.kc + 2, xk := s.byre.xk && on, xok := s.byre.xok && on, xtry := if on then s.byre.xtry || !s.byre.xk else false } ∧
      RegsBut [regAddr .byClk] s t ∧ t = { s with regs := t.regs, byre := t.byre, acc := t.acc }) ∧
    (∀ on : Bool, rbit s .byCfg 31 = true → s.byre.mirror = [] →
      Answers (.byClkSrc .mspi on) s fun t => rbit t .byEvents 7 = true ∧ RegsBut [regAddr .byEvents] s t ∧
      t.byre = { s.byre with kc := s.byre.kc + 2 } ∧ t = { s with regs := t.regs, byre := t.byre, acc := t.acc }) ∧
    (∀ (i : Nat) (v : W32), i < 8 → rbit s .byCfg 31 = true → s.byre.mirror = [] →
      Answers (.kcThrWrite .mspi i v) s fun t => rbit t .byEvents 7 = true ∧ RegsBut [regAddr .byEvents] s t ∧
      t.byre = { s.byre with kc := s.byre.kc + 2 } ∧ t = { s with regs := t.regs, byre := t.byre, acc := t.acc }) ∧
    (∀ v : W32, rbit s .byCfg 31 = true → s.byre.mirror = [] →
      Answers (.ktCfgWrite .mspi v) s fun t => rbit t .byEvents 7 = true ∧ RegsBut [regAddr .byEvents] s t ∧
      t.byre = { s.byre with kc := s.byre.kc + 2 } ∧ t = { s with regs := t.regs, byre := t.byre, acc := t.acc }) ∧
    (∀ (who : Who) (on : Bool), who.tenant = 0 → s.released = true → s.byre.mirror = [] →
      journalRefused s 0 none 1 = none →
      Answers (.byClkSrc (.mirror who) on) s fun t => t = { s with busStatus := 0, jr := { s.jr with nextId := s.jr.nextId + 1, cmdQ := s.jr.cmdQ ++ [{ id := s.jr.nextId, type := 0x01, tenant := 0, sched := none, payload := regPayload (regAddr .byClk) (at32 (b2n on) 0), replay := false }] } }) ∧
    (∀ (who : Who) (i : Nat) (v : W32), i < 8 → who.tenant = 0 → s.released = true → s.byre.mirror = [] →
      journalRefused s 0 none 1 = none →
      Answers (.kcThrWrite (.mirror who) i v) s fun t => t = { s with busStatus := 0, jr := { s.jr with nextId := s.jr.nextId + 1, cmdQ := s.jr.cmdQ ++ [{ id := s.jr.nextId, type := 0x01, tenant := 0, sched := none, payload := regPayload (regAddr (.byKcThr i)) v, replay := false }] } }) ∧
    (∀ (who : Who) (v : W32), who.tenant = 0 → s.released = true → s.byre.mirror = [] →
      journalRefused s 0 none 1 = none →
      Answers (.ktCfgWrite (.mirror who) v) s fun t => t = { s with busStatus := 0, jr := { s.jr with nextId := s.jr.nextId + 1, cmdQ := s.jr.cmdQ ++ [{ id := s.jr.nextId, type := 0x01, tenant := 0, sched := none, payload := regPayload (regAddr .byKtCfg) v, replay := false }] } }) ∧
    (∀ (src : ByPath) (v : W32), ByMay s src = true → s.byre.mirror = [] → 0x10 ≤ rramIdx s → rramIdx s < 0x200 →
      Answers (.byRramDataWrite src v) s fun t => rramGet t (rramIdx s) = v ∧ (∀ j, j ≠ rramIdx s →
      rramGet t j = rramGet s j) ∧ rramIdx t = (rramIdx s + 1) % 1024 ∧ RegsBut [regAddr .byRramAddr] s t ∧
      t.byre = { s.byre with kc := s.byre.kc + 2, rram := t.byre.rram } ∧ t.cx = s.cx ∧ t.jr = s.jr) ∧
    (∀ (src : ByPath) (v : W32), ByMay s src = true → s.byre.mirror = [] → rramIdx s < 0x10 ∨ 0x200 ≤ rramIdx s →
      Answers (.byRramDataWrite src v) s fun t => t.byre = { s.byre with kc := s.byre.kc + 2 } ∧
      rbit t .byEvents 7 = true ∧ rramIdx t = (rramIdx s + 1) % 1024 ∧
      RegsBut [regAddr .byRramAddr, regAddr .byEvents] s t ∧ t.jr = s.jr) ∧
    (kPart s = true → s.byre.xtry = true →
      Answers (.crystalSwitch) s fun t => t = { s with byre := { s.byre with xk := true, xok := true, xtry := false } }) ∧
    (s.byre.xk = true →
      Answers (.crystalFail) s fun t => t.byre = { s.byre with xk := false, xok := false, xtry := false, retryAt := s.byre.kc + 32768 } ∧
      rbit t .byEvents 3 = true ∧ RegsBut [regAddr .byEvents] s t ∧
      t = { s with regs := t.regs, byre := t.byre, acc := t.acc }) ∧
    (rbit s .byClk 0 = true → s.byre.xk = false → s.byre.xtry = false →
      Answers (.crystalRetry) s fun t => t = { s with byre := { s.byre with kc := max s.byre.kc s.byre.retryAt, xtry := true, retryAt := max s.byre.kc s.byre.retryAt + 32768 } }) ∧
    (∀ n : Nat, n < 2 ^ 24 → s.released = true → s.tb.ts = .locked →
      Answers (.kclkMeasUpdate n) s fun t => reg t .byKclkMeas = at32 n 0 ∧
      t.byre = { s.byre with kc := (s.byre.kc / 1024 + 1) * 1024 } ∧ RegsBut [regAddr .byKclkMeas] s t ∧
      t = { s with regs := t.regs, byre := t.byre, acc := t.acc }) ∧
    (∀ m : ByWrite, s.byre.mirror = [m] → m.addr = regAddr .byWake →
      Answers (.mirrorWriteApply) s fun t => reg t .byWake = (reg s .byWake &&& ~~~m.mask) ||| (m.value &&& m.mask) ∧
      t.byre = { s.byre with kc := max s.byre.kc m.due, mirror := [] } ∧ RegsBut [regAddr .byWake] s t ∧
      t = { s with regs := t.regs, byre := t.byre, acc := t.acc })

/-- The writer writes the words of a record one by one in the active half, begins the next record of the first class that has one, commits with the last word, which ends the wait of its command, or abandons a scheduled record whose frame has passed; compaction writes its words in the free half and flips the halves. A digest computation ends in its lane cycle. A replay of an empty store leaves the journal replayed and LAST at RESERVED, and starts the TS of a cold start. The model's own choices behind it: log entries 3, 4, 9, 14, 16, 25, 48, 49, 55, 56, 57, 61, 72. -/
def Obligations.JournalWriter : Prop :=
  ∀ s : State,
    (∀ w : JWrite, s.released = true → s.jr.compact = none → s.jr.cur = some w → w.written + 1 < w.words.length →
      Answers (.journalWordWrite) s fun t => t.now = max s.now (2 * writerLc s) ∧
      t.jr = { s.jr with halfA := t.jr.halfA, halfB := t.jr.halfB, lastLc := some (writerLc s), compactTurn := true, cur := some { w with written := w.written + 1 }, fill := w.start + w.written + 1 } ∧
      tget 0 (w.start + w.written) (activeHalf t) = w.words.getD w.written 0 ∧ (∀ a, a ≠ w.start + w.written →
      tget 0 a (activeHalf t) = tget 0 a (activeHalf s)) ∧ halfOf t (!s.jr.activeB) = halfOf s (!s.jr.activeB) ∧
      t = { s with now := t.now, jr := t.jr }) ∧
    (∀ (r : JRec) (l : List JRec), s.released = true → s.jr.compact = none → s.jr.cur = none → s.jr.fill ≠ 0 →
      s.jr.cmdQ = r :: l → Answers (.journalWordWrite) s fun t => t.now = max s.now (2 * writerLc s) ∧
      t.jr = { s.jr with halfA := t.jr.halfA, halfB := t.jr.halfB, lastLc := some (writerLc s), compactTurn := true, seq := s.jr.seq + 1, cmdQ := l, fill := s.jr.fill + 1, cur := some { start := s.jr.fill, seq := s.jr.seq + 1, r := r, words := jrWords (s.jr.seq + 1) r false, written := 1 } } ∧
      tget 0 s.jr.fill (activeHalf t) = BitVec.ofNat 64 (s.jr.seq + 1) ∧ (∀ a, a ≠ s.jr.fill →
      tget 0 a (activeHalf t) = tget 0 a (activeHalf s)) ∧ halfOf t (!s.jr.activeB) = halfOf s (!s.jr.activeB) ∧
      t = { s with now := t.now, jr := t.jr }) ∧
    (∀ (r : JRec) (l : List JRec), s.released = true → s.jr.compact = none → s.jr.cur = none → s.jr.fill ≠ 0 →
      s.jr.resQ = r :: l → s.jr.cmdQ = [] →
      Answers (.journalWordWrite) s fun t => t.now = max s.now (2 * writerLc s) ∧
      t.jr = { s.jr with halfA := t.jr.halfA, halfB := t.jr.halfB, lastLc := some (writerLc s), compactTurn := true, seq := s.jr.seq + 1, resQ := l, fill := s.jr.fill + 1, cur := some { start := s.jr.fill, seq := s.jr.seq + 1, r := r, words := jrWords (s.jr.seq + 1) r false, written := 1 } } ∧
      tget 0 s.jr.fill (activeHalf t) = BitVec.ofNat 64 (s.jr.seq + 1) ∧ (∀ a, a ≠ s.jr.fill →
      tget 0 a (activeHalf t) = tget 0 a (activeHalf s)) ∧ halfOf t (!s.jr.activeB) = halfOf s (!s.jr.activeB) ∧
      t = { s with now := t.now, jr := t.jr }) ∧
    (∀ (r : JRec) (l : List JRec), s.released = true → s.jr.compact = none → s.jr.cur = none → s.jr.fill ≠ 0 →
      s.jr.sysQ = r :: l → s.jr.cmdQ = [] → s.jr.resQ = [] →
      Answers (.journalWordWrite) s fun t => t.now = max s.now (2 * writerLc s) ∧
      t.jr = { s.jr with halfA := t.jr.halfA, halfB := t.jr.halfB, lastLc := some (writerLc s), compactTurn := true, seq := s.jr.seq + 1, sysQ := l, fill := s.jr.fill + 1, cur := some { start := s.jr.fill, seq := s.jr.seq + 1, r := r, words := jrWords (s.jr.seq + 1) r false, written := 1 } } ∧
      tget 0 s.jr.fill (activeHalf t) = BitVec.ofNat 64 (s.jr.seq + 1) ∧ (∀ a, a ≠ s.jr.fill →
      tget 0 a (activeHalf t) = tget 0 a (activeHalf s)) ∧ halfOf t (!s.jr.activeB) = halfOf s (!s.jr.activeB) ∧
      t = { s with now := t.now, jr := t.jr }) ∧
    (∀ w : JWrite, s.released = true → s.jr.compact = none → s.jr.cur = some w → w.r.sched = none →
      w.written + 1 = w.words.length → w.words.getLastD 0 = recK endCommit w.seq → w.seq ≠ 0 → w.r.type < 0x30 →
      isLocal w.r = false → w.r.replay = false → (port s 0).run = none → (port s 0).buf = [] → (port s 1).run = none →
      (port s 1).buf = [] → s.mspi.run = none → s.mspi.cmd = none →
      Answers (.journalWordWrite) s fun t => t.now = max s.now (2 * writerLc s) ∧
      t.jr = { s.jr with halfA := t.jr.halfA, halfB := t.jr.halfB, lastLc := some (writerLc s), compactTurn := true, cur := none, fill := w.start + w.words.length, commitSeq := w.seq, done := s.jr.done ++ [{ seq := w.seq, r := w.r, lc := writerLc s }] } ∧
      tget 0 (w.start + w.words.length - 1) (activeHalf t) = recK endCommit w.seq ∧
      (∀ a, a ≠ w.start + w.words.length - 1 → tget 0 a (activeHalf t) = tget 0 a (activeHalf s)) ∧
      halfOf t (!s.jr.activeB) = halfOf s (!s.jr.activeB) ∧ t.cx = s.cx ∧ t.regs = s.regs) ∧
    (∀ (w : JWrite) (r : Running), s.released = true → s.jr.compact = none → s.jr.cur = some w → w.r.sched = none →
      w.written + 1 = w.words.length → w.words.getLastD 0 = recK endCommit w.seq → w.seq ≠ 0 → w.r.type < 0x30 →
      isLocal w.r = false → w.r.replay = false → (port s 0).run = some r → r.waits = [w.r.id] → r.acted = true →
      r.keyWait = false → (port s 0).up = true → (port s 0).buf = [] → (port s 1).run = none → (port s 1).buf = [] →
      s.mspi.run = none → s.mspi.cmd = none →
      Answers (.journalWordWrite) s fun t => t.jr = { s.jr with halfA := t.jr.halfA, halfB := t.jr.halfB, lastLc := some (writerLc s), compactTurn := true, cur := none, fill := w.start + w.words.length, commitSeq := w.seq, done := s.jr.done ++ [{ seq := w.seq, r := w.r, lc := writerLc s }] } ∧
      (port t 0).run = none ∧
      (port t 0).resps = (port s 0).resps ++ [responseWords t r.words (cCounter r.words) r.status r.payload] ∧
      t.cx = s.cx ∧ t.regs = s.regs) ∧
    (∀ (w : JWrite) (f : Nat), s.released = true → s.jr.compact = none → s.jr.cur = some w → w.r.sched = some f →
      f ≤ s.fr.count → s.fl.clears = [] → s.fl.cleared = [] → w.written + 1 = w.words.length → (port s 0).run = none →
      (port s 0).buf = [] → (port s 1).run = none → (port s 1).buf = [] → s.mspi.run = none → s.mspi.cmd = none →
      Answers (.journalWordWrite) s fun t => t.now = max s.now (2 * writerLc s) ∧
      t.jr = { s.jr with halfA := t.jr.halfA, halfB := t.jr.halfB, lastLc := some (writerLc s), compactTurn := true, cur := none, fill := w.start + w.words.length } ∧
      tget 0 (w.start + w.words.length - 1) (activeHalf t) = recK endAbandon w.seq ∧
      reg t .jrLateCnt = reg s .jrLateCnt + 1 ∧ reg t .jrAbandonCnt = reg s .jrAbandonCnt + 1 ∧
      rbit t .jrEvents 0 = true ∧ rbit t .jrEvents 2 = true ∧ t.cx = s.cx) ∧
    (∀ (c : Compaction) (x : W64) (l : List W64), s.released = true → s.jr.compact = some c → c.words = x :: l →
      c.pos ≠ 5 → s.jr.compactTurn = true →
      Answers (.journalWordWrite) s fun t => t.now = max s.now (2 * writerLc s) ∧
      t.jr = { s.jr with halfA := t.jr.halfA, halfB := t.jr.halfB, lastLc := some (writerLc s), compactTurn := false, compact := some { c with words := l, pos := c.pos + 1 } } ∧
      tget 0 c.pos (halfOf t (!s.jr.activeB)) = x ∧ activeHalf t = activeHalf s ∧ t.jr.fill = s.jr.fill ∧
      t = { s with now := t.now, jr := t.jr }) ∧
    (∀ c : Compaction, s.released = true → s.jr.compact = some c → c.words = [] → c.step5 = true →
      recordWaits s.jr = false ∨ s.jr.compactTurn = true → s.jr.cur = none → s.fl.clears = [] → s.fl.cleared = [] →
      Answers (.journalWordWrite) s fun t => t.jr.activeB = !s.jr.activeB ∧ t.jr.fill = c.pos ∧ t.jr.gen = c.gen ∧
      t.jr.compact = none ∧ t.jr.cur = none ∧ tget 0 5 (activeHalf t) = recK endCommit c.s ∧
      reg t .jrFlipCnt = reg s .jrFlipCnt + 1 ∧ rbit t .jrEvents 4 = true ∧ t.jr.seq = s.jr.seq ∧ t.cx = s.cx) ∧
    (∀ n : Nat, s.released = true → s.jr.busyTo = some n →
      Answers (.digestDone) s fun t => t = { s with now := max s.now (2 * n), jr := { s.jr with busyTo := none, waiting := some (sha256 (canonBytes s), canonSize s, max (lc s) n) } }) ∧
    (s.released = true → s.jr.busyTo = none → Answers (.digestDone) s fun t => t = s) ∧
    (s.released = true → s.jr.replayed = false → s.st.lcState ≠ 5 → validHalf s = none → s.jr.suspects = [] →
      (port s 0).run = none → (port s 0).buf = [] → (port s 1).run = none → (port s 1).buf = [] → s.mspi.run = none →
      s.mspi.cmd = none → Answers (.journalReplayDone) s fun t => t.jr.replayed = true ∧ t.jr.activeB = false ∧
      t.jr.fill = 0 ∧ t.jr.gen = 0 ∧ t.jr.busyTo = some (lc s + 8 * shaBlocks (canonSize s)) ∧
      t.jr.canon = s.jr.canon ∧ fld t.byre.steps 2 1 = 1 ∧
      (∀ p ∈ s.tn.keys, (tenant t (p.1 / 4)).last = (keyOf s (p.1 / 4)).resv) ∧ t.tn.keys = s.tn.keys ∧
      (s.byre.warm = false → s.tb.ts = .off → rbit s .tbCtrl 4 = true → t.tb.ts = .qualify) ∧ (s.byre.warm = true →
      t.tb.ts = s.tb.ts))

/-- A system window converts its channel, or none, and sets AD_SYS and the temperature of a cluster, which makes the lanes due that it has moved away from and is compared with the other clusters; the frame timer queues the enabled frame-timer entries, or counts an overrun; a conversion begins outside the reserved intervals with the flags of its start; its result is written 312.5 lane cycles later, sent where the entry sends and time runs, and its sequence goes on or is over. The model's own choices behind it: log entries 3, 4, 5, 65, 67. -/
def Obligations.HousekeepingAdc : Prop :=
  ∀ s : State,
    (∀ (v : Int) (chan : Nat), s.released = true → s.ad.test = false → s.ad.conv = none →
      scanChan (windowLc s / 16384 % 64) = some chan →
      Answers (.adcSystemWindow v) s fun t => t.ad = { s.ad with sysEnd := (2 * windowLc s + 625 + (if s.ad.powered then 0 else 1250)), endAt := max s.ad.endAt (2 * windowLc s + 625 + (if s.ad.powered then 0 else 1250)), powered := staysOn s (2 * windowLc s + 625 + (if s.ad.powered then 0 else 1250)), range := if isTemp chan then 0 else 3 } ∧
      (32 ≤ (windowLc s / 16384 % 64) →
      t.now = max s.now (2 * windowLc s + 625 + (if s.ad.powered then 0 else 1250))) ∧
      ((windowLc s / 16384 % 64) < 32 →
      t.now = max s.now (2 * ((2 * windowLc s + 625 + (if s.ad.powered then 0 else 1250)) / 2 + 1))) ∧
      ((32 ≤ (windowLc s / 16384 % 64) ∨ ((gradClusters (sysReading (windowLc s / 16384 % 64) (saturated (isTemp chan) v).1 s)).all fun a => !rbit s .flGrad a && (gradClusters (sysReading (windowLc s / 16384 % 64) (saturated (isTemp chan) v).1 s)).all fun b => !beyond (gradDiff (sysReading (windowLc s / 16384 % 64) (saturated (isTemp chan) v).1 s) a b)) = true) →
      t = { s with now := t.now, ad := t.ad, regs := t.regs, cl := t.cl, pl := t.pl, sl := t.sl }) ∧
      reg t (.adSys (windowLc s / 16384 % 64)) = at32 1 31 ||| at32 (saturated (isTemp chan) v).1 0 ∧
      ((32 ≤ (windowLc s / 16384 % 64) ∨ ((gradClusters (sysReading (windowLc s / 16384 % 64) (saturated (isTemp chan) v).1 s)).all fun a => !rbit s .flGrad a && (gradClusters (sysReading (windowLc s / 16384 % 64) (saturated (isTemp chan) v).1 s)).all fun b => !beyond (gradDiff (sysReading (windowLc s / 16384 % 64) (saturated (isTemp chan) v).1 s) a b)) = true) →
      RegsBut [regAddr (.adSys (windowLc s / 16384 % 64)), regAddr .flGradMax] s t) ∧
      ((windowLc s / 16384 % 64) < 32 →
      (cluster t (windowLc s / 16384 % 64)).temp = sgn 16 (saturated (isTemp chan) v).1) ∧
      reg t .flGradMax = (if (windowLc s / 16384 % 64) < 32 then gradMax (sysReading (windowLc s / 16384 % 64) (saturated (isTemp chan) v).1 s) else reg s .flGradMax) ∧
      ClustersBut [(windowLc s / 16384 % 64)] s t ∧ (32 ≤ (windowLc s / 16384 % 64) → t.cl = s.cl ∧ t.pl = s.pl ∧
      t.sl = s.sl) ∧ ((windowLc s / 16384 % 64) < 32 →
      t.pl = (lanesHeated (windowLc s / 16384 % 64) { s with cl := t.cl }).pl ∧
      t.sl = (lanesHeated (windowLc s / 16384 % 64) { s with cl := t.cl }).sl)) ∧
    (∀ (v : Int) (chan b : Nat), s.released = true → s.ad.test = false → s.ad.conv = none →
      scanChan (windowLc s / 16384 % 64) = some chan → (windowLc s / 16384 % 64) < 32 → b < 32 →
      b ≠ (windowLc s / 16384 % 64) →
      gradClusters (sysReading (windowLc s / 16384 % 64) (saturated (isTemp chan) v).1 s) = [b, (windowLc s / 16384 % 64)] ∨ gradClusters (sysReading (windowLc s / 16384 % 64) (saturated (isTemp chan) v).1 s) = [(windowLc s / 16384 % 64), b] →
      rbit s (.adSys b) 31 = true → 320 < (v - (cluster s b).temp).natAbs → -32768 ≤ v → v ≤ 32767 →
      rbit s .flGrad (windowLc s / 16384 % 64) = false → rbit s .flGrad b = false →
      Answers (.adcSystemWindow v) s fun t => (∀ d, d < 32 → d ∈ [(windowLc s / 16384 % 64), b] →
      rbit t .flGrad d = true) ∧ rbit t .flEvents 4 = true ∧ rbit t .flFpend 0x0D = true ∧
      t.fr.flags = s.fr.flags ||| flagDegraded ∧
      t.now = max s.now (2 * ((2 * windowLc s + 625 + (if s.ad.powered then 0 else 1250)) / 2 + 1))) ∧
    (∀ v : Int, s.released = true → s.ad.test = false → s.ad.conv = none → scanChan (windowLc s / 16384 % 64) = none →
      Answers (.adcSystemWindow v) s fun t => t = { s with now := max s.now (2 * windowLc s), ad := { s.ad with sysEnd := max s.ad.sysEnd (2 * windowLc s + 1) } }) ∧
    (∀ v : Int, s.released = true → s.ad.test = true ∨ s.ad.conv ≠ none →
      Answers (.adcSystemWindow v) s fun t => t = s) ∧
    (∀ n : Nat, s.released = true → s.ad.ftAt = some n → s.ad.ftBusy = true ∨ s.ad.test = true → s.fl.clears = [] →
      s.fl.cleared = [] → Answers (.adcFrameTimer) s fun t => t.now = max s.now (2 * n) ∧
      t.ad = { s.ad with ftAt := none } ∧ reg t .adFtOvrCnt = reg s .adFtOvrCnt + 1 ∧ rbit t .adEvents 3 = true ∧
      t = { s with now := t.now, ad := t.ad, regs := t.regs, fl := t.fl, acc := t.acc }) ∧
    (∀ n : Nat, s.released = true → s.ad.ftAt = some n → s.ad.ftBusy = false → s.ad.test = false →
      entriesOf s true ≠ [] →
      Answers (.adcFrameTimer) s fun t => t = { s with now := max s.now (2 * n), ad := { s.ad with ftAt := none, ftBusy := true, seqs := insertSeq { r := n, ft := true, entries := entriesOf s true, first := true } s.ad.seqs } }) ∧
    (∀ n : Nat, s.released = true → s.ad.ftAt = some n → s.ad.ftBusy = false → s.ad.test = false →
      entriesOf s true = [] →
      Answers (.adcFrameTimer) s fun t => t = { s with now := max s.now (2 * n), ad := { s.ad with ftAt := none } }) ∧
    (∀ (q : AdcSeq) (rest : List AdcSeq) (i : Nat) (l : List Nat), s.released = true → s.ad.conv = none →
      s.ad.test = false → adEn s = true → s.ad.seqs = q :: rest →
      q.entries.filter (entriesOf s q.ft).contains = i :: l →
      s.ad.powered = true ∨ q.r = s.ad.endAt / 2 ∨ q.first = false →
      Answers (.adcConversionStart) s fun t => t = { s with now := max s.now (unreserved (max s.now (max (2 * q.r) s.ad.endAt))), ad := { s.ad with conv := some { entry := i, cfg := reg s (.adECfg i), ft := q.ft, c := (unreserved (max s.now (max (2 * q.r) s.ad.endAt))), woke := false, settling := rangeUsed (reg s (.adECfg i)) != s.ad.range }, powered := true, range := rangeUsed (reg s (.adECfg i)), lastEntry := i, seqs := { q with entries := i :: l, first := false } :: rest } }) ∧
    (∀ (q : AdcSeq) (rest : List AdcSeq) (i : Nat) (l : List Nat), s.released = true → s.ad.conv = none →
      s.ad.test = false → adEn s = true → s.ad.seqs = q :: rest →
      q.entries.filter (entriesOf s q.ft).contains = i :: l → s.ad.powered = false → q.r ≠ s.ad.endAt / 2 →
      q.first = true →
      Answers (.adcConversionStart) s fun t => t = { s with now := max s.now (unreserved ((unreserved (max s.now (max (2 * q.r) s.ad.endAt))) + 1250)), ad := { s.ad with conv := some { entry := i, cfg := reg s (.adECfg i), ft := q.ft, c := (unreserved ((unreserved (max s.now (max (2 * q.r) s.ad.endAt))) + 1250)), woke := true, settling := false }, powered := true, range := rangeUsed (reg s (.adECfg i)), lastEntry := i, seqs := { q with entries := i :: l, first := false } :: rest } }) ∧
    (∀ (q : AdcSeq) (rest : List AdcSeq) (i : Nat) (l : List Nat), s.released = true → s.ad.conv = none →
      s.ad.test = false → adEn s = true → s.ad.seqs = q :: rest →
      q.entries.filter (entriesOf s q.ft).contains = i :: l →
      Answers (.adcConversionStart) s fun t => (∃ v, t.ad.conv = some v ∧ v.entry = i ∧ (2048 ≤ v.c % 32768 ∧
      v.c % 32768 + 625 ≤ 32768))) ∧
    (∀ (q : AdcSeq) (rest : List AdcSeq), s.released = true → s.ad.conv = none → s.ad.test = false → adEn s = true →
      s.ad.seqs = q :: rest → q.ft = true → q.entries.filter (entriesOf s q.ft).contains = [] →
      Answers (.adcConversionStart) s fun t => t.ad.seqs = rest ∧ t.ad.conv = none ∧ t.ad.ftBusy = false ∧
      t.ad.evBusy = s.ad.evBusy ∧ t.now = max s.now (2 * q.r) ∧ t = { s with now := t.now, ad := t.ad }) ∧
    (∀ (x : Int) (v : AdcConv) (q : AdcSeq) (rest : List AdcSeq) (i : Nat) (l : List Nat), s.released = true →
      s.ad.conv = some v → v.entry < 16 → s.fl.clears = [] → s.fl.cleared = [] → s.ad.seqs = q :: rest →
      q.entries = i :: l → l ≠ [] → Answers (.adcConversionDone x) s fun t => t.now = max s.now (v.c + 625) ∧
      reg t (.adEResHi v.entry) = hi32 (adcWord v (saturated (isTemp (fld v.cfg 21 6)) x).1 (saturated (isTemp (fld v.cfg 21 6)) x).2 (if s.fr.running then (sampleFrame s (v.c + 160)).2 else 0)) ∧
      reg t (.adEResLo v.entry) = lo32 (adcWord v (saturated (isTemp (fld v.cfg 21 6)) x).1 (saturated (isTemp (fld v.cfg 21 6)) x).2 (if s.fr.running then (sampleFrame s (v.c + 160)).2 else 0)) ∧
      reg t (.adECnt v.entry) = reg s (.adECnt v.entry) + 1 ∧ reg t .adConvCnt = reg s .adConvCnt + 1 ∧
      rbit t .adEvents 0 = true ∧
      t.sp = { s.sp with inbound := s.sp.inbound ++ if fld v.cfg 29 1 = 1 && s.fr.running then [{ tenant := fld v.cfg 0 10, stream := none, frame := (sampleFrame s (v.c + 160)).1, words := [(adcWord v (saturated (isTemp (fld v.cfg 21 6)) x).1 (saturated (isTemp (fld v.cfg 21 6)) x).2 (if s.fr.running then (sampleFrame s (v.c + 160)).2 else 0))], pos := chainPos s }] else [] } ∧
      (v.settling = true → rbit t .adEvents 1 = true) ∧ ((saturated (isTemp (fld v.cfg 21 6)) x).2 = true →
      rbit t .adEvents 2 = true) ∧
      t.ad = { s.ad with conv := none, endAt := v.c + 625, powered := t.ad.powered, seqs := { q with entries := l } :: rest } ∧
      t = { s with now := t.now, regs := t.regs, ad := t.ad, sp := t.sp, fl := t.fl, ev := t.ev, acc := t.acc }) ∧
    (∀ (x : Int) (v : AdcConv) (q : AdcSeq) (rest : List AdcSeq) (i : Nat), s.released = true → s.ad.conv = some v →
      v.entry < 16 → s.fl.clears = [] → s.fl.cleared = [] → s.ad.seqs = q :: rest → q.entries = [i] → v.ft = false →
      s.ad.evHeld = false → Answers (.adcConversionDone x) s fun t => t.now = max s.now (v.c + 625) ∧
      reg t (.adEResHi v.entry) = hi32 (adcWord v (saturated (isTemp (fld v.cfg 21 6)) x).1 (saturated (isTemp (fld v.cfg 21 6)) x).2 (if s.fr.running then (sampleFrame s (v.c + 160)).2 else 0)) ∧
      reg t (.adEResLo v.entry) = lo32 (adcWord v (saturated (isTemp (fld v.cfg 21 6)) x).1 (saturated (isTemp (fld v.cfg 21 6)) x).2 (if s.fr.running then (sampleFrame s (v.c + 160)).2 else 0)) ∧
      reg t (.adECnt v.entry) = reg s (.adECnt v.entry) + 1 ∧ reg t .adConvCnt = reg s .adConvCnt + 1 ∧
      rbit t .adEvents 0 = true ∧
      t.sp = { s.sp with inbound := s.sp.inbound ++ if fld v.cfg 29 1 = 1 && s.fr.running then [{ tenant := fld v.cfg 0 10, stream := none, frame := (sampleFrame s (v.c + 160)).1, words := [(adcWord v (saturated (isTemp (fld v.cfg 21 6)) x).1 (saturated (isTemp (fld v.cfg 21 6)) x).2 (if s.fr.running then (sampleFrame s (v.c + 160)).2 else 0))], pos := chainPos s }] else [] } ∧
      (v.settling = true → rbit t .adEvents 1 = true) ∧ ((saturated (isTemp (fld v.cfg 21 6)) x).2 = true →
      rbit t .adEvents 2 = true) ∧
      t.ad = { s.ad with conv := none, endAt := v.c + 625, powered := t.ad.powered, seqs := rest, evBusy := false } ∧
      t = { s with now := t.now, regs := t.regs, ad := t.ad, sp := t.sp, fl := t.fl, ev := t.ev, acc := t.acc })

/-- A scrubbed word counts its error, and an uncorrectable one is latched and has the effect of its memory; the retention RAM's uncorrectable word reads 0; a correction of a triplicated register counts; gradient readings compare the clusters; a counter clear sets its counter to 0; a queue that loses its integrity is reset, counted and reported. The model's own choices behind it: log entries 3, 4, 5, 6, 50, 55, 66, 67, 68. -/
def Obligations.FaultsAndCounters : Prop :=
  ∀ s : State,
    (∀ (mem c w : Nat), s.released = true → scrubWord mem c w = true → ¬(mem = 5 ∧ c = 31 ∧ w = 1023) →
      Answers (.scrub mem c w .clean) s fun t => t = s) ∧
    (s.released = true → s.fl.clears = [] → s.fl.cleared = [] →
      Answers (.scrub 5 31 1023 .clean) s fun t => reg t .flScrubCnt = reg s .flScrubCnt + 1 ∧
      RegsBut [regAddr .flScrubCnt] s t ∨ reg s .flScrubCnt = 0xFFFFFFFF ∧
      t = { s with regs := t.regs, fl := t.fl, acc := t.acc }) ∧
    (∀ (mem c w : Nat), s.released = true → scrubWord mem c w = true → ¬(mem = 5 ∧ c = 31 ∧ w = 1023) →
      s.fl.clears = [] → s.fl.cleared = [] →
      Answers (.scrub mem c w .data) s fun t => tget (0 : W32) (3 * mem) t.fl.ecc = tget (0 : W32) (3 * mem) s.fl.ecc + 1 ∧
      rbit t .flEvents 0 = true ∧ t = { s with regs := t.regs, fl := t.fl, acc := t.acc }) ∧
    (∀ (mem c w : Nat), s.released = true → scrubWord mem c w = true → ¬(mem = 5 ∧ c = 31 ∧ w = 1023) →
      s.fl.clears = [] → s.fl.cleared = [] →
      Answers (.scrub mem c w .checkbit) s fun t => tget (0 : W32) (3 * mem + 1) t.fl.ecc = tget (0 : W32) (3 * mem + 1) s.fl.ecc + 1 ∧
      rbit t .flEvents 0 = true ∧ t = { s with regs := t.regs, fl := t.fl, acc := t.acc }) ∧
    (∀ (c w : Nat), s.released = true → scrubWord 0 c w = true → s.fl.clears = [] → s.fl.cleared = [] →
      Answers (.scrub 0 c w .multi) s fun t => tget (0 : W32) (3 * 0 + 2) t.fl.ecc = tget (0 : W32) (3 * 0 + 2) s.fl.ecc + 1 ∧
      rbit t .flEvents 1 = true ∧ rbit t .flFpend 9 = true ∧
      reg t .flEccLast = at32 1 31 ||| at32 0 27 ||| at32 c 22 ||| at32 (w % 2 ^ 22) 0 ∧ w ∈ (cluster t c).imemBad ∧
      ClustersBut [c] s t ∧ t.cx = s.cx) ∧
    (∀ (c w : Nat), s.released = true → scrubWord 1 c w = true → s.fl.clears = [] → s.fl.cleared = [] →
      Answers (.scrub 1 c w .multi) s fun t => tget (0 : W32) (3 * 1 + 2) t.fl.ecc = tget (0 : W32) (3 * 1 + 2) s.fl.ecc + 1 ∧
      rbit t .flEvents 1 = true ∧ rbit t .flFpend 9 = true ∧
      reg t .flEccLast = at32 1 31 ||| at32 1 27 ||| at32 c 22 ||| at32 (w % 2 ^ 22) 0 ∧ w ∈ (cluster t c).dmemBad ∧
      ClustersBut [c] s t ∧ t.cx = s.cx) ∧
    (∀ (c w : Nat), s.released = true → scrubWord 2 c w = true → s.fl.clears = [] → s.fl.cleared = [] →
      (ctx s (64 * c + w / 64)).l = false →
      Answers (.scrub 2 c w .multi) s fun t => tget (0 : W32) (3 * 2 + 2) t.fl.ecc = tget (0 : W32) (3 * 2 + 2) s.fl.ecc + 1 ∧
      rbit t .flEvents 1 = true ∧ rbit t .flFpend 9 = true ∧
      reg t .flEccLast = at32 1 31 ||| at32 2 27 ||| at32 c 22 ||| at32 (w % 2 ^ 22) 0 ∧
      (ctx t (64 * c + w / 64)).state = .faulted ∧ fld (ctx t (64 * c + w / 64)).fault 24 8 = 0x09 ∧
      CtxsBut [(64 * c + w / 64)] s t) ∧
    (∀ w : Nat, s.released = true → w < 2 ^ 22 → s.fl.clears = [] → s.fl.cleared = [] → recordAt s w = none →
      Answers (.scrub 3 0 w .multi) s fun t => tget (0 : W32) (3 * 3 + 2) t.fl.ecc = tget (0 : W32) (3 * 3 + 2) s.fl.ecc + 1 ∧
      rbit t .flEvents 1 = true ∧ rbit t .flFpend 9 = true ∧
      reg t .flEccLast = at32 1 31 ||| at32 3 27 ||| at32 0 22 ||| at32 (w % 2 ^ 22) 0 ∧ t.sp.streams = s.sp.streams ∧
      t.cx = s.cx) ∧
    (∀ (w m i : Nat), s.released = true → w < 2 ^ 22 → m < 1024 → s.fl.clears = [] → s.fl.cleared = [] →
      recordAt s w = some (m, i) →
      Answers (.scrub 3 0 w .multi) s fun t => stream t m = { stream s m with recs := (stream s m).recs.eraseIdx i, loss := min (2 ^ 32 - 1) ((stream s m).loss + 1) } ∧
      reg t (.spSLoss m) = reg s (.spSLoss m) + 1 ∧ StreamsBut [m] s t ∧ t.cx = s.cx) ∧
    (∀ (c w : Nat), s.released = true → scrubWord 5 c w = true → s.fl.clears = [] → s.fl.cleared = [] → c < 16 →
      Answers (.scrub 5 c w .multi) s fun t => tget (0 : W32) (3 * 5 + 2) t.fl.ecc = tget (0 : W32) (3 * 5 + 2) s.fl.ecc + 1 ∧
      rbit t .flEvents 1 = true ∧ rbit t .flFpend 9 = true ∧
      reg t .flEccLast = at32 1 31 ||| at32 5 27 ||| at32 c 22 ||| at32 (w % 2 ^ 22) 0 ∧
      tget 0 (w % 1024) (pulse t (16 * c + w / 1024)).bank.delta = 0 ∧
      (pulse t (16 * c + w / 1024)).cal.stale = true ∧ ((pulse s (16 * c + w / 1024)).cal.due = .no →
      (pulse t (16 * c + w / 1024)).cal.due = .turn) ∧ PulsesBut [(16 * c + w / 1024)] s t ∧ t.sl = s.sl ∧
      t.cx = s.cx) ∧
    (∀ (c w : Nat), s.released = true → scrubWord 5 c w = true → s.fl.clears = [] → s.fl.cleared = [] → 16 ≤ c →
      Answers (.scrub 5 c w .multi) s fun t => tget (0 : W32) (3 * 5 + 2) t.fl.ecc = tget (0 : W32) (3 * 5 + 2) s.fl.ecc + 1 ∧
      rbit t .flEvents 1 = true ∧ rbit t .flFpend 9 = true ∧
      reg t .flEccLast = at32 1 31 ||| at32 5 27 ||| at32 c 22 ||| at32 (w % 2 ^ 22) 0 ∧
      tget 0 (w % 64) (stamp t (16 * (c - 16) + w / 64)).bins = 0 ∧
      (stamp t (16 * (c - 16) + w / 64)).cal.stale = true ∧ StampsBut [(16 * (c - 16) + w / 64)] s t ∧ t.pl = s.pl ∧
      t.cx = s.cx) ∧
    (∀ (c w : Nat), s.released = true → scrubWord 4 c w = true → s.fl.clears = [] → s.fl.cleared = [] → c < 16 →
      w % 1024 < (pulse s (16 * c + w / 1024)).queue.length →
      Answers (.scrub 4 c w .multi) s fun t => tget (0 : W32) (3 * 4 + 2) t.fl.ecc = tget (0 : W32) (3 * 4 + 2) s.fl.ecc + 1 ∧
      rbit t .flEvents 1 = true ∧ rbit t .flFpend 9 = true ∧
      reg t .flEccLast = at32 1 31 ||| at32 4 27 ||| at32 c 22 ||| at32 (w % 2 ^ 22) 0 ∧
      pulse t (16 * c + w / 1024) = { pulse s (16 * c + w / 1024) with queue := (pulse s (16 * c + w / 1024)).queue.eraseIdx (w % 1024) } ∧
      reg t (.lnDiscCnt (16 * c + w / 1024)) = reg s (.lnDiscCnt (16 * c + w / 1024)) + 1 ∧
      rbit t (.lnEvents (16 * c + w / 1024)) 4 = true ∧ PulsesBut [(16 * c + w / 1024)] s t ∧ t.sl = s.sl ∧
      t.sp = s.sp) ∧
    (∀ (c w : Nat), s.released = true → scrubWord 4 c w = true → s.fl.clears = [] → s.fl.cleared = [] → 16 ≤ c →
      w % 1024 < (stamp s (16 * (c - 16) + w / 1024)).queue.length →
      Answers (.scrub 4 c w .multi) s fun t => tget (0 : W32) (3 * 4 + 2) t.fl.ecc = tget (0 : W32) (3 * 4 + 2) s.fl.ecc + 1 ∧
      rbit t .flEvents 1 = true ∧ rbit t .flFpend 9 = true ∧
      reg t .flEccLast = at32 1 31 ||| at32 4 27 ||| at32 c 22 ||| at32 (w % 2 ^ 22) 0 ∧
      (stamp t (16 * (c - 16) + w / 1024)).queue = (stamp s (16 * (c - 16) + w / 1024)).queue.eraseIdx (w % 1024) ∧
      reg t (.slQlossCnt (16 * (c - 16) + w / 1024)) = reg s (.slQlossCnt (16 * (c - 16) + w / 1024)) + 1 ∧
      StampsBut [(16 * (c - 16) + w / 1024)] s t ∧ t.pl = s.pl ∧ t.cx = s.cx) ∧
    (∀ (c w : Nat), s.released = true → scrubWord 4 c w = true → s.fl.clears = [] → s.fl.cleared = [] →
      (if c < 16 then (pulse s (16 * c + w / 1024)).queue.length else (stamp s (16 * (c - 16) + w / 1024)).queue.length) ≤ w % 1024 →
      Answers (.scrub 4 c w .multi) s fun t => tget (0 : W32) (3 * 4 + 2) t.fl.ecc = tget (0 : W32) (3 * 4 + 2) s.fl.ecc + 1 ∧
      rbit t .flEvents 1 = true ∧ rbit t .flFpend 9 = true ∧
      reg t .flEccLast = at32 1 31 ||| at32 4 27 ||| at32 c 22 ||| at32 (w % 2 ^ 22) 0 ∧ t.pl = s.pl ∧ t.sl = s.sl ∧
      t.sp = s.sp) ∧
    (∀ w : Nat, s.released = true → w < 2 ^ 20 → s.fl.clears = [] → s.fl.cleared = [] →
      Answers (.scrub 8 0 w .data) s fun t => reg t .jrEccCnt = reg s .jrEccCnt + 1 ∧ rbit t .jrEvents 6 = true ∧
      t = { s with regs := t.regs, fl := t.fl, acc := t.acc }) ∧
    (∀ w : Nat, s.released = true → w < 2 ^ 20 → s.fl.clears = [] → s.fl.cleared = [] →
      Answers (.scrub 8 0 w .checkbit) s fun t => reg t .jrEccCnt = reg s .jrEccCnt + 1 ∧ rbit t .jrEvents 6 = true ∧
      t = { s with regs := t.regs, fl := t.fl, acc := t.acc }) ∧
    (∀ w : Nat, s.released = true → w < 2 ^ 20 → s.fl.clears = [] → s.fl.cleared = [] →
      (8192 + if s.jr.activeB then 520192 else 0) ≤ w → w < (8192 + if s.jr.activeB then 520192 else 0) + s.jr.fill →
      Answers (.scrub 8 0 w .multi) s fun t => tget (0 : W32) (3 * 8 + 2) t.fl.ecc = tget (0 : W32) (3 * 8 + 2) s.fl.ecc + 1 ∧
      rbit t .flEvents 1 = true ∧ rbit t .flFpend 9 = true ∧
      reg t .flEccLast = at32 1 31 ||| at32 8 27 ||| at32 0 22 ||| at32 (w % 2 ^ 22) 0 ∧
      reg t .jrEccCnt = reg s .jrEccCnt + 1 ∧ rbit t .jrEvents 6 = true ∧ t.jr = { s.jr with bad := t.jr.bad } ∧
      w - (8192 + if s.jr.activeB then 520192 else 0) ∈ t.jr.bad ∧ t.tn = s.tn) ∧
    (∀ w : Nat, s.released = true → w < 2 ^ 20 → s.fl.clears = [] → s.fl.cleared = [] → 4096 ≤ w →
      w < (8192 + if s.jr.activeB then 520192 else 0) ∨ (8192 + if s.jr.activeB then 520192 else 0) + s.jr.fill ≤ w →
      Answers (.scrub 8 0 w .multi) s fun t => tget (0 : W32) (3 * 8 + 2) t.fl.ecc = tget (0 : W32) (3 * 8 + 2) s.fl.ecc + 1 ∧
      rbit t .flEvents 1 = true ∧ rbit t .flFpend 9 = true ∧
      reg t .flEccLast = at32 1 31 ||| at32 8 27 ||| at32 0 22 ||| at32 (w % 2 ^ 22) 0 ∧
      reg t .jrEccCnt = reg s .jrEccCnt + 1 ∧ rbit t .jrEvents 6 = true ∧ t.jr = s.jr ∧ t.tn = s.tn) ∧
    (∀ w : Nat, s.released = true → w < 2 ^ 20 → s.fl.clears = [] → s.fl.cleared = [] → w < 4096 → w % 4 ≠ 2 →
      Answers (.scrub 8 0 w .multi) s fun t => tget (0 : W32) (3 * 8 + 2) t.fl.ecc = tget (0 : W32) (3 * 8 + 2) s.fl.ecc + 1 ∧
      rbit t .flEvents 1 = true ∧ rbit t .flFpend 9 = true ∧
      reg t .flEccLast = at32 1 31 ||| at32 8 27 ||| at32 0 22 ||| at32 (w % 2 ^ 22) 0 ∧
      reg t .jrEccCnt = reg s .jrEccCnt + 1 ∧ rbit t .jrEvents 6 = true ∧ keyWord t.tn.keys (w / 4) (w % 4) = 0 ∧
      fld (keyWord t.tn.keys (w / 4) 3) 63 1 = 0 ∧ (keyIn t.tn.keys (w / 4)).valid = false ∧ t.jr = s.jr) ∧
    (∀ w : Nat, s.released = true → w < 2 ^ 20 → s.fl.clears = [] → s.fl.cleared = [] → w < 4096 → w % 4 = 2 →
      Answers (.scrub 8 0 w .multi) s fun t => tget (0 : W32) (3 * 8 + 2) t.fl.ecc = tget (0 : W32) (3 * 8 + 2) s.fl.ecc + 1 ∧
      rbit t .flEvents 1 = true ∧ rbit t .flFpend 9 = true ∧
      reg t .flEccLast = at32 1 31 ||| at32 8 27 ||| at32 0 22 ||| at32 (w % 2 ^ 22) 0 ∧
      reg t .jrEccCnt = reg s .jrEccCnt + 1 ∧ rbit t .jrEvents 6 = true ∧
      keyWord t.tn.keys (w / 4) 2 = BitVec.ofNat 64 (Config.freeNat s.free) ∧ t.free = s.free + 1 ∧ (∀ i, i ≠ 2 →
      i < 4 → keyWord t.tn.keys (w / 4) i = keyWord s.tn.keys (w / 4) i) ∧ t.jr = s.jr) ∧
    (∀ w : Nat, w < 1024 → Answers (.rramScrub w .clean) s fun t => t = s) ∧
    (∀ w : Nat, s.released = true → w < 1024 → s.fl.clears = [] → s.fl.cleared = [] →
      Answers (.rramScrub w .multi) s fun t => rramGet t w = 0 ∧
      tget (0 : W32) 23 t.fl.ecc = tget (0 : W32) 23 s.fl.ecc + 1 ∧ rbit t .flFpend 9 = true ∧
      reg t .flEccLast = at32 1 31 ||| at32 7 27 ||| at32 0 22 ||| at32 (w % 2 ^ 22) 0 ∧ t.cx = s.cx) ∧
    (∀ w : Nat, s.released = true → w < 1024 → s.fl.clears = [] → s.fl.cleared = [] →
      Answers (.rramScrub w .data) s fun t => tget (0 : W32) 21 t.fl.ecc = tget (0 : W32) 21 s.fl.ecc + 1 ∧
      t.byre = s.byre ∧ t = { s with regs := t.regs, fl := t.fl, acc := t.acc }) ∧
    (∀ (w : Nat) (e : EccKind), s.released = false → w < 1024 → Answers (.rramScrub w e) s fun t => t.fl = s.fl ∧
      t.regs = s.regs ∧ (e = .multi → rramGet t w = 0) ∧ (e ≠ .multi → t = s) ∧ t = { s with byre := t.byre }) ∧
    (s.released = true → s.fl.clears = [] → s.fl.cleared = [] →
      Answers (.tmrCorrection) s fun t => reg t .flTmrCnt = reg s .flTmrCnt + 1 ∧
      t = { s with regs := t.regs, fl := t.fl, acc := t.acc }) ∧
    (∀ (c : Nat) (v p : Int), s.released = true → c < 32 →
      Answers (.gradientReading c v p) s fun t => cluster t c = { cluster s c with vdd := v, phase := p, graded := true } ∧
      ClustersBut [c] s t ∧
      reg t .flGradMax = gradMax (modCluster c (fun u => { u with vdd := v, phase := p, graded := true }) s) ∧
      t.cx = s.cx ∧ t.now = s.now) ∧
    (∀ (c b : Nat) (v p : Int), s.released = true → c < 32 → b < 32 → b ≠ c →
      (gradClusters (modCluster c (fun u => { u with vdd := v, phase := p, graded := true }) s)) = [b, c] →
      25 < (v - (cluster s b).vdd).natAbs → rbit s .flGrad c = false → rbit s .flGrad b = false →
      Answers (.gradientReading c v p) s fun t => (∀ d, d < 32 → d ∈ [c, b] → rbit t .flGrad d = true) ∧
      rbit t .flEvents 4 = true ∧ rbit t .flFpend 0x0D = true ∧ t.fr.flags = s.fr.flags ||| flagDegraded) ∧
    (∀ (c : Nat) (v p : Int), s.released = true → c < 32 →
      ((gradClusters (modCluster c (fun u => { u with vdd := v, phase := p, graded := true }) s)).all fun a => !rbit s .flGrad a && (gradClusters (modCluster c (fun u => { u with vdd := v, phase := p, graded := true }) s)).all fun b => !beyond (gradDiff (modCluster c (fun u => { u with vdd := v, phase := p, graded := true }) s) a b)) = true →
      Answers (.gradientReading c v p) s fun t => (∀ d ∈ (gradClusters (modCluster c (fun u => { u with vdd := v, phase := p, graded := true }) s)), rbit t .flGrad d = rbit s .flGrad d) ∧
      t.fl = s.fl ∧ t.sp = s.sp ∧ t.fr = s.fr ∧ RegsBut [regAddr .flGradMax] s t) ∧
    (∀ n : Nat, s.released = true → s.fl.clears = [(n, regAddr .ptQintCnt)] →
      Answers (.counterClear) s fun t => reg t .ptQintCnt = 0 ∧ t.fl.clears = [] ∧ t.now = max s.now (2 * n) ∧
      RegsBut [regAddr .ptQintCnt] s t ∧ t = { s with now := t.now, regs := t.regs, fl := t.fl, acc := t.acc }) ∧
    (∀ (n : Nat) (q : Nat × Nat), s.released = true → s.fl.clears = [q, (n, regAddr .flTmrCnt)] → n < q.1 →
      Answers (.counterClear) s fun t => reg t .flTmrCnt = 0 ∧ t.fl.clears = [q] ∧ t.now = max s.now (2 * n) ∧
      t = { s with now := t.now, regs := t.regs, fl := t.fl, acc := t.acc }) ∧
    (∀ q : Nat, s.released = true → (q = 0 ∨ q = 1) → s.fl.clears = [] → s.fl.cleared = [] →
      Answers (.queueIntegrity q) s fun t => reg t .ptQintCnt = reg s .ptQintCnt + 1 ∧
      reg t .ptQintLast = at32 1 31 ||| at32 q 0 ∧ rbit t .flFpend 0x13 = true ∧ rbit t (.ptEvents 0) 7 = true ∧
      (q % 2 = 0 → (port t 0).part = none) ∧ PortsBut [0] s t ∧ t.cx = s.cx ∧ t.mspi = s.mspi) ∧
    (∀ q : Nat, s.released = true → (q = 2 ∨ q = 3) → s.fl.clears = [] → s.fl.cleared = [] →
      Answers (.queueIntegrity q) s fun t => reg t .ptQintCnt = reg s .ptQintCnt + 1 ∧
      reg t .ptQintLast = at32 1 31 ||| at32 q 0 ∧ rbit t .flFpend 0x13 = true ∧ rbit t (.ptEvents 1) 7 = true ∧
      (q % 2 = 0 → (port t 1).part = none) ∧ PortsBut [1] s t ∧ t.cx = s.cx ∧ t.mspi = s.mspi) ∧
    (∀ q : Nat, s.released = true → (q = 4 ∨ q = 5) → s.fl.clears = [] → s.fl.cleared = [] →
      Answers (.queueIntegrity q) s fun t => reg t .ptQintCnt = reg s .ptQintCnt + 1 ∧
      reg t .ptQintLast = at32 1 31 ||| at32 q 0 ∧ rbit t .flFpend 0x13 = true ∧ rbit t (.ptEvents 3) 7 = true ∧
      (q % 2 = 0 → (port t 3).part = none) ∧ PortsBut [3] s t ∧ t.cx = s.cx ∧ t.mspi = s.mspi) ∧
    (∀ q : Nat, s.released = true → q = 6 ∨ q = 7 ∨ q = 8 → s.fl.clears = [] → s.fl.cleared = [] →
      Answers (.queueIntegrity q) s fun t => reg t .ptQintCnt = reg s .ptQintCnt + 1 ∧
      reg t .ptQintLast = at32 1 31 ||| at32 q 0 ∧ rbit t .flFpend 0x13 = true ∧ (q = 7 → t.mspi.cmd = none) ∧
      (q = 8 → t.mspi.rsp = none) ∧ (q = 6 → t.mspi = s.mspi) ∧ t.pt = s.pt ∧ t.cx = s.cx) ∧
    (∀ q : Nat, s.released = true → 0x20 ≤ q → q < 0x40 → s.fl.clears = [] → s.fl.cleared = [] →
      Answers (.queueIntegrity q) s fun t => reg t .ptQintCnt = reg s .ptQintCnt + 1 ∧
      reg t .ptQintLast = at32 1 31 ||| at32 q 0 ∧ rbit t .flFpend 0x13 = true ∧ t.pt = s.pt ∧ t.mspi = s.mspi ∧
      t.cx = s.cx ∧ (∀ r ∈ t.sp.inbound, r.cl = some (q - 0x20) → r ∉ s.sp.inbound))

/-- A write while the core is held in reset has no effect; an address that is no multiple of 4, that names no register, a tenant that is not active and a register the tenant may not write are refused with a code and change nothing but the event of the unit that reports it; a budget and a partition write becomes a record; an event register clears the bits written as 1 but those that hardware sets in the same lane cycle; a peek address is ignored. The model's own choices behind it: log entries 3, 4, 7, 46, 48. -/
def Obligations.RegisterWrites : Prop :=
  ∀ s : State,
    (∀ (who : Who) (a : Nat) (v : W32), s.released = false → Answers (.registerWrite who a v) s fun t => t = s) ∧
    (∀ (who : Who) (a : Nat) (v : W32), s.released = true → writerActive s who.tenant = true → a % 4 ≠ 0 →
      Answers (.registerWrite who a v) s fun t => t = { s with busStatus := 0x05 }) ∧
    (∀ (who : Who) (a : Nat) (v : W32), s.released = true → writerActive s who.tenant = false →
      Answers (.registerWrite who a v) s fun t => t = { s with busStatus := 0x04 }) ∧
    (∀ (who : Who) (a : Nat) (v : W32), s.released = true → writerActive s who.tenant = true → a % 4 = 0 →
      regOfAddr a = none → Answers (.registerWrite who a v) s fun t => t = { s with busStatus := writeNowhere a }) ∧
    (∀ (who : Who) (r : Reg) (a : Nat) (v : W32), s.released = true → writerActive s who.tenant = true → a % 4 = 0 →
      regOfAddr a = some r → mayWrite s who.tenant r v = false →
      Answers (.registerWrite who a v) s fun t => t.busStatus = 0x04 ∧
      t = { s with regs := t.regs, busStatus := t.busStatus, acc := t.acc } ∧ (rightsFlag r s = s → t.regs = s.regs)) ∧
    (∀ (who : Who) (v : W32), s.released = true → who.tenant = 0 →
      Answers (.registerWrite who (regAddr .tbEvents) v) s fun t => reg t .tbEvents = reg s .tbEvents &&& ~~~(v &&& regW1cMask .tbEvents &&& ~~~setNow s (regAddr .tbEvents)) ∧
      t.busStatus = 0 ∧ RegsBut [regAddr .tbEvents] s t ∧
      t = { s with regs := t.regs, busStatus := t.busStatus, acc := t.acc }) ∧
    (∀ (who : Who) (v : W32), s.released = true → who.tenant = 0 →
      Answers (.registerWrite who (regAddr .spEvents) v) s fun t => reg t .spEvents = reg s .spEvents &&& ~~~(v &&& regW1cMask .spEvents &&& ~~~setNow s (regAddr .spEvents)) ∧
      t.busStatus = 0 ∧ RegsBut [regAddr .spEvents] s t ∧
      t = { s with regs := t.regs, busStatus := t.busStatus, acc := t.acc }) ∧
    (∀ (who : Who) (v : W32), s.released = true → who.tenant = 0 →
      Answers (.registerWrite who (regAddr .jrEvents) v) s fun t => reg t .jrEvents = reg s .jrEvents &&& ~~~(v &&& regW1cMask .jrEvents &&& ~~~setNow s (regAddr .jrEvents)) ∧
      t.busStatus = 0 ∧ RegsBut [regAddr .jrEvents] s t ∧
      t = { s with regs := t.regs, busStatus := t.busStatus, acc := t.acc }) ∧
    (∀ (who : Who) (v : W32), s.released = true → who.tenant = 0 →
      Answers (.registerWrite who (regAddr .flEvents) v) s fun t => reg t .flEvents = reg s .flEvents &&& ~~~(v &&& regW1cMask .flEvents &&& ~~~setNow s (regAddr .flEvents)) ∧
      t.busStatus = 0 ∧ RegsBut [regAddr .flEvents] s t ∧
      t = { s with regs := t.regs, busStatus := t.busStatus, acc := t.acc }) ∧
    (∀ (who : Who) (v : W32), s.released = true → who.tenant = 0 → journalRefused s 0 none 1 = none →
      Answers (.registerWrite who (regAddr .spDevid) v) s fun t => t.jr = { s.jr with nextId := s.jr.nextId + 1, cmdQ := s.jr.cmdQ ++ [{ id := s.jr.nextId, type := 0x01, tenant := 0, sched := none, payload := regPayload (regAddr .spDevid) v, replay := false }] } ∧
      t.busStatus = 0 ∧ t = { s with jr := t.jr, busStatus := t.busStatus }) ∧
    (∀ (who : Who) (v : W32), s.released = true → who.tenant = 0 → journalRefused s 0 none 1 = none →
      Answers (.registerWrite who (regAddr .byWake) v) s fun t => t.jr = { s.jr with nextId := s.jr.nextId + 1, cmdQ := s.jr.cmdQ ++ [{ id := s.jr.nextId, type := 0x01, tenant := 0, sched := none, payload := regPayload (regAddr .byWake) v, replay := false }] } ∧
      t.busStatus = 0 ∧ t = { s with jr := t.jr, busStatus := t.busStatus }) ∧
    (∀ (who : Who) (v : W32), s.released = true → who.tenant = 0 → fld v 16 11 ≤ fld v 0 11 →
      Answers (.registerWrite who (regAddr .spWm0) v) s fun t => t.busStatus = 0x04 ∧ rbit t .spEvents 6 = true ∧
      RegsBut [regAddr .spEvents] s t ∧ t = { s with regs := t.regs, busStatus := t.busStatus, acc := t.acc })

/-- With command c at the front of the queue, a step is exec of c on the state with the rest of the queue. On an empty queue (the model's choice, log entry 4) a lane cycle passes while the core is released, a keeper cycle while it is held in reset, and nothing else changes. -/
def Obligations.StepRunsTheFrontCommand : Prop :=
  ∀ s : State,
    (∀ (c : Instr) (rest : List Instr), s.pending = c :: rest → step s = exec c { s with pending := rest }) ∧
    (s.pending = [] → s.released = true → step s = .next { s with now := s.now + 2 }) ∧
    (s.pending = [] → s.released = false → step s = .next { s with byre := { s.byre with kc := s.byre.kc + 1 } })

/-- Every plain register reads its reset value of the field tables; the core is held in reset and the Byre begins a power-up with cause 0x1; the frame period is 320, FR_BUD_JR.INTERVAL 625, RELOAD of the keeper timer 0x8000, CL_BUD_SYS_MIN 0xFFFF, the channels are enabled, every context's registers are 0 and it is FREE, the retention RAM is 0 but for the CAUSE of the start, the fault log empty and no command waits. The model's own choices behind it: log entries 1, 2, 9, 10, 11, 34. -/
def Obligations.ResetValues : Prop :=
  (∀ r : Reg, reg State.reset r = regReset r) ∧ State.reset.released = false ∧ State.reset.byre.state = .powerup ∧
    State.reset.byre.cause = 1 ∧ State.reset.fr.period = 320 ∧ interval State.reset = 625 ∧
    reg State.reset .byKtReload = 0x8000 ∧ (∀ c, reg State.reset (.clBudSysMin c) = 0xFFFF) ∧
    (∀ n, rbit State.reset (.evMcCtl n) 31 = true) ∧ (∀ c n, rbit State.reset (.clCcCtl c n) 31 = true) ∧
    (∀ x i, gOf State.reset x i = 0) ∧ (∀ x j, tOf State.reset x j = 0) ∧
    (∀ x, (ctx State.reset x).pc = 0 ∧ (ctx State.reset x).r.rstk = [] ∧ (ctx State.reset x).state = .free) ∧
    (∀ i, rramGet State.reset i = if i = 1 then at32 1 28 else 0) ∧
    (∀ k, (logAt State.reset.byre.rram k).seq = 0) ∧ State.reset.pending = []

/-- The register bank and the retention RAM are in their order, the buffers of the fault unit hold at most 16 entries, and a released core is in START, RUN or DRAIN. The model's own choice behind it: log entry 1. -/
def Obligations.InvAtReset : Prop :=
  StateInv State.reset

/-- From every state in which the register bank and the retention RAM are in their order, the buffers of the fault unit hold at most 16 entries, and a released core is in START, RUN or DRAIN, every step leads to such a state. The model's own choices behind it: log entries 3, 4. -/
def Obligations.StepKeepsInv : Prop :=
  ∀ s t : State, StateInv s → step s = .next t → StateInv t

/-- Whatever command runs, in whatever state, the commands that wait behind it are the same after it. The model's own choices behind it: log entries 3, 17. -/
def Obligations.QueueUntouched : Prop :=
  ∀ (c : Instr) (s t : State), exec c s = .next t → t.pending = s.pending

/-- A command whose operands are within the numbers of the device has a next state in every state; no command faults, and one that is refused is refused because it names no unit. The model's own choices behind it: log entries 3, 4, 17. -/
def Obligations.CommandsComplete : Prop :=
  (∀ (c : Instr) (s : State), c.wf = true → Answers c s fun _ => True) ∧
    (∀ (c : Instr) (s : State), ∀ f, exec c s ≠ .fault f) ∧
    (∀ (c : Instr) (s : State) (r : Refusal), exec c s = .refused r → r = .noSuchUnit)

/-- A write at an address of the peek alias changes no register, no event flag and no log: nothing but the code of its answer, which reports no fault where the issuer may write at all. -/
def Obligations.PeekWritesAreIgnored : Prop :=
  ∀ s : State,
    (∀ (who : Who) (a : Nat) (v : W32), 2 ^ 31 ≤ a → a % 4 = 0 →
      Answers (.registerWrite who a v) s fun t => t = { s with busStatus := t.busStatus } ∧ (s.released = true →
      writerActive s who.tenant = true → t.busStatus = 0))

/-- At a tick at which the frame counter carries out of bit 47 and is not loaded, it becomes 0, TB_EPOCH increments by 1, the frame that begins carries COARSE_WRAP, FR_EVENTS.FCNT_WRAP is set and TB_DISC stays. The records that apply at the tick are none. -/
def Obligations.FrameCounterCarries : Prop :=
  ∀ s : State,
    (s.released = true → s.fr.running = true → s.tb.tset = false → s.fr.count = 2 ^ 48 - 1 →
      s.tb.tickPending = true ∨ (s.tb.ts ≠ .holdover ∧ syncFirst s = false) → s.jr.done = [] → s.jr.sched = [] →
      s.jr.deferred = [] → Answers (.frameTick) s fun t => t.fr.count = 0 ∧ reg t .tbEpoch = reg s .tbEpoch + 1 ∧
      t.fr.flags &&& flagWrap = flagWrap ∧ rbit t .frEvents 2 = true ∧ reg t .tbDisc = reg s .tbDisc)

/-- A word is written FR_BUD_JR.INTERVAL lane cycles or more after the word before it, and never before the present; the next interval counts from the lane cycle of the word itself, so an interval without a word gives no credit. A write of FR_BUD_JR stores an INTERVAL below 625 as 625. -/
def Obligations.JournalWriterInterval : Prop :=
  ∀ s : State,
    (∀ m : Nat, s.released = true → writerWorks s = true → s.jr.lastLc = some m → (port s 0).buf = [] →
      (port s 1).buf = [] → s.mspi.cmd = none → Answers (.journalWordWrite) s fun t => m + interval s ≤ writerLc s ∧
      lc s ≤ writerLc s ∧ t.jr.lastLc = some (writerLc s) ∧ lc t = writerLc s) ∧
    (∀ (who : Who) (v : W32), s.released = true → who.tenant = 0 →
      Answers (.registerWrite who (regAddr .frBudJr) v) s fun t => interval t = max 625 (fld v 0 16) ∧
      t.busStatus = 0)

/-- CALL pushes the address of the next instruction onto the return stack and RET pops it; a CALL that finds 8 entries, and a RET that finds none, faults its context with ILLEGAL_INSTRUCTION and leaves the stack and the PC unchanged. -/
def Obligations.CallsAndReturns : Prop :=
  ∀ s : State,
    (∀ (c x : Nat) (w : W32) (pc : BitVec 13), Issues s c x .call w = true → jumpTarget s x w = some pc →
      (ctx s x).r.rstk.length < 8 →
      Answers (.call c) s fun t => (ctx t x).r.rstk = ((ctx s x).pc + 1) :: (ctx s x).r.rstk ∧ (ctx t x).pc = pc) ∧
    (∀ (c x : Nat) (w : W32), Issues s c x .call w = true → 8 ≤ (ctx s x).r.rstk.length →
      Answers (.call c) s fun t => (ctx t x).state = .faulted ∧
      (ctx t x).fault = at32 5 24 ||| at32 (ctx s x).pc.toNat 0 ∧ (ctx t x).r.rstk = (ctx s x).r.rstk ∧
      (ctx t x).pc = (ctx s x).pc) ∧
    (∀ (c x : Nat) (w : W32) (pc : BitVec 13) (rest : List (BitVec 13)), Issues s c x .ret w = true →
      (ctx s x).r.rstk = pc :: rest → Answers (.ret c) s fun t => (ctx t x).r.rstk = rest ∧ (ctx t x).pc = pc) ∧
    (∀ (c x : Nat) (w : W32), Issues s c x .ret w = true → (ctx s x).r.rstk = [] →
      Answers (.ret c) s fun t => (ctx t x).state = .faulted ∧
      (ctx t x).fault = at32 5 24 ||| at32 (ctx s x).pc.toNat 0 ∧ (ctx t x).r.rstk = (ctx s x).r.rstk ∧
      (ctx t x).pc = (ctx s x).pc)

/-- At each release of the core a start begins; it is warm when CAUSE is 0x6 or 0x7, VALID of the wake record is 1 and BY_CFG.WARM is 1, and cold otherwise. -/
def Obligations.WarmAndColdStarts : Prop :=
  ∀ s : State,
    (s.byre.state = .powerup → s.byre.pwren = 15 → Answers (.powerStep) s fun t => t.released = true ∧
      t.byre.state = .start ∧ (t.byre.warm = true ↔ (s.byre.cause = 6 ∨ s.byre.cause = 7) ∧
      bitAt (rramGet s 0) 31 = true ∧ rbit s .byCfg 4 = true)) ∧
    (s.byre.state = .reset → s.byre.pwren = 15 → s.byre.rails = 0x3F →
      Answers (.hardResetEnd) s fun t => t.released = true ∧ t.byre.state = .start ∧
      (t.byre.warm = true ↔ (s.byre.cause = 6 ∨ s.byre.cause = 7) ∧ bitAt (rramGet s 0) 31 = true ∧
      rbit s .byCfg 4 = true))

/-- The oldest buffered entry is in the log 8 lane cycles later: in the eight words from word 0x200 + 8 ((SEQ − 1) mod 64) of the retention RAM, with SEQ, CODE, REPEAT, OBJECT, the frame, FROZEN, the epoch, TIME and DETAIL as a detection that is not folded took them; no other word changes. -/
def Obligations.FaultLogLayout : Prop :=
  ∀ s : State,
    (∀ (e : LogEntry) (l : List LogEntry), s.released = true → s.fl.buf = e :: l →
      Answers (.faultLogWrite) s fun t => t = { s with now := max s.now (2 * s.fl.logDue), fl := { s.fl with buf := l, logDue := s.fl.logDue + 8 }, byre := { s.byre with rram := t.byre.rram } } ∧
      rramGet t (0x200 + 8 * ((e.seq - 1) % 64)) = BitVec.ofNat 32 e.seq ∧
      rramGet t ((0x200 + 8 * ((e.seq - 1) % 64)) + 1) = at32 (e.code % 256) 24 ||| at32 (e.rep % 256) 16 ||| at32 (e.obj % 65536) 0 ∧
      rramGet t ((0x200 + 8 * ((e.seq - 1) % 64)) + 2) = BitVec.ofNat 32 e.frame ∧
      rramGet t ((0x200 + 8 * ((e.seq - 1) % 64)) + 3) = at32 (b2n e.frozen) 31 ||| at32 (e.frame / 2 ^ 32 % 65536) 0 ∧
      rramGet t ((0x200 + 8 * ((e.seq - 1) % 64)) + 4) = e.epoch ∧
      rramGet t ((0x200 + 8 * ((e.seq - 1) % 64)) + 5) = BitVec.ofNat 32 e.time ∧
      rramGet t ((0x200 + 8 * ((e.seq - 1) % 64)) + 6) = lo32 e.detail ∧
      rramGet t ((0x200 + 8 * ((e.seq - 1) % 64)) + 7) = hi32 e.detail ∧
      (∀ j, j < (0x200 + 8 * ((e.seq - 1) % 64)) ∨ (0x200 + 8 * ((e.seq - 1) % 64)) + 8 ≤ j →
      rramGet t j = rramGet s j)) ∧
    (∀ q : Nat, s.released = true → q < 9 → s.fl.newest = none → s.fl.buf.length < 16 →
      Answers (.queueIntegrity q) s fun t => t.fl.buf = s.fl.buf ++ [{ seq := logSucc s.fl.seq, code := 0x13, rep := 0, obj := q, frame := s.fr.count, frozen := !s.fr.running, epoch := reg s .tbEpoch, time := frameOff s, detail := 0 }] ∧
      t.fl.seq = logSucc s.fl.seq)

/-- A write of 1 to SAFE_CLR applies at a keeper-clock edge: with SAFE_N high at that edge and at the edge before it, it clears PIN and GATE_ALL and no other cause; otherwise it clears nothing and sets BY_EVENTS.CFG_REJ. -/
def Obligations.SafeClear : Prop :=
  ∀ s : State,
    (∀ (src : ByPath) (high : Bool), ByMay s src = true → s.byre.mirror = [] →
      Answers (.safeClr src high) s fun t => t.byre.kc = s.byre.kc + 2 ∧ (high = true → s.byre.pinLow = false →
      t.byre.safe = s.byre.safe &&& ~~~0x03) ∧ (high = false ∨ s.byre.pinLow = true → t.byre.safe = s.byre.safe ∧
      rbit t .byEvents 7 = true ∧ t.pl = s.pl) ∧ t.byre.state = s.byre.state ∧ t.cx = s.cx)
end

