-- ==== Sys2Proof/Laws/Tables.lean ====
section
/-! SUPPORT. Laws of tables: reading after writing, and that every table operation keeps the numbers rising. -/
namespace Sys2Proof.Laws

open Sys2Proof.Machine Sys2Proof.Safety

variable {α : Type}

theorem tget_terase_ne (e : α) {k j : Nat} (h : j ≠ k) : ∀ t : Tbl α, tget e j (terase k t) = tget e j t
  | [] => rfl
  | (k', v) :: t => by
    by_cases hk : k = k'
    · subst hk
      simp [terase, tget, h, tget_terase_ne e h t]
    · simp [terase, tget, hk, tget_terase_ne e h t]

theorem tget_terase_same (d : α) (k : Nat) : ∀ t : Tbl α, tget d k (terase k t) = d
  | [] => rfl
  | (k', v) :: t => by
    by_cases hk : k = k'
    · subst hk
      simp [terase, tget_terase_same d k t]
    · simp [terase, tget, hk, tget_terase_same d k t]

theorem tget_tinsert_ne (e : α) {k j : Nat} (v : α) (h : j ≠ k) : ∀ t : Tbl α, tget e j (tinsert k v t) = tget e j t
  | [] => by simp [tinsert, tget, h]
  | (k', v') :: t => by
    unfold tinsert
    split
    · simp [tget, h]
    · simp [tget, tget_tinsert_ne e v h t]

theorem tget_tinsert_same (d : α) (k : Nat) (v : α) : ∀ t : Tbl α, tget d k (tinsert k v (terase k t)) = v
  | [] => by simp [terase, tinsert, tget]
  | (k', v') :: t => by
    by_cases hk : k = k'
    · subst hk
      simp [terase, tget_tinsert_same d k v t]
    · simp only [terase, hk, ↓reduceIte, tinsert]
      split
      · simp [tget]
      · simp [tget, hk, tget_tinsert_same d k v t]

/-- A cell read after it is set gives the value set. -/
@[simp] theorem tget_tset [DecidableEq α] (d : α) (k : Nat) (v : α) (t : Tbl α) : tget d k (tset d k v t) = v := by
  unfold tset
  split
  · rename_i h; rw [h, tget_terase_same]
  · exact tget_tinsert_same d k v t

/-- Setting a cell leaves every other cell alone. -/
theorem tget_tset_ne [DecidableEq α] (d e : α) {k j : Nat} (v : α) (t : Tbl α) (h : j ≠ k) :
    tget e j (tset d k v t) = tget e j t := by
  unfold tset
  split
  · exact tget_terase_ne e h t
  · rw [tget_tinsert_ne e v h, tget_terase_ne e h]

@[simp] theorem tget_tmod [DecidableEq α] (d : α) (k : Nat) (f : α → α) (t : Tbl α) :
    tget d k (tmod d k f t) = f (tget d k t) := tget_tset d k _ t

theorem tget_tmod_ne [DecidableEq α] (d e : α) {k j : Nat} (f : α → α) (t : Tbl α) (h : j ≠ k) :
    tget e j (tmod d k f t) = tget e j t := tget_tset_ne d e _ t h

theorem mem_terase {k : Nat} {p : Nat × α} : ∀ {t : Tbl α}, p ∈ terase k t → p ∈ t ∧ p.1 ≠ k
  | [], h => by simp [terase] at h
  | (k', v) :: t, h => by
    by_cases hk : k = k'
    · simp only [terase, hk, ↓reduceIte] at h
      have := mem_terase (k := k) (t := t) (by rw [hk]; exact h)
      exact ⟨List.mem_cons_of_mem _ this.1, this.2⟩
    · simp only [terase, hk, ↓reduceIte, List.mem_cons] at h
      rcases h with rfl | h
      · exact ⟨List.mem_cons_self, fun e => hk e.symm⟩
      · exact ⟨List.mem_cons_of_mem _ (mem_terase h).1, (mem_terase h).2⟩

theorem rising_terase (k : Nat) : ∀ {t : Tbl α}, Rising t → Rising (terase k t)
  | [], _ => List.Pairwise.nil
  | (k', v) :: t, h => by
    obtain ⟨h1, h2⟩ := List.pairwise_cons.mp h
    by_cases hk : k = k'
    · simpa [terase, hk] using rising_terase k' h2
    · simp only [terase, hk, ↓reduceIte]
      exact List.pairwise_cons.mpr ⟨fun p hp => h1 p (mem_terase hp).1, rising_terase k h2⟩

theorem mem_tinsert {k : Nat} {v : α} {p : Nat × α} : ∀ {t : Tbl α}, p ∈ tinsert k v t → p = (k, v) ∨ p ∈ t
  | [], h => by simpa [tinsert] using h
  | (k', v') :: t, h => by
    unfold tinsert at h
    split at h
    · simpa using h
    · rcases List.mem_cons.mp h with rfl | h
      · exact .inr List.mem_cons_self
      · rcases mem_tinsert h with h | h
        · exact .inl h
        · exact .inr (List.mem_cons_of_mem _ h)

theorem rising_tinsert {k : Nat} {v : α} : ∀ {t : Tbl α}, Rising t → (∀ p ∈ t, p.1 ≠ k) → Rising (tinsert k v t)
  | [], _, _ => by simp [tinsert, Rising]
  | (k', v') :: t, h, hk => by
    obtain ⟨h1, h2⟩ := List.pairwise_cons.mp h
    unfold tinsert
    split
    · rename_i hlt
      refine List.pairwise_cons.mpr ⟨fun p hp => ?_, h⟩
      rcases List.mem_cons.mp hp with rfl | hp
      · exact hlt
      · exact Nat.lt_trans hlt (h1 p hp)
    · rename_i hlt
      refine List.pairwise_cons.mpr ⟨fun p hp => ?_, rising_tinsert h2 fun p hp => hk p (List.mem_cons_of_mem _ hp)⟩
      rcases mem_tinsert hp with rfl | hp
      · have := hk (k', v') List.mem_cons_self
        simp only [ne_eq] at this
        simp only
        omega
      · exact h1 p hp

/-- Setting a cell keeps a table rising. -/
theorem rising_tset [DecidableEq α] (d : α) (k : Nat) (v : α) {t : Tbl α} (h : Rising t) : Rising (tset d k v t) := by
  unfold tset
  split
  · exact rising_terase k h
  · exact rising_tinsert (rising_terase k h) fun p hp => (mem_terase hp).2

/-- Leaving out cells keeps a table rising. -/
theorem rising_filter (f : Nat × α → Bool) {t : Tbl α} (h : Rising t) : Rising (t.filter f) := h.filter f

/-- The canonical form said twice over: the numbers rise, and no listed cell reads as an unlisted one. -/
theorem twf_iff [DecidableEq α] (d : Nat → α) : ∀ t : Tbl α, twf d t = true ↔ Rising t ∧ ∀ p ∈ t, p.2 ≠ d p.1
  | [] => by simp [twf, Rising]
  | [(k, v)] => by simp [twf, Rising]
  | (k, v) :: (k', v') :: t => by
    have ih := twf_iff d ((k', v') :: t)
    simp only [twf, Bool.and_eq_true, decide_eq_true_eq, ih, Rising, List.pairwise_cons, List.mem_cons]
    constructor
    · rintro ⟨⟨hv, hk⟩, ⟨h1, h2⟩, h3⟩
      refine ⟨⟨?_, h1, h2⟩, ?_⟩
      · rintro p (rfl | hp)
        · exact hk
        · exact Nat.lt_trans hk (h1 p hp)
      · rintro p (rfl | hp)
        · exact hv
        · exact h3 p hp
    · rintro ⟨⟨h0, h1, h2⟩, h3⟩
      exact ⟨⟨h3 _ (.inl rfl), h0 _ (.inl rfl)⟩, ⟨h1, h2⟩, fun p hp => h3 p (.inr hp)⟩

/-- Setting a cell keeps the canonical form. -/
theorem twf_tset [DecidableEq α] (d : Nat → α) (k : Nat) (v : α) {t : Tbl α} (h : twf d t = true) :
    twf d (tset (d k) k v t) = true := by
  rw [twf_iff] at h ⊢
  refine ⟨rising_tset _ k v h.1, fun p hp => ?_⟩
  unfold tset at hp
  split at hp
  · exact h.2 p (mem_terase hp).1
  · rename_i hv
    rcases mem_tinsert hp with rfl | hp
    · exact hv
    · exact h.2 p (mem_terase hp).1

/-- Leaving out cells keeps the canonical form. -/
theorem twf_filter [DecidableEq α] (d : Nat → α) (f : Nat × α → Bool) {t : Tbl α} (h : twf d t = true) :
    twf d (t.filter f) = true := by
  rw [twf_iff] at h ⊢
  exact ⟨rising_filter f h.1, fun p hp => h.2 p (List.mem_filter.mp hp).1⟩

/-- The memories after reset are in their canonical form. -/
theorem memory_wf_reset : Memory.wf State.reset = true := by decide

end Sys2Proof.Laws
end

