-- ==== Sys2Proof/Laws/Memory.lean ====
section
/-! SUPPORT. Every operation that writes a word of an addressed memory keeps the memories in their canonical form. -/
namespace Sys2Proof.Laws

open Sys2Proof.Machine Sys2Proof.Safety

theorem mem_tset {α : Type} [DecidableEq α] {d v : α} {k : Nat} {p : Nat × α} {t : Tbl α} (h : p ∈ tset d k v t) :
    p = (k, v) ∨ p ∈ t := by
  unfold tset at h
  split at h
  · exact .inr (mem_terase h).1
  · exact (mem_tinsert h).imp id fun h => (mem_terase h).1

theorem tget_mem {α : Type} (d : α) (k : Nat) : ∀ t : Tbl α, tget d k t = d ∨ (k, tget d k t) ∈ t
  | [] => .inl rfl
  | (k', v) :: t => by
    by_cases hk : k = k'
    · subst hk; right; simp [tget]
    · simp only [tget, hk, if_false, List.mem_cons]
      exact (tget_mem d k t).imp id .inr

theorem memory_wf_iff (s : State) : Memory.wf s = true ↔
    twf (fun _ => 0) s.byre.rram = true ∧ twf (fun _ => 0) s.jr.halfA = true ∧ twf (fun _ => 0) s.jr.halfB = true ∧
      twf (fun _ => 0) s.tn.keys = true ∧ ∀ p ∈ s.cl, twf (fun _ => 0) p.2.imem = true ∧ twf (fun _ => 0) p.2.dmem = true := by
  simp [Memory.wf, Bool.and_eq_true, and_assoc]

/-- The memories of one cluster, listed or not, are in their canonical form. -/
theorem memory_wf_cluster {s : State} (h : Memory.wf s = true) (c : Nat) :
    twf (fun _ => 0) (cluster s c).imem = true ∧ twf (fun _ => 0) (cluster s c).dmem = true := by
  rcases tget_mem Cluster.reset c s.cl with hc | hc
  · unfold cluster; rw [hc]; decide
  · exact ((memory_wf_iff s).mp h).2.2.2.2 _ hc

/-- A change of one cluster that leaves its two memories canonical keeps the form. -/
theorem memory_wf_modCluster {s : State} (h : Memory.wf s = true) (c : Nat) (f : Cluster → Cluster)
    (hf : twf (fun _ => 0) (f (cluster s c)).imem = true ∧ twf (fun _ => 0) (f (cluster s c)).dmem = true) :
    Memory.wf (modCluster c f s) = true := by
  have h' := (memory_wf_iff s).mp h
  refine (memory_wf_iff _).mpr ⟨h'.1, h'.2.1, h'.2.2.1, h'.2.2.2.1, fun p hp => ?_⟩
  rcases mem_tset hp with rfl | hp
  · exact hf
  · exact h'.2.2.2.2 p hp

/-- A word of the retention RAM written (R463). -/
theorem memory_wf_rramSet {s : State} (h : Memory.wf s = true) (i : Nat) (v : W32) : Memory.wf (rramSet i v s) = true := by
  have h' := (memory_wf_iff s).mp h
  exact (memory_wf_iff _).mpr ⟨twf_tset _ i v h'.1, h'.2⟩

/-- A word of a half of the journal written (R424). -/
theorem memory_wf_putHalf {s : State} (h : Memory.wf s = true) (b : Bool) (a : Nat) (w : W64) :
    Memory.wf (putHalf b a w s) = true := by
  have h' := (memory_wf_iff s).mp h
  cases b
  · exact (memory_wf_iff _).mpr ⟨h'.1, twf_tset _ a w h'.2.1, h'.2.2⟩
  · exact (memory_wf_iff _).mpr ⟨h'.1, h'.2.1, twf_tset _ a w h'.2.2.1, h'.2.2.2⟩

/-- A word of data memory written (R237). -/
theorem memory_wf_writeData {s : State} (h : Memory.wf s = true) (c k : Nat) (v : W64) :
    Memory.wf (writeData c k v s) = true := by
  unfold writeData
  split
  · exact h
  · exact memory_wf_modCluster h c _ ⟨(memory_wf_cluster h c).1, twf_tset _ k v (memory_wf_cluster h c).2⟩

/-- A word of instruction memory written (R217). -/
theorem memory_wf_writeCode {s : State} (h : Memory.wf s = true) (c k : Nat) (v : W32) :
    Memory.wf (writeCode c k v s) = true := by
  unfold writeCode
  split
  · exact h
  · exact memory_wf_modCluster h c _ ⟨twf_tset _ k v (memory_wf_cluster h c).1, (memory_wf_cluster h c).2⟩

/-- A word of the key area written (R362). -/
theorem memory_wf_putKeyWords {s : State} (h : Memory.wf s = true) (t i : Nat) (ws : List W64) :
    Memory.wf (putKeyWords t i ws s) = true := by
  unfold putKeyWords
  generalize ws.zipIdx = l
  induction l generalizing s with
  | nil => exact h
  | cons p l ih =>
    have h' := (memory_wf_iff s).mp h
    exact ih ((memory_wf_iff _).mpr ⟨h'.1, h'.2.1, h'.2.2.1, twf_tset _ _ p.1 h'.2.2.2.1, h'.2.2.2.2⟩)

end Sys2Proof.Laws
end

