-- ==== Sys2Proof/Laws/State.lean ====
section
/-! SUPPORT. What each update of State leaves alone, field by field and reader by reader, and what it writes. -/
namespace Sys2Proof.Laws

open Sys2Proof.Machine

variable (s : State)

/-! ### setReg -/

@[simp] theorem setReg_now (r : Reg) (v : W32) : (setReg r v s).now = s.now := rfl
@[simp] theorem setReg_released (r : Reg) (v : W32) : (setReg r v s).released = s.released := rfl
@[simp] theorem setReg_free (r : Reg) (v : W32) : (setReg r v s).free = s.free := rfl
@[simp] theorem setReg_otp (r : Reg) (v : W32) : (setReg r v s).otp = s.otp := rfl
@[simp] theorem setReg_shadow (r : Reg) (v : W32) : (setReg r v s).shadow = s.shadow := rfl
@[simp] theorem setReg_busData (r : Reg) (v : W32) : (setReg r v s).busData = s.busData := rfl
@[simp] theorem setReg_busStatus (r : Reg) (v : W32) : (setReg r v s).busStatus = s.busStatus := rfl
@[simp] theorem setReg_tb (r : Reg) (v : W32) : (setReg r v s).tb = s.tb := rfl
@[simp] theorem setReg_syn (r : Reg) (v : W32) : (setReg r v s).syn = s.syn := rfl
@[simp] theorem setReg_fr (r : Reg) (v : W32) : (setReg r v s).fr = s.fr := rfl
@[simp] theorem setReg_pl (r : Reg) (v : W32) : (setReg r v s).pl = s.pl := rfl
@[simp] theorem setReg_sl (r : Reg) (v : W32) : (setReg r v s).sl = s.sl := rfl
@[simp] theorem setReg_rg (r : Reg) (v : W32) : (setReg r v s).rg = s.rg := rfl
@[simp] theorem setReg_cl (r : Reg) (v : W32) : (setReg r v s).cl = s.cl := rfl
@[simp] theorem setReg_cx (r : Reg) (v : W32) : (setReg r v s).cx = s.cx := rfl
@[simp] theorem setReg_pb (r : Reg) (v : W32) : (setReg r v s).pb = s.pb := rfl
@[simp] theorem setReg_sp (r : Reg) (v : W32) : (setReg r v s).sp = s.sp := rfl
@[simp] theorem setReg_ev (r : Reg) (v : W32) : (setReg r v s).ev = s.ev := rfl
@[simp] theorem setReg_tn (r : Reg) (v : W32) : (setReg r v s).tn = s.tn := rfl
@[simp] theorem setReg_pt (r : Reg) (v : W32) : (setReg r v s).pt = s.pt := rfl
@[simp] theorem setReg_ttc (r : Reg) (v : W32) : (setReg r v s).ttc = s.ttc := rfl
@[simp] theorem setReg_mspi (r : Reg) (v : W32) : (setReg r v s).mspi = s.mspi := rfl
@[simp] theorem setReg_jtag (r : Reg) (v : W32) : (setReg r v s).jtag = s.jtag := rfl
@[simp] theorem setReg_jr (r : Reg) (v : W32) : (setReg r v s).jr = s.jr := rfl
@[simp] theorem setReg_byre (r : Reg) (v : W32) : (setReg r v s).byre = s.byre := rfl
@[simp] theorem setReg_st (r : Reg) (v : W32) : (setReg r v s).st = s.st := rfl
@[simp] theorem setReg_ad (r : Reg) (v : W32) : (setReg r v s).ad = s.ad := rfl
@[simp] theorem setReg_fl (r : Reg) (v : W32) : (setReg r v s).fl = s.fl := rfl
@[simp] theorem setReg_acc (r : Reg) (v : W32) : (setReg r v s).acc = s.acc := rfl
@[simp] theorem setReg_pending (r : Reg) (v : W32) : (setReg r v s).pending = s.pending := rfl
@[simp] theorem pulse_setReg (r : Reg) (v : W32) (j : Nat) : pulse (setReg r v s) j = pulse s j := rfl
@[simp] theorem stamp_setReg (r : Reg) (v : W32) (j : Nat) : stamp (setReg r v s) j = stamp s j := rfl
@[simp] theorem meas_setReg (r : Reg) (v : W32) (j : Nat) : meas (setReg r v s) j = meas s j := rfl
@[simp] theorem cluster_setReg (r : Reg) (v : W32) (j : Nat) : cluster (setReg r v s) j = cluster s j := rfl
@[simp] theorem ctx_setReg (r : Reg) (v : W32) (j : Nat) : ctx (setReg r v s) j = ctx s j := rfl
@[simp] theorem playback_setReg (r : Reg) (v : W32) (j : Nat) : playback (setReg r v s) j = playback s j := rfl
@[simp] theorem port_setReg (r : Reg) (v : W32) (j : Nat) : port (setReg r v s) j = port s j := rfl
@[simp] theorem tenant_setReg (r : Reg) (v : W32) (j : Nat) : tenant (setReg r v s) j = tenant s j := rfl
@[simp] theorem stream_setReg (r : Reg) (v : W32) (j : Nat) : stream (setReg r v s) j = stream s j := rfl

/-! ### raise -/

@[simp] theorem raise_now (r : Reg) (b : Nat) : (raise r b s).now = s.now := rfl
@[simp] theorem raise_released (r : Reg) (b : Nat) : (raise r b s).released = s.released := rfl
@[simp] theorem raise_free (r : Reg) (b : Nat) : (raise r b s).free = s.free := rfl
@[simp] theorem raise_otp (r : Reg) (b : Nat) : (raise r b s).otp = s.otp := rfl
@[simp] theorem raise_shadow (r : Reg) (b : Nat) : (raise r b s).shadow = s.shadow := rfl
@[simp] theorem raise_busData (r : Reg) (b : Nat) : (raise r b s).busData = s.busData := rfl
@[simp] theorem raise_busStatus (r : Reg) (b : Nat) : (raise r b s).busStatus = s.busStatus := rfl
@[simp] theorem raise_tb (r : Reg) (b : Nat) : (raise r b s).tb = s.tb := rfl
@[simp] theorem raise_syn (r : Reg) (b : Nat) : (raise r b s).syn = s.syn := rfl
@[simp] theorem raise_fr (r : Reg) (b : Nat) : (raise r b s).fr = s.fr := rfl
@[simp] theorem raise_pl (r : Reg) (b : Nat) : (raise r b s).pl = s.pl := rfl
@[simp] theorem raise_sl (r : Reg) (b : Nat) : (raise r b s).sl = s.sl := rfl
@[simp] theorem raise_rg (r : Reg) (b : Nat) : (raise r b s).rg = s.rg := rfl
@[simp] theorem raise_cl (r : Reg) (b : Nat) : (raise r b s).cl = s.cl := rfl
@[simp] theorem raise_cx (r : Reg) (b : Nat) : (raise r b s).cx = s.cx := rfl
@[simp] theorem raise_pb (r : Reg) (b : Nat) : (raise r b s).pb = s.pb := rfl
@[simp] theorem raise_sp (r : Reg) (b : Nat) : (raise r b s).sp = s.sp := rfl
@[simp] theorem raise_ev (r : Reg) (b : Nat) : (raise r b s).ev = s.ev := rfl
@[simp] theorem raise_tn (r : Reg) (b : Nat) : (raise r b s).tn = s.tn := rfl
@[simp] theorem raise_pt (r : Reg) (b : Nat) : (raise r b s).pt = s.pt := rfl
@[simp] theorem raise_ttc (r : Reg) (b : Nat) : (raise r b s).ttc = s.ttc := rfl
@[simp] theorem raise_mspi (r : Reg) (b : Nat) : (raise r b s).mspi = s.mspi := rfl
@[simp] theorem raise_jtag (r : Reg) (b : Nat) : (raise r b s).jtag = s.jtag := rfl
@[simp] theorem raise_jr (r : Reg) (b : Nat) : (raise r b s).jr = s.jr := rfl
@[simp] theorem raise_byre (r : Reg) (b : Nat) : (raise r b s).byre = s.byre := rfl
@[simp] theorem raise_st (r : Reg) (b : Nat) : (raise r b s).st = s.st := rfl
@[simp] theorem raise_ad (r : Reg) (b : Nat) : (raise r b s).ad = s.ad := rfl
@[simp] theorem raise_fl (r : Reg) (b : Nat) : (raise r b s).fl = s.fl := rfl
@[simp] theorem raise_pending (r : Reg) (b : Nat) : (raise r b s).pending = s.pending := rfl
@[simp] theorem pulse_raise (r : Reg) (b : Nat) (j : Nat) : pulse (raise r b s) j = pulse s j := rfl
@[simp] theorem stamp_raise (r : Reg) (b : Nat) (j : Nat) : stamp (raise r b s) j = stamp s j := rfl
@[simp] theorem meas_raise (r : Reg) (b : Nat) (j : Nat) : meas (raise r b s) j = meas s j := rfl
@[simp] theorem cluster_raise (r : Reg) (b : Nat) (j : Nat) : cluster (raise r b s) j = cluster s j := rfl
@[simp] theorem ctx_raise (r : Reg) (b : Nat) (j : Nat) : ctx (raise r b s) j = ctx s j := rfl
@[simp] theorem playback_raise (r : Reg) (b : Nat) (j : Nat) : playback (raise r b s) j = playback s j := rfl
@[simp] theorem port_raise (r : Reg) (b : Nat) (j : Nat) : port (raise r b s) j = port s j := rfl
@[simp] theorem tenant_raise (r : Reg) (b : Nat) (j : Nat) : tenant (raise r b s) j = tenant s j := rfl
@[simp] theorem stream_raise (r : Reg) (b : Nat) (j : Nat) : stream (raise r b s) j = stream s j := rfl

/-! ### passTo -/

@[simp] theorem passTo_released (n : Nat) : (passTo n s).released = s.released := rfl
@[simp] theorem passTo_free (n : Nat) : (passTo n s).free = s.free := rfl
@[simp] theorem passTo_regs (n : Nat) : (passTo n s).regs = s.regs := rfl
@[simp] theorem passTo_otp (n : Nat) : (passTo n s).otp = s.otp := rfl
@[simp] theorem passTo_shadow (n : Nat) : (passTo n s).shadow = s.shadow := rfl
@[simp] theorem passTo_busData (n : Nat) : (passTo n s).busData = s.busData := rfl
@[simp] theorem passTo_busStatus (n : Nat) : (passTo n s).busStatus = s.busStatus := rfl
@[simp] theorem passTo_tb (n : Nat) : (passTo n s).tb = s.tb := rfl
@[simp] theorem passTo_syn (n : Nat) : (passTo n s).syn = s.syn := rfl
@[simp] theorem passTo_fr (n : Nat) : (passTo n s).fr = s.fr := rfl
@[simp] theorem passTo_pl (n : Nat) : (passTo n s).pl = s.pl := rfl
@[simp] theorem passTo_sl (n : Nat) : (passTo n s).sl = s.sl := rfl
@[simp] theorem passTo_rg (n : Nat) : (passTo n s).rg = s.rg := rfl
@[simp] theorem passTo_cl (n : Nat) : (passTo n s).cl = s.cl := rfl
@[simp] theorem passTo_cx (n : Nat) : (passTo n s).cx = s.cx := rfl
@[simp] theorem passTo_pb (n : Nat) : (passTo n s).pb = s.pb := rfl
@[simp] theorem passTo_sp (n : Nat) : (passTo n s).sp = s.sp := rfl
@[simp] theorem passTo_ev (n : Nat) : (passTo n s).ev = s.ev := rfl
@[simp] theorem passTo_tn (n : Nat) : (passTo n s).tn = s.tn := rfl
@[simp] theorem passTo_pt (n : Nat) : (passTo n s).pt = s.pt := rfl
@[simp] theorem passTo_ttc (n : Nat) : (passTo n s).ttc = s.ttc := rfl
@[simp] theorem passTo_mspi (n : Nat) : (passTo n s).mspi = s.mspi := rfl
@[simp] theorem passTo_jtag (n : Nat) : (passTo n s).jtag = s.jtag := rfl
@[simp] theorem passTo_jr (n : Nat) : (passTo n s).jr = s.jr := rfl
@[simp] theorem passTo_byre (n : Nat) : (passTo n s).byre = s.byre := rfl
@[simp] theorem passTo_st (n : Nat) : (passTo n s).st = s.st := rfl
@[simp] theorem passTo_ad (n : Nat) : (passTo n s).ad = s.ad := rfl
@[simp] theorem passTo_fl (n : Nat) : (passTo n s).fl = s.fl := rfl
@[simp] theorem passTo_acc (n : Nat) : (passTo n s).acc = s.acc := rfl
@[simp] theorem passTo_pending (n : Nat) : (passTo n s).pending = s.pending := rfl
@[simp] theorem reg_passTo (n : Nat) (q : Reg) : reg (passTo n s) q = reg s q := rfl
@[simp] theorem pulse_passTo (n : Nat) (j : Nat) : pulse (passTo n s) j = pulse s j := rfl
@[simp] theorem stamp_passTo (n : Nat) (j : Nat) : stamp (passTo n s) j = stamp s j := rfl
@[simp] theorem meas_passTo (n : Nat) (j : Nat) : meas (passTo n s) j = meas s j := rfl
@[simp] theorem cluster_passTo (n : Nat) (j : Nat) : cluster (passTo n s) j = cluster s j := rfl
@[simp] theorem ctx_passTo (n : Nat) (j : Nat) : ctx (passTo n s) j = ctx s j := rfl
@[simp] theorem playback_passTo (n : Nat) (j : Nat) : playback (passTo n s) j = playback s j := rfl
@[simp] theorem port_passTo (n : Nat) (j : Nat) : port (passTo n s) j = port s j := rfl
@[simp] theorem tenant_passTo (n : Nat) (j : Nat) : tenant (passTo n s) j = tenant s j := rfl
@[simp] theorem stream_passTo (n : Nat) (j : Nat) : stream (passTo n s) j = stream s j := rfl

/-! ### toLc -/

@[simp] theorem toLc_released (n : Nat) : (toLc n s).released = s.released := rfl
@[simp] theorem toLc_free (n : Nat) : (toLc n s).free = s.free := rfl
@[simp] theorem toLc_regs (n : Nat) : (toLc n s).regs = s.regs := rfl
@[simp] theorem toLc_otp (n : Nat) : (toLc n s).otp = s.otp := rfl
@[simp] theorem toLc_shadow (n : Nat) : (toLc n s).shadow = s.shadow := rfl
@[simp] theorem toLc_busData (n : Nat) : (toLc n s).busData = s.busData := rfl
@[simp] theorem toLc_busStatus (n : Nat) : (toLc n s).busStatus = s.busStatus := rfl
@[simp] theorem toLc_tb (n : Nat) : (toLc n s).tb = s.tb := rfl
@[simp] theorem toLc_syn (n : Nat) : (toLc n s).syn = s.syn := rfl
@[simp] theorem toLc_fr (n : Nat) : (toLc n s).fr = s.fr := rfl
@[simp] theorem toLc_pl (n : Nat) : (toLc n s).pl = s.pl := rfl
@[simp] theorem toLc_sl (n : Nat) : (toLc n s).sl = s.sl := rfl
@[simp] theorem toLc_rg (n : Nat) : (toLc n s).rg = s.rg := rfl
@[simp] theorem toLc_cl (n : Nat) : (toLc n s).cl = s.cl := rfl
@[simp] theorem toLc_cx (n : Nat) : (toLc n s).cx = s.cx := rfl
@[simp] theorem toLc_pb (n : Nat) : (toLc n s).pb = s.pb := rfl
@[simp] theorem toLc_sp (n : Nat) : (toLc n s).sp = s.sp := rfl
@[simp] theorem toLc_ev (n : Nat) : (toLc n s).ev = s.ev := rfl
@[simp] theorem toLc_tn (n : Nat) : (toLc n s).tn = s.tn := rfl
@[simp] theorem toLc_pt (n : Nat) : (toLc n s).pt = s.pt := rfl
@[simp] theorem toLc_ttc (n : Nat) : (toLc n s).ttc = s.ttc := rfl
@[simp] theorem toLc_mspi (n : Nat) : (toLc n s).mspi = s.mspi := rfl
@[simp] theorem toLc_jtag (n : Nat) : (toLc n s).jtag = s.jtag := rfl
@[simp] theorem toLc_jr (n : Nat) : (toLc n s).jr = s.jr := rfl
@[simp] theorem toLc_byre (n : Nat) : (toLc n s).byre = s.byre := rfl
@[simp] theorem toLc_st (n : Nat) : (toLc n s).st = s.st := rfl
@[simp] theorem toLc_ad (n : Nat) : (toLc n s).ad = s.ad := rfl
@[simp] theorem toLc_fl (n : Nat) : (toLc n s).fl = s.fl := rfl
@[simp] theorem toLc_acc (n : Nat) : (toLc n s).acc = s.acc := rfl
@[simp] theorem toLc_pending (n : Nat) : (toLc n s).pending = s.pending := rfl
@[simp] theorem reg_toLc (n : Nat) (q : Reg) : reg (toLc n s) q = reg s q := rfl
@[simp] theorem pulse_toLc (n : Nat) (j : Nat) : pulse (toLc n s) j = pulse s j := rfl
@[simp] theorem stamp_toLc (n : Nat) (j : Nat) : stamp (toLc n s) j = stamp s j := rfl
@[simp] theorem meas_toLc (n : Nat) (j : Nat) : meas (toLc n s) j = meas s j := rfl
@[simp] theorem cluster_toLc (n : Nat) (j : Nat) : cluster (toLc n s) j = cluster s j := rfl
@[simp] theorem ctx_toLc (n : Nat) (j : Nat) : ctx (toLc n s) j = ctx s j := rfl
@[simp] theorem playback_toLc (n : Nat) (j : Nat) : playback (toLc n s) j = playback s j := rfl
@[simp] theorem port_toLc (n : Nat) (j : Nat) : port (toLc n s) j = port s j := rfl
@[simp] theorem tenant_toLc (n : Nat) (j : Nat) : tenant (toLc n s) j = tenant s j := rfl
@[simp] theorem stream_toLc (n : Nat) (j : Nat) : stream (toLc n s) j = stream s j := rfl

/-! ### setPulse -/

@[simp] theorem setPulse_now (k : Nat) (l : PulseLane) : (setPulse k l s).now = s.now := rfl
@[simp] theorem setPulse_released (k : Nat) (l : PulseLane) : (setPulse k l s).released = s.released := rfl
@[simp] theorem setPulse_free (k : Nat) (l : PulseLane) : (setPulse k l s).free = s.free := rfl
@[simp] theorem setPulse_regs (k : Nat) (l : PulseLane) : (setPulse k l s).regs = s.regs := rfl
@[simp] theorem setPulse_otp (k : Nat) (l : PulseLane) : (setPulse k l s).otp = s.otp := rfl
@[simp] theorem setPulse_shadow (k : Nat) (l : PulseLane) : (setPulse k l s).shadow = s.shadow := rfl
@[simp] theorem setPulse_busData (k : Nat) (l : PulseLane) : (setPulse k l s).busData = s.busData := rfl
@[simp] theorem setPulse_busStatus (k : Nat) (l : PulseLane) : (setPulse k l s).busStatus = s.busStatus := rfl
@[simp] theorem setPulse_tb (k : Nat) (l : PulseLane) : (setPulse k l s).tb = s.tb := rfl
@[simp] theorem setPulse_syn (k : Nat) (l : PulseLane) : (setPulse k l s).syn = s.syn := rfl
@[simp] theorem setPulse_fr (k : Nat) (l : PulseLane) : (setPulse k l s).fr = s.fr := rfl
@[simp] theorem setPulse_sl (k : Nat) (l : PulseLane) : (setPulse k l s).sl = s.sl := rfl
@[simp] theorem setPulse_rg (k : Nat) (l : PulseLane) : (setPulse k l s).rg = s.rg := rfl
@[simp] theorem setPulse_cl (k : Nat) (l : PulseLane) : (setPulse k l s).cl = s.cl := rfl
@[simp] theorem setPulse_cx (k : Nat) (l : PulseLane) : (setPulse k l s).cx = s.cx := rfl
@[simp] theorem setPulse_pb (k : Nat) (l : PulseLane) : (setPulse k l s).pb = s.pb := rfl
@[simp] theorem setPulse_sp (k : Nat) (l : PulseLane) : (setPulse k l s).sp = s.sp := rfl
@[simp] theorem setPulse_ev (k : Nat) (l : PulseLane) : (setPulse k l s).ev = s.ev := rfl
@[simp] theorem setPulse_tn (k : Nat) (l : PulseLane) : (setPulse k l s).tn = s.tn := rfl
@[simp] theorem setPulse_pt (k : Nat) (l : PulseLane) : (setPulse k l s).pt = s.pt := rfl
@[simp] theorem setPulse_ttc (k : Nat) (l : PulseLane) : (setPulse k l s).ttc = s.ttc := rfl
@[simp] theorem setPulse_mspi (k : Nat) (l : PulseLane) : (setPulse k l s).mspi = s.mspi := rfl
@[simp] theorem setPulse_jtag (k : Nat) (l : PulseLane) : (setPulse k l s).jtag = s.jtag := rfl
@[simp] theorem setPulse_jr (k : Nat) (l : PulseLane) : (setPulse k l s).jr = s.jr := rfl
@[simp] theorem setPulse_byre (k : Nat) (l : PulseLane) : (setPulse k l s).byre = s.byre := rfl
@[simp] theorem setPulse_st (k : Nat) (l : PulseLane) : (setPulse k l s).st = s.st := rfl
@[simp] theorem setPulse_ad (k : Nat) (l : PulseLane) : (setPulse k l s).ad = s.ad := rfl
@[simp] theorem setPulse_fl (k : Nat) (l : PulseLane) : (setPulse k l s).fl = s.fl := rfl
@[simp] theorem setPulse_acc (k : Nat) (l : PulseLane) : (setPulse k l s).acc = s.acc := rfl
@[simp] theorem setPulse_pending (k : Nat) (l : PulseLane) : (setPulse k l s).pending = s.pending := rfl
@[simp] theorem reg_setPulse (k : Nat) (l : PulseLane) (q : Reg) : reg (setPulse k l s) q = reg s q := rfl
@[simp] theorem stamp_setPulse (k : Nat) (l : PulseLane) (j : Nat) : stamp (setPulse k l s) j = stamp s j := rfl
@[simp] theorem meas_setPulse (k : Nat) (l : PulseLane) (j : Nat) : meas (setPulse k l s) j = meas s j := rfl
@[simp] theorem cluster_setPulse (k : Nat) (l : PulseLane) (j : Nat) : cluster (setPulse k l s) j = cluster s j := rfl
@[simp] theorem ctx_setPulse (k : Nat) (l : PulseLane) (j : Nat) : ctx (setPulse k l s) j = ctx s j := rfl
@[simp] theorem playback_setPulse (k : Nat) (l : PulseLane) (j : Nat) : playback (setPulse k l s) j = playback s j := rfl
@[simp] theorem port_setPulse (k : Nat) (l : PulseLane) (j : Nat) : port (setPulse k l s) j = port s j := rfl
@[simp] theorem tenant_setPulse (k : Nat) (l : PulseLane) (j : Nat) : tenant (setPulse k l s) j = tenant s j := rfl
@[simp] theorem stream_setPulse (k : Nat) (l : PulseLane) (j : Nat) : stream (setPulse k l s) j = stream s j := rfl

/-! ### modPulse -/

@[simp] theorem modPulse_now (k : Nat) (f : PulseLane → PulseLane) : (modPulse k f s).now = s.now := rfl
@[simp] theorem modPulse_released (k : Nat) (f : PulseLane → PulseLane) : (modPulse k f s).released = s.released := rfl
@[simp] theorem modPulse_free (k : Nat) (f : PulseLane → PulseLane) : (modPulse k f s).free = s.free := rfl
@[simp] theorem modPulse_regs (k : Nat) (f : PulseLane → PulseLane) : (modPulse k f s).regs = s.regs := rfl
@[simp] theorem modPulse_otp (k : Nat) (f : PulseLane → PulseLane) : (modPulse k f s).otp = s.otp := rfl
@[simp] theorem modPulse_shadow (k : Nat) (f : PulseLane → PulseLane) : (modPulse k f s).shadow = s.shadow := rfl
@[simp] theorem modPulse_busData (k : Nat) (f : PulseLane → PulseLane) : (modPulse k f s).busData = s.busData := rfl
@[simp] theorem modPulse_busStatus (k : Nat) (f : PulseLane → PulseLane) : (modPulse k f s).busStatus = s.busStatus := rfl
@[simp] theorem modPulse_tb (k : Nat) (f : PulseLane → PulseLane) : (modPulse k f s).tb = s.tb := rfl
@[simp] theorem modPulse_syn (k : Nat) (f : PulseLane → PulseLane) : (modPulse k f s).syn = s.syn := rfl
@[simp] theorem modPulse_fr (k : Nat) (f : PulseLane → PulseLane) : (modPulse k f s).fr = s.fr := rfl
@[simp] theorem modPulse_sl (k : Nat) (f : PulseLane → PulseLane) : (modPulse k f s).sl = s.sl := rfl
@[simp] theorem modPulse_rg (k : Nat) (f : PulseLane → PulseLane) : (modPulse k f s).rg = s.rg := rfl
@[simp] theorem modPulse_cl (k : Nat) (f : PulseLane → PulseLane) : (modPulse k f s).cl = s.cl := rfl
@[simp] theorem modPulse_cx (k : Nat) (f : PulseLane → PulseLane) : (modPulse k f s).cx = s.cx := rfl
@[simp] theorem modPulse_pb (k : Nat) (f : PulseLane → PulseLane) : (modPulse k f s).pb = s.pb := rfl
@[simp] theorem modPulse_sp (k : Nat) (f : PulseLane → PulseLane) : (modPulse k f s).sp = s.sp := rfl
@[simp] theorem modPulse_ev (k : Nat) (f : PulseLane → PulseLane) : (modPulse k f s).ev = s.ev := rfl
@[simp] theorem modPulse_tn (k : Nat) (f : PulseLane → PulseLane) : (modPulse k f s).tn = s.tn := rfl
@[simp] theorem modPulse_pt (k : Nat) (f : PulseLane → PulseLane) : (modPulse k f s).pt = s.pt := rfl
@[simp] theorem modPulse_ttc (k : Nat) (f : PulseLane → PulseLane) : (modPulse k f s).ttc = s.ttc := rfl
@[simp] theorem modPulse_mspi (k : Nat) (f : PulseLane → PulseLane) : (modPulse k f s).mspi = s.mspi := rfl
@[simp] theorem modPulse_jtag (k : Nat) (f : PulseLane → PulseLane) : (modPulse k f s).jtag = s.jtag := rfl
@[simp] theorem modPulse_jr (k : Nat) (f : PulseLane → PulseLane) : (modPulse k f s).jr = s.jr := rfl
@[simp] theorem modPulse_byre (k : Nat) (f : PulseLane → PulseLane) : (modPulse k f s).byre = s.byre := rfl
@[simp] theorem modPulse_st (k : Nat) (f : PulseLane → PulseLane) : (modPulse k f s).st = s.st := rfl
@[simp] theorem modPulse_ad (k : Nat) (f : PulseLane → PulseLane) : (modPulse k f s).ad = s.ad := rfl
@[simp] theorem modPulse_fl (k : Nat) (f : PulseLane → PulseLane) : (modPulse k f s).fl = s.fl := rfl
@[simp] theorem modPulse_acc (k : Nat) (f : PulseLane → PulseLane) : (modPulse k f s).acc = s.acc := rfl
@[simp] theorem modPulse_pending (k : Nat) (f : PulseLane → PulseLane) : (modPulse k f s).pending = s.pending := rfl
@[simp] theorem reg_modPulse (k : Nat) (f : PulseLane → PulseLane) (q : Reg) : reg (modPulse k f s) q = reg s q := rfl
@[simp] theorem stamp_modPulse (k : Nat) (f : PulseLane → PulseLane) (j : Nat) : stamp (modPulse k f s) j = stamp s j := rfl
@[simp] theorem meas_modPulse (k : Nat) (f : PulseLane → PulseLane) (j : Nat) : meas (modPulse k f s) j = meas s j := rfl
@[simp] theorem cluster_modPulse (k : Nat) (f : PulseLane → PulseLane) (j : Nat) : cluster (modPulse k f s) j = cluster s j := rfl
@[simp] theorem ctx_modPulse (k : Nat) (f : PulseLane → PulseLane) (j : Nat) : ctx (modPulse k f s) j = ctx s j := rfl
@[simp] theorem playback_modPulse (k : Nat) (f : PulseLane → PulseLane) (j : Nat) : playback (modPulse k f s) j = playback s j := rfl
@[simp] theorem port_modPulse (k : Nat) (f : PulseLane → PulseLane) (j : Nat) : port (modPulse k f s) j = port s j := rfl
@[simp] theorem tenant_modPulse (k : Nat) (f : PulseLane → PulseLane) (j : Nat) : tenant (modPulse k f s) j = tenant s j := rfl
@[simp] theorem stream_modPulse (k : Nat) (f : PulseLane → PulseLane) (j : Nat) : stream (modPulse k f s) j = stream s j := rfl

/-! ### setStamp -/

@[simp] theorem setStamp_now (k : Nat) (l : StampLane) : (setStamp k l s).now = s.now := rfl
@[simp] theorem setStamp_released (k : Nat) (l : StampLane) : (setStamp k l s).released = s.released := rfl
@[simp] theorem setStamp_free (k : Nat) (l : StampLane) : (setStamp k l s).free = s.free := rfl
@[simp] theorem setStamp_regs (k : Nat) (l : StampLane) : (setStamp k l s).regs = s.regs := rfl
@[simp] theorem setStamp_otp (k : Nat) (l : StampLane) : (setStamp k l s).otp = s.otp := rfl
@[simp] theorem setStamp_shadow (k : Nat) (l : StampLane) : (setStamp k l s).shadow = s.shadow := rfl
@[simp] theorem setStamp_busData (k : Nat) (l : StampLane) : (setStamp k l s).busData = s.busData := rfl
@[simp] theorem setStamp_busStatus (k : Nat) (l : StampLane) : (setStamp k l s).busStatus = s.busStatus := rfl
@[simp] theorem setStamp_tb (k : Nat) (l : StampLane) : (setStamp k l s).tb = s.tb := rfl
@[simp] theorem setStamp_syn (k : Nat) (l : StampLane) : (setStamp k l s).syn = s.syn := rfl
@[simp] theorem setStamp_fr (k : Nat) (l : StampLane) : (setStamp k l s).fr = s.fr := rfl
@[simp] theorem setStamp_pl (k : Nat) (l : StampLane) : (setStamp k l s).pl = s.pl := rfl
@[simp] theorem setStamp_rg (k : Nat) (l : StampLane) : (setStamp k l s).rg = s.rg := rfl
@[simp] theorem setStamp_cl (k : Nat) (l : StampLane) : (setStamp k l s).cl = s.cl := rfl
@[simp] theorem setStamp_cx (k : Nat) (l : StampLane) : (setStamp k l s).cx = s.cx := rfl
@[simp] theorem setStamp_pb (k : Nat) (l : StampLane) : (setStamp k l s).pb = s.pb := rfl
@[simp] theorem setStamp_sp (k : Nat) (l : StampLane) : (setStamp k l s).sp = s.sp := rfl
@[simp] theorem setStamp_ev (k : Nat) (l : StampLane) : (setStamp k l s).ev = s.ev := rfl
@[simp] theorem setStamp_tn (k : Nat) (l : StampLane) : (setStamp k l s).tn = s.tn := rfl
@[simp] theorem setStamp_pt (k : Nat) (l : StampLane) : (setStamp k l s).pt = s.pt := rfl
@[simp] theorem setStamp_ttc (k : Nat) (l : StampLane) : (setStamp k l s).ttc = s.ttc := rfl
@[simp] theorem setStamp_mspi (k : Nat) (l : StampLane) : (setStamp k l s).mspi = s.mspi := rfl
@[simp] theorem setStamp_jtag (k : Nat) (l : StampLane) : (setStamp k l s).jtag = s.jtag := rfl
@[simp] theorem setStamp_jr (k : Nat) (l : StampLane) : (setStamp k l s).jr = s.jr := rfl
@[simp] theorem setStamp_byre (k : Nat) (l : StampLane) : (setStamp k l s).byre = s.byre := rfl
@[simp] theorem setStamp_st (k : Nat) (l : StampLane) : (setStamp k l s).st = s.st := rfl
@[simp] theorem setStamp_ad (k : Nat) (l : StampLane) : (setStamp k l s).ad = s.ad := rfl
@[simp] theorem setStamp_fl (k : Nat) (l : StampLane) : (setStamp k l s).fl = s.fl := rfl
@[simp] theorem setStamp_acc (k : Nat) (l : StampLane) : (setStamp k l s).acc = s.acc := rfl
@[simp] theorem setStamp_pending (k : Nat) (l : StampLane) : (setStamp k l s).pending = s.pending := rfl
@[simp] theorem reg_setStamp (k : Nat) (l : StampLane) (q : Reg) : reg (setStamp k l s) q = reg s q := rfl
@[simp] theorem pulse_setStamp (k : Nat) (l : StampLane) (j : Nat) : pulse (setStamp k l s) j = pulse s j := rfl
@[simp] theorem meas_setStamp (k : Nat) (l : StampLane) (j : Nat) : meas (setStamp k l s) j = meas s j := rfl
@[simp] theorem cluster_setStamp (k : Nat) (l : StampLane) (j : Nat) : cluster (setStamp k l s) j = cluster s j := rfl
@[simp] theorem ctx_setStamp (k : Nat) (l : StampLane) (j : Nat) : ctx (setStamp k l s) j = ctx s j := rfl
@[simp] theorem playback_setStamp (k : Nat) (l : StampLane) (j : Nat) : playback (setStamp k l s) j = playback s j := rfl
@[simp] theorem port_setStamp (k : Nat) (l : StampLane) (j : Nat) : port (setStamp k l s) j = port s j := rfl
@[simp] theorem tenant_setStamp (k : Nat) (l : StampLane) (j : Nat) : tenant (setStamp k l s) j = tenant s j := rfl
@[simp] theorem stream_setStamp (k : Nat) (l : StampLane) (j : Nat) : stream (setStamp k l s) j = stream s j := rfl

/-! ### modStamp -/

@[simp] theorem modStamp_now (k : Nat) (f : StampLane → StampLane) : (modStamp k f s).now = s.now := rfl
@[simp] theorem modStamp_released (k : Nat) (f : StampLane → StampLane) : (modStamp k f s).released = s.released := rfl
@[simp] theorem modStamp_free (k : Nat) (f : StampLane → StampLane) : (modStamp k f s).free = s.free := rfl
@[simp] theorem modStamp_regs (k : Nat) (f : StampLane → StampLane) : (modStamp k f s).regs = s.regs := rfl
@[simp] theorem modStamp_otp (k : Nat) (f : StampLane → StampLane) : (modStamp k f s).otp = s.otp := rfl
@[simp] theorem modStamp_shadow (k : Nat) (f : StampLane → StampLane) : (modStamp k f s).shadow = s.shadow := rfl
@[simp] theorem modStamp_busData (k : Nat) (f : StampLane → StampLane) : (modStamp k f s).busData = s.busData := rfl
@[simp] theorem modStamp_busStatus (k : Nat) (f : StampLane → StampLane) : (modStamp k f s).busStatus = s.busStatus := rfl
@[simp] theorem modStamp_tb (k : Nat) (f : StampLane → StampLane) : (modStamp k f s).tb = s.tb := rfl
@[simp] theorem modStamp_syn (k : Nat) (f : StampLane → StampLane) : (modStamp k f s).syn = s.syn := rfl
@[simp] theorem modStamp_fr (k : Nat) (f : StampLane → StampLane) : (modStamp k f s).fr = s.fr := rfl
@[simp] theorem modStamp_pl (k : Nat) (f : StampLane → StampLane) : (modStamp k f s).pl = s.pl := rfl
@[simp] theorem modStamp_rg (k : Nat) (f : StampLane → StampLane) : (modStamp k f s).rg = s.rg := rfl
@[simp] theorem modStamp_cl (k : Nat) (f : StampLane → StampLane) : (modStamp k f s).cl = s.cl := rfl
@[simp] theorem modStamp_cx (k : Nat) (f : StampLane → StampLane) : (modStamp k f s).cx = s.cx := rfl
@[simp] theorem modStamp_pb (k : Nat) (f : StampLane → StampLane) : (modStamp k f s).pb = s.pb := rfl
@[simp] theorem modStamp_sp (k : Nat) (f : StampLane → StampLane) : (modStamp k f s).sp = s.sp := rfl
@[simp] theorem modStamp_ev (k : Nat) (f : StampLane → StampLane) : (modStamp k f s).ev = s.ev := rfl
@[simp] theorem modStamp_tn (k : Nat) (f : StampLane → StampLane) : (modStamp k f s).tn = s.tn := rfl
@[simp] theorem modStamp_pt (k : Nat) (f : StampLane → StampLane) : (modStamp k f s).pt = s.pt := rfl
@[simp] theorem modStamp_ttc (k : Nat) (f : StampLane → StampLane) : (modStamp k f s).ttc = s.ttc := rfl
@[simp] theorem modStamp_mspi (k : Nat) (f : StampLane → StampLane) : (modStamp k f s).mspi = s.mspi := rfl
@[simp] theorem modStamp_jtag (k : Nat) (f : StampLane → StampLane) : (modStamp k f s).jtag = s.jtag := rfl
@[simp] theorem modStamp_jr (k : Nat) (f : StampLane → StampLane) : (modStamp k f s).jr = s.jr := rfl
@[simp] theorem modStamp_byre (k : Nat) (f : StampLane → StampLane) : (modStamp k f s).byre = s.byre := rfl
@[simp] theorem modStamp_st (k : Nat) (f : StampLane → StampLane) : (modStamp k f s).st = s.st := rfl
@[simp] theorem modStamp_ad (k : Nat) (f : StampLane → StampLane) : (modStamp k f s).ad = s.ad := rfl
@[simp] theorem modStamp_fl (k : Nat) (f : StampLane → StampLane) : (modStamp k f s).fl = s.fl := rfl
@[simp] theorem modStamp_acc (k : Nat) (f : StampLane → StampLane) : (modStamp k f s).acc = s.acc := rfl
@[simp] theorem modStamp_pending (k : Nat) (f : StampLane → StampLane) : (modStamp k f s).pending = s.pending := rfl
@[simp] theorem reg_modStamp (k : Nat) (f : StampLane → StampLane) (q : Reg) : reg (modStamp k f s) q = reg s q := rfl
@[simp] theorem pulse_modStamp (k : Nat) (f : StampLane → StampLane) (j : Nat) : pulse (modStamp k f s) j = pulse s j := rfl
@[simp] theorem meas_modStamp (k : Nat) (f : StampLane → StampLane) (j : Nat) : meas (modStamp k f s) j = meas s j := rfl
@[simp] theorem cluster_modStamp (k : Nat) (f : StampLane → StampLane) (j : Nat) : cluster (modStamp k f s) j = cluster s j := rfl
@[simp] theorem ctx_modStamp (k : Nat) (f : StampLane → StampLane) (j : Nat) : ctx (modStamp k f s) j = ctx s j := rfl
@[simp] theorem playback_modStamp (k : Nat) (f : StampLane → StampLane) (j : Nat) : playback (modStamp k f s) j = playback s j := rfl
@[simp] theorem port_modStamp (k : Nat) (f : StampLane → StampLane) (j : Nat) : port (modStamp k f s) j = port s j := rfl
@[simp] theorem tenant_modStamp (k : Nat) (f : StampLane → StampLane) (j : Nat) : tenant (modStamp k f s) j = tenant s j := rfl
@[simp] theorem stream_modStamp (k : Nat) (f : StampLane → StampLane) (j : Nat) : stream (modStamp k f s) j = stream s j := rfl

/-! ### setMeas -/

@[simp] theorem setMeas_now (k : Nat) (l : Measure) : (setMeas k l s).now = s.now := rfl
@[simp] theorem setMeas_released (k : Nat) (l : Measure) : (setMeas k l s).released = s.released := rfl
@[simp] theorem setMeas_free (k : Nat) (l : Measure) : (setMeas k l s).free = s.free := rfl
@[simp] theorem setMeas_regs (k : Nat) (l : Measure) : (setMeas k l s).regs = s.regs := rfl
@[simp] theorem setMeas_otp (k : Nat) (l : Measure) : (setMeas k l s).otp = s.otp := rfl
@[simp] theorem setMeas_shadow (k : Nat) (l : Measure) : (setMeas k l s).shadow = s.shadow := rfl
@[simp] theorem setMeas_busData (k : Nat) (l : Measure) : (setMeas k l s).busData = s.busData := rfl
@[simp] theorem setMeas_busStatus (k : Nat) (l : Measure) : (setMeas k l s).busStatus = s.busStatus := rfl
@[simp] theorem setMeas_tb (k : Nat) (l : Measure) : (setMeas k l s).tb = s.tb := rfl
@[simp] theorem setMeas_syn (k : Nat) (l : Measure) : (setMeas k l s).syn = s.syn := rfl
@[simp] theorem setMeas_fr (k : Nat) (l : Measure) : (setMeas k l s).fr = s.fr := rfl
@[simp] theorem setMeas_pl (k : Nat) (l : Measure) : (setMeas k l s).pl = s.pl := rfl
@[simp] theorem setMeas_sl (k : Nat) (l : Measure) : (setMeas k l s).sl = s.sl := rfl
@[simp] theorem setMeas_cl (k : Nat) (l : Measure) : (setMeas k l s).cl = s.cl := rfl
@[simp] theorem setMeas_cx (k : Nat) (l : Measure) : (setMeas k l s).cx = s.cx := rfl
@[simp] theorem setMeas_pb (k : Nat) (l : Measure) : (setMeas k l s).pb = s.pb := rfl
@[simp] theorem setMeas_sp (k : Nat) (l : Measure) : (setMeas k l s).sp = s.sp := rfl
@[simp] theorem setMeas_ev (k : Nat) (l : Measure) : (setMeas k l s).ev = s.ev := rfl
@[simp] theorem setMeas_tn (k : Nat) (l : Measure) : (setMeas k l s).tn = s.tn := rfl
@[simp] theorem setMeas_pt (k : Nat) (l : Measure) : (setMeas k l s).pt = s.pt := rfl
@[simp] theorem setMeas_ttc (k : Nat) (l : Measure) : (setMeas k l s).ttc = s.ttc := rfl
@[simp] theorem setMeas_mspi (k : Nat) (l : Measure) : (setMeas k l s).mspi = s.mspi := rfl
@[simp] theorem setMeas_jtag (k : Nat) (l : Measure) : (setMeas k l s).jtag = s.jtag := rfl
@[simp] theorem setMeas_jr (k : Nat) (l : Measure) : (setMeas k l s).jr = s.jr := rfl
@[simp] theorem setMeas_byre (k : Nat) (l : Measure) : (setMeas k l s).byre = s.byre := rfl
@[simp] theorem setMeas_st (k : Nat) (l : Measure) : (setMeas k l s).st = s.st := rfl
@[simp] theorem setMeas_ad (k : Nat) (l : Measure) : (setMeas k l s).ad = s.ad := rfl
@[simp] theorem setMeas_fl (k : Nat) (l : Measure) : (setMeas k l s).fl = s.fl := rfl
@[simp] theorem setMeas_acc (k : Nat) (l : Measure) : (setMeas k l s).acc = s.acc := rfl
@[simp] theorem setMeas_pending (k : Nat) (l : Measure) : (setMeas k l s).pending = s.pending := rfl
@[simp] theorem reg_setMeas (k : Nat) (l : Measure) (q : Reg) : reg (setMeas k l s) q = reg s q := rfl
@[simp] theorem pulse_setMeas (k : Nat) (l : Measure) (j : Nat) : pulse (setMeas k l s) j = pulse s j := rfl
@[simp] theorem stamp_setMeas (k : Nat) (l : Measure) (j : Nat) : stamp (setMeas k l s) j = stamp s j := rfl
@[simp] theorem cluster_setMeas (k : Nat) (l : Measure) (j : Nat) : cluster (setMeas k l s) j = cluster s j := rfl
@[simp] theorem ctx_setMeas (k : Nat) (l : Measure) (j : Nat) : ctx (setMeas k l s) j = ctx s j := rfl
@[simp] theorem playback_setMeas (k : Nat) (l : Measure) (j : Nat) : playback (setMeas k l s) j = playback s j := rfl
@[simp] theorem port_setMeas (k : Nat) (l : Measure) (j : Nat) : port (setMeas k l s) j = port s j := rfl
@[simp] theorem tenant_setMeas (k : Nat) (l : Measure) (j : Nat) : tenant (setMeas k l s) j = tenant s j := rfl
@[simp] theorem stream_setMeas (k : Nat) (l : Measure) (j : Nat) : stream (setMeas k l s) j = stream s j := rfl

/-! ### modMeas -/

@[simp] theorem modMeas_now (k : Nat) (f : Measure → Measure) : (modMeas k f s).now = s.now := rfl
@[simp] theorem modMeas_released (k : Nat) (f : Measure → Measure) : (modMeas k f s).released = s.released := rfl
@[simp] theorem modMeas_free (k : Nat) (f : Measure → Measure) : (modMeas k f s).free = s.free := rfl
@[simp] theorem modMeas_regs (k : Nat) (f : Measure → Measure) : (modMeas k f s).regs = s.regs := rfl
@[simp] theorem modMeas_otp (k : Nat) (f : Measure → Measure) : (modMeas k f s).otp = s.otp := rfl
@[simp] theorem modMeas_shadow (k : Nat) (f : Measure → Measure) : (modMeas k f s).shadow = s.shadow := rfl
@[simp] theorem modMeas_busData (k : Nat) (f : Measure → Measure) : (modMeas k f s).busData = s.busData := rfl
@[simp] theorem modMeas_busStatus (k : Nat) (f : Measure → Measure) : (modMeas k f s).busStatus = s.busStatus := rfl
@[simp] theorem modMeas_tb (k : Nat) (f : Measure → Measure) : (modMeas k f s).tb = s.tb := rfl
@[simp] theorem modMeas_syn (k : Nat) (f : Measure → Measure) : (modMeas k f s).syn = s.syn := rfl
@[simp] theorem modMeas_fr (k : Nat) (f : Measure → Measure) : (modMeas k f s).fr = s.fr := rfl
@[simp] theorem modMeas_pl (k : Nat) (f : Measure → Measure) : (modMeas k f s).pl = s.pl := rfl
@[simp] theorem modMeas_sl (k : Nat) (f : Measure → Measure) : (modMeas k f s).sl = s.sl := rfl
@[simp] theorem modMeas_cl (k : Nat) (f : Measure → Measure) : (modMeas k f s).cl = s.cl := rfl
@[simp] theorem modMeas_cx (k : Nat) (f : Measure → Measure) : (modMeas k f s).cx = s.cx := rfl
@[simp] theorem modMeas_pb (k : Nat) (f : Measure → Measure) : (modMeas k f s).pb = s.pb := rfl
@[simp] theorem modMeas_sp (k : Nat) (f : Measure → Measure) : (modMeas k f s).sp = s.sp := rfl
@[simp] theorem modMeas_ev (k : Nat) (f : Measure → Measure) : (modMeas k f s).ev = s.ev := rfl
@[simp] theorem modMeas_tn (k : Nat) (f : Measure → Measure) : (modMeas k f s).tn = s.tn := rfl
@[simp] theorem modMeas_pt (k : Nat) (f : Measure → Measure) : (modMeas k f s).pt = s.pt := rfl
@[simp] theorem modMeas_ttc (k : Nat) (f : Measure → Measure) : (modMeas k f s).ttc = s.ttc := rfl
@[simp] theorem modMeas_mspi (k : Nat) (f : Measure → Measure) : (modMeas k f s).mspi = s.mspi := rfl
@[simp] theorem modMeas_jtag (k : Nat) (f : Measure → Measure) : (modMeas k f s).jtag = s.jtag := rfl
@[simp] theorem modMeas_jr (k : Nat) (f : Measure → Measure) : (modMeas k f s).jr = s.jr := rfl
@[simp] theorem modMeas_byre (k : Nat) (f : Measure → Measure) : (modMeas k f s).byre = s.byre := rfl
@[simp] theorem modMeas_st (k : Nat) (f : Measure → Measure) : (modMeas k f s).st = s.st := rfl
@[simp] theorem modMeas_ad (k : Nat) (f : Measure → Measure) : (modMeas k f s).ad = s.ad := rfl
@[simp] theorem modMeas_fl (k : Nat) (f : Measure → Measure) : (modMeas k f s).fl = s.fl := rfl
@[simp] theorem modMeas_acc (k : Nat) (f : Measure → Measure) : (modMeas k f s).acc = s.acc := rfl
@[simp] theorem modMeas_pending (k : Nat) (f : Measure → Measure) : (modMeas k f s).pending = s.pending := rfl
@[simp] theorem reg_modMeas (k : Nat) (f : Measure → Measure) (q : Reg) : reg (modMeas k f s) q = reg s q := rfl
@[simp] theorem pulse_modMeas (k : Nat) (f : Measure → Measure) (j : Nat) : pulse (modMeas k f s) j = pulse s j := rfl
@[simp] theorem stamp_modMeas (k : Nat) (f : Measure → Measure) (j : Nat) : stamp (modMeas k f s) j = stamp s j := rfl
@[simp] theorem cluster_modMeas (k : Nat) (f : Measure → Measure) (j : Nat) : cluster (modMeas k f s) j = cluster s j := rfl
@[simp] theorem ctx_modMeas (k : Nat) (f : Measure → Measure) (j : Nat) : ctx (modMeas k f s) j = ctx s j := rfl
@[simp] theorem playback_modMeas (k : Nat) (f : Measure → Measure) (j : Nat) : playback (modMeas k f s) j = playback s j := rfl
@[simp] theorem port_modMeas (k : Nat) (f : Measure → Measure) (j : Nat) : port (modMeas k f s) j = port s j := rfl
@[simp] theorem tenant_modMeas (k : Nat) (f : Measure → Measure) (j : Nat) : tenant (modMeas k f s) j = tenant s j := rfl
@[simp] theorem stream_modMeas (k : Nat) (f : Measure → Measure) (j : Nat) : stream (modMeas k f s) j = stream s j := rfl

/-! ### setCluster -/

@[simp] theorem setCluster_now (k : Nat) (u : Cluster) : (setCluster k u s).now = s.now := rfl
@[simp] theorem setCluster_released (k : Nat) (u : Cluster) : (setCluster k u s).released = s.released := rfl
@[simp] theorem setCluster_free (k : Nat) (u : Cluster) : (setCluster k u s).free = s.free := rfl
@[simp] theorem setCluster_regs (k : Nat) (u : Cluster) : (setCluster k u s).regs = s.regs := rfl
@[simp] theorem setCluster_otp (k : Nat) (u : Cluster) : (setCluster k u s).otp = s.otp := rfl
@[simp] theorem setCluster_shadow (k : Nat) (u : Cluster) : (setCluster k u s).shadow = s.shadow := rfl
@[simp] theorem setCluster_busData (k : Nat) (u : Cluster) : (setCluster k u s).busData = s.busData := rfl
@[simp] theorem setCluster_busStatus (k : Nat) (u : Cluster) : (setCluster k u s).busStatus = s.busStatus := rfl
@[simp] theorem setCluster_tb (k : Nat) (u : Cluster) : (setCluster k u s).tb = s.tb := rfl
@[simp] theorem setCluster_syn (k : Nat) (u : Cluster) : (setCluster k u s).syn = s.syn := rfl
@[simp] theorem setCluster_fr (k : Nat) (u : Cluster) : (setCluster k u s).fr = s.fr := rfl
@[simp] theorem setCluster_pl (k : Nat) (u : Cluster) : (setCluster k u s).pl = s.pl := rfl
@[simp] theorem setCluster_sl (k : Nat) (u : Cluster) : (setCluster k u s).sl = s.sl := rfl
@[simp] theorem setCluster_rg (k : Nat) (u : Cluster) : (setCluster k u s).rg = s.rg := rfl
@[simp] theorem setCluster_cx (k : Nat) (u : Cluster) : (setCluster k u s).cx = s.cx := rfl
@[simp] theorem setCluster_pb (k : Nat) (u : Cluster) : (setCluster k u s).pb = s.pb := rfl
@[simp] theorem setCluster_sp (k : Nat) (u : Cluster) : (setCluster k u s).sp = s.sp := rfl
@[simp] theorem setCluster_ev (k : Nat) (u : Cluster) : (setCluster k u s).ev = s.ev := rfl
@[simp] theorem setCluster_tn (k : Nat) (u : Cluster) : (setCluster k u s).tn = s.tn := rfl
@[simp] theorem setCluster_pt (k : Nat) (u : Cluster) : (setCluster k u s).pt = s.pt := rfl
@[simp] theorem setCluster_ttc (k : Nat) (u : Cluster) : (setCluster k u s).ttc = s.ttc := rfl
@[simp] theorem setCluster_mspi (k : Nat) (u : Cluster) : (setCluster k u s).mspi = s.mspi := rfl
@[simp] theorem setCluster_jtag (k : Nat) (u : Cluster) : (setCluster k u s).jtag = s.jtag := rfl
@[simp] theorem setCluster_jr (k : Nat) (u : Cluster) : (setCluster k u s).jr = s.jr := rfl
@[simp] theorem setCluster_byre (k : Nat) (u : Cluster) : (setCluster k u s).byre = s.byre := rfl
@[simp] theorem setCluster_st (k : Nat) (u : Cluster) : (setCluster k u s).st = s.st := rfl
@[simp] theorem setCluster_ad (k : Nat) (u : Cluster) : (setCluster k u s).ad = s.ad := rfl
@[simp] theorem setCluster_fl (k : Nat) (u : Cluster) : (setCluster k u s).fl = s.fl := rfl
@[simp] theorem setCluster_acc (k : Nat) (u : Cluster) : (setCluster k u s).acc = s.acc := rfl
@[simp] theorem setCluster_pending (k : Nat) (u : Cluster) : (setCluster k u s).pending = s.pending := rfl
@[simp] theorem reg_setCluster (k : Nat) (u : Cluster) (q : Reg) : reg (setCluster k u s) q = reg s q := rfl
@[simp] theorem pulse_setCluster (k : Nat) (u : Cluster) (j : Nat) : pulse (setCluster k u s) j = pulse s j := rfl
@[simp] theorem stamp_setCluster (k : Nat) (u : Cluster) (j : Nat) : stamp (setCluster k u s) j = stamp s j := rfl
@[simp] theorem meas_setCluster (k : Nat) (u : Cluster) (j : Nat) : meas (setCluster k u s) j = meas s j := rfl
@[simp] theorem ctx_setCluster (k : Nat) (u : Cluster) (j : Nat) : ctx (setCluster k u s) j = ctx s j := rfl
@[simp] theorem playback_setCluster (k : Nat) (u : Cluster) (j : Nat) : playback (setCluster k u s) j = playback s j := rfl
@[simp] theorem port_setCluster (k : Nat) (u : Cluster) (j : Nat) : port (setCluster k u s) j = port s j := rfl
@[simp] theorem tenant_setCluster (k : Nat) (u : Cluster) (j : Nat) : tenant (setCluster k u s) j = tenant s j := rfl
@[simp] theorem stream_setCluster (k : Nat) (u : Cluster) (j : Nat) : stream (setCluster k u s) j = stream s j := rfl

/-! ### modCluster -/

@[simp] theorem modCluster_now (k : Nat) (f : Cluster → Cluster) : (modCluster k f s).now = s.now := rfl
@[simp] theorem modCluster_released (k : Nat) (f : Cluster → Cluster) : (modCluster k f s).released = s.released := rfl
@[simp] theorem modCluster_free (k : Nat) (f : Cluster → Cluster) : (modCluster k f s).free = s.free := rfl
@[simp] theorem modCluster_regs (k : Nat) (f : Cluster → Cluster) : (modCluster k f s).regs = s.regs := rfl
@[simp] theorem modCluster_otp (k : Nat) (f : Cluster → Cluster) : (modCluster k f s).otp = s.otp := rfl
@[simp] theorem modCluster_shadow (k : Nat) (f : Cluster → Cluster) : (modCluster k f s).shadow = s.shadow := rfl
@[simp] theorem modCluster_busData (k : Nat) (f : Cluster → Cluster) : (modCluster k f s).busData = s.busData := rfl
@[simp] theorem modCluster_busStatus (k : Nat) (f : Cluster → Cluster) : (modCluster k f s).busStatus = s.busStatus := rfl
@[simp] theorem modCluster_tb (k : Nat) (f : Cluster → Cluster) : (modCluster k f s).tb = s.tb := rfl
@[simp] theorem modCluster_syn (k : Nat) (f : Cluster → Cluster) : (modCluster k f s).syn = s.syn := rfl
@[simp] theorem modCluster_fr (k : Nat) (f : Cluster → Cluster) : (modCluster k f s).fr = s.fr := rfl
@[simp] theorem modCluster_pl (k : Nat) (f : Cluster → Cluster) : (modCluster k f s).pl = s.pl := rfl
@[simp] theorem modCluster_sl (k : Nat) (f : Cluster → Cluster) : (modCluster k f s).sl = s.sl := rfl
@[simp] theorem modCluster_rg (k : Nat) (f : Cluster → Cluster) : (modCluster k f s).rg = s.rg := rfl
@[simp] theorem modCluster_cx (k : Nat) (f : Cluster → Cluster) : (modCluster k f s).cx = s.cx := rfl
@[simp] theorem modCluster_pb (k : Nat) (f : Cluster → Cluster) : (modCluster k f s).pb = s.pb := rfl
@[simp] theorem modCluster_sp (k : Nat) (f : Cluster → Cluster) : (modCluster k f s).sp = s.sp := rfl
@[simp] theorem modCluster_ev (k : Nat) (f : Cluster → Cluster) : (modCluster k f s).ev = s.ev := rfl
@[simp] theorem modCluster_tn (k : Nat) (f : Cluster → Cluster) : (modCluster k f s).tn = s.tn := rfl
@[simp] theorem modCluster_pt (k : Nat) (f : Cluster → Cluster) : (modCluster k f s).pt = s.pt := rfl
@[simp] theorem modCluster_ttc (k : Nat) (f : Cluster → Cluster) : (modCluster k f s).ttc = s.ttc := rfl
@[simp] theorem modCluster_mspi (k : Nat) (f : Cluster → Cluster) : (modCluster k f s).mspi = s.mspi := rfl
@[simp] theorem modCluster_jtag (k : Nat) (f : Cluster → Cluster) : (modCluster k f s).jtag = s.jtag := rfl
@[simp] theorem modCluster_jr (k : Nat) (f : Cluster → Cluster) : (modCluster k f s).jr = s.jr := rfl
@[simp] theorem modCluster_byre (k : Nat) (f : Cluster → Cluster) : (modCluster k f s).byre = s.byre := rfl
@[simp] theorem modCluster_st (k : Nat) (f : Cluster → Cluster) : (modCluster k f s).st = s.st := rfl
@[simp] theorem modCluster_ad (k : Nat) (f : Cluster → Cluster) : (modCluster k f s).ad = s.ad := rfl
@[simp] theorem modCluster_fl (k : Nat) (f : Cluster → Cluster) : (modCluster k f s).fl = s.fl := rfl
@[simp] theorem modCluster_acc (k : Nat) (f : Cluster → Cluster) : (modCluster k f s).acc = s.acc := rfl
@[simp] theorem modCluster_pending (k : Nat) (f : Cluster → Cluster) : (modCluster k f s).pending = s.pending := rfl
@[simp] theorem reg_modCluster (k : Nat) (f : Cluster → Cluster) (q : Reg) : reg (modCluster k f s) q = reg s q := rfl
@[simp] theorem pulse_modCluster (k : Nat) (f : Cluster → Cluster) (j : Nat) : pulse (modCluster k f s) j = pulse s j := rfl
@[simp] theorem stamp_modCluster (k : Nat) (f : Cluster → Cluster) (j : Nat) : stamp (modCluster k f s) j = stamp s j := rfl
@[simp] theorem meas_modCluster (k : Nat) (f : Cluster → Cluster) (j : Nat) : meas (modCluster k f s) j = meas s j := rfl
@[simp] theorem ctx_modCluster (k : Nat) (f : Cluster → Cluster) (j : Nat) : ctx (modCluster k f s) j = ctx s j := rfl
@[simp] theorem playback_modCluster (k : Nat) (f : Cluster → Cluster) (j : Nat) : playback (modCluster k f s) j = playback s j := rfl
@[simp] theorem port_modCluster (k : Nat) (f : Cluster → Cluster) (j : Nat) : port (modCluster k f s) j = port s j := rfl
@[simp] theorem tenant_modCluster (k : Nat) (f : Cluster → Cluster) (j : Nat) : tenant (modCluster k f s) j = tenant s j := rfl
@[simp] theorem stream_modCluster (k : Nat) (f : Cluster → Cluster) (j : Nat) : stream (modCluster k f s) j = stream s j := rfl

/-! ### setCtx -/

@[simp] theorem setCtx_now (k : Nat) (u : Ctx) : (setCtx k u s).now = s.now := rfl
@[simp] theorem setCtx_released (k : Nat) (u : Ctx) : (setCtx k u s).released = s.released := rfl
@[simp] theorem setCtx_free (k : Nat) (u : Ctx) : (setCtx k u s).free = s.free := rfl
@[simp] theorem setCtx_regs (k : Nat) (u : Ctx) : (setCtx k u s).regs = s.regs := rfl
@[simp] theorem setCtx_otp (k : Nat) (u : Ctx) : (setCtx k u s).otp = s.otp := rfl
@[simp] theorem setCtx_shadow (k : Nat) (u : Ctx) : (setCtx k u s).shadow = s.shadow := rfl
@[simp] theorem setCtx_busData (k : Nat) (u : Ctx) : (setCtx k u s).busData = s.busData := rfl
@[simp] theorem setCtx_busStatus (k : Nat) (u : Ctx) : (setCtx k u s).busStatus = s.busStatus := rfl
@[simp] theorem setCtx_tb (k : Nat) (u : Ctx) : (setCtx k u s).tb = s.tb := rfl
@[simp] theorem setCtx_syn (k : Nat) (u : Ctx) : (setCtx k u s).syn = s.syn := rfl
@[simp] theorem setCtx_fr (k : Nat) (u : Ctx) : (setCtx k u s).fr = s.fr := rfl
@[simp] theorem setCtx_pl (k : Nat) (u : Ctx) : (setCtx k u s).pl = s.pl := rfl
@[simp] theorem setCtx_sl (k : Nat) (u : Ctx) : (setCtx k u s).sl = s.sl := rfl
@[simp] theorem setCtx_rg (k : Nat) (u : Ctx) : (setCtx k u s).rg = s.rg := rfl
@[simp] theorem setCtx_cl (k : Nat) (u : Ctx) : (setCtx k u s).cl = s.cl := rfl
@[simp] theorem setCtx_pb (k : Nat) (u : Ctx) : (setCtx k u s).pb = s.pb := rfl
@[simp] theorem setCtx_sp (k : Nat) (u : Ctx) : (setCtx k u s).sp = s.sp := rfl
@[simp] theorem setCtx_ev (k : Nat) (u : Ctx) : (setCtx k u s).ev = s.ev := rfl
@[simp] theorem setCtx_tn (k : Nat) (u : Ctx) : (setCtx k u s).tn = s.tn := rfl
@[simp] theorem setCtx_pt (k : Nat) (u : Ctx) : (setCtx k u s).pt = s.pt := rfl
@[simp] theorem setCtx_ttc (k : Nat) (u : Ctx) : (setCtx k u s).ttc = s.ttc := rfl
@[simp] theorem setCtx_mspi (k : Nat) (u : Ctx) : (setCtx k u s).mspi = s.mspi := rfl
@[simp] theorem setCtx_jtag (k : Nat) (u : Ctx) : (setCtx k u s).jtag = s.jtag := rfl
@[simp] theorem setCtx_jr (k : Nat) (u : Ctx) : (setCtx k u s).jr = s.jr := rfl
@[simp] theorem setCtx_byre (k : Nat) (u : Ctx) : (setCtx k u s).byre = s.byre := rfl
@[simp] theorem setCtx_st (k : Nat) (u : Ctx) : (setCtx k u s).st = s.st := rfl
@[simp] theorem setCtx_ad (k : Nat) (u : Ctx) : (setCtx k u s).ad = s.ad := rfl
@[simp] theorem setCtx_fl (k : Nat) (u : Ctx) : (setCtx k u s).fl = s.fl := rfl
@[simp] theorem setCtx_acc (k : Nat) (u : Ctx) : (setCtx k u s).acc = s.acc := rfl
@[simp] theorem setCtx_pending (k : Nat) (u : Ctx) : (setCtx k u s).pending = s.pending := rfl
@[simp] theorem reg_setCtx (k : Nat) (u : Ctx) (q : Reg) : reg (setCtx k u s) q = reg s q := rfl
@[simp] theorem pulse_setCtx (k : Nat) (u : Ctx) (j : Nat) : pulse (setCtx k u s) j = pulse s j := rfl
@[simp] theorem stamp_setCtx (k : Nat) (u : Ctx) (j : Nat) : stamp (setCtx k u s) j = stamp s j := rfl
@[simp] theorem meas_setCtx (k : Nat) (u : Ctx) (j : Nat) : meas (setCtx k u s) j = meas s j := rfl
@[simp] theorem cluster_setCtx (k : Nat) (u : Ctx) (j : Nat) : cluster (setCtx k u s) j = cluster s j := rfl
@[simp] theorem playback_setCtx (k : Nat) (u : Ctx) (j : Nat) : playback (setCtx k u s) j = playback s j := rfl
@[simp] theorem port_setCtx (k : Nat) (u : Ctx) (j : Nat) : port (setCtx k u s) j = port s j := rfl
@[simp] theorem tenant_setCtx (k : Nat) (u : Ctx) (j : Nat) : tenant (setCtx k u s) j = tenant s j := rfl
@[simp] theorem stream_setCtx (k : Nat) (u : Ctx) (j : Nat) : stream (setCtx k u s) j = stream s j := rfl

/-! ### modCtx -/

@[simp] theorem modCtx_now (k : Nat) (f : Ctx → Ctx) : (modCtx k f s).now = s.now := rfl
@[simp] theorem modCtx_released (k : Nat) (f : Ctx → Ctx) : (modCtx k f s).released = s.released := rfl
@[simp] theorem modCtx_free (k : Nat) (f : Ctx → Ctx) : (modCtx k f s).free = s.free := rfl
@[simp] theorem modCtx_regs (k : Nat) (f : Ctx → Ctx) : (modCtx k f s).regs = s.regs := rfl
@[simp] theorem modCtx_otp (k : Nat) (f : Ctx → Ctx) : (modCtx k f s).otp = s.otp := rfl
@[simp] theorem modCtx_shadow (k : Nat) (f : Ctx → Ctx) : (modCtx k f s).shadow = s.shadow := rfl
@[simp] theorem modCtx_busData (k : Nat) (f : Ctx → Ctx) : (modCtx k f s).busData = s.busData := rfl
@[simp] theorem modCtx_busStatus (k : Nat) (f : Ctx → Ctx) : (modCtx k f s).busStatus = s.busStatus := rfl
@[simp] theorem modCtx_tb (k : Nat) (f : Ctx → Ctx) : (modCtx k f s).tb = s.tb := rfl
@[simp] theorem modCtx_syn (k : Nat) (f : Ctx → Ctx) : (modCtx k f s).syn = s.syn := rfl
@[simp] theorem modCtx_fr (k : Nat) (f : Ctx → Ctx) : (modCtx k f s).fr = s.fr := rfl
@[simp] theorem modCtx_pl (k : Nat) (f : Ctx → Ctx) : (modCtx k f s).pl = s.pl := rfl
@[simp] theorem modCtx_sl (k : Nat) (f : Ctx → Ctx) : (modCtx k f s).sl = s.sl := rfl
@[simp] theorem modCtx_rg (k : Nat) (f : Ctx → Ctx) : (modCtx k f s).rg = s.rg := rfl
@[simp] theorem modCtx_cl (k : Nat) (f : Ctx → Ctx) : (modCtx k f s).cl = s.cl := rfl
@[simp] theorem modCtx_pb (k : Nat) (f : Ctx → Ctx) : (modCtx k f s).pb = s.pb := rfl
@[simp] theorem modCtx_sp (k : Nat) (f : Ctx → Ctx) : (modCtx k f s).sp = s.sp := rfl
@[simp] theorem modCtx_ev (k : Nat) (f : Ctx → Ctx) : (modCtx k f s).ev = s.ev := rfl
@[simp] theorem modCtx_tn (k : Nat) (f : Ctx → Ctx) : (modCtx k f s).tn = s.tn := rfl
@[simp] theorem modCtx_pt (k : Nat) (f : Ctx → Ctx) : (modCtx k f s).pt = s.pt := rfl
@[simp] theorem modCtx_ttc (k : Nat) (f : Ctx → Ctx) : (modCtx k f s).ttc = s.ttc := rfl
@[simp] theorem modCtx_mspi (k : Nat) (f : Ctx → Ctx) : (modCtx k f s).mspi = s.mspi := rfl
@[simp] theorem modCtx_jtag (k : Nat) (f : Ctx → Ctx) : (modCtx k f s).jtag = s.jtag := rfl
@[simp] theorem modCtx_jr (k : Nat) (f : Ctx → Ctx) : (modCtx k f s).jr = s.jr := rfl
@[simp] theorem modCtx_byre (k : Nat) (f : Ctx → Ctx) : (modCtx k f s).byre = s.byre := rfl
@[simp] theorem modCtx_st (k : Nat) (f : Ctx → Ctx) : (modCtx k f s).st = s.st := rfl
@[simp] theorem modCtx_ad (k : Nat) (f : Ctx → Ctx) : (modCtx k f s).ad = s.ad := rfl
@[simp] theorem modCtx_fl (k : Nat) (f : Ctx → Ctx) : (modCtx k f s).fl = s.fl := rfl
@[simp] theorem modCtx_acc (k : Nat) (f : Ctx → Ctx) : (modCtx k f s).acc = s.acc := rfl
@[simp] theorem modCtx_pending (k : Nat) (f : Ctx → Ctx) : (modCtx k f s).pending = s.pending := rfl
@[simp] theorem reg_modCtx (k : Nat) (f : Ctx → Ctx) (q : Reg) : reg (modCtx k f s) q = reg s q := rfl
@[simp] theorem pulse_modCtx (k : Nat) (f : Ctx → Ctx) (j : Nat) : pulse (modCtx k f s) j = pulse s j := rfl
@[simp] theorem stamp_modCtx (k : Nat) (f : Ctx → Ctx) (j : Nat) : stamp (modCtx k f s) j = stamp s j := rfl
@[simp] theorem meas_modCtx (k : Nat) (f : Ctx → Ctx) (j : Nat) : meas (modCtx k f s) j = meas s j := rfl
@[simp] theorem cluster_modCtx (k : Nat) (f : Ctx → Ctx) (j : Nat) : cluster (modCtx k f s) j = cluster s j := rfl
@[simp] theorem playback_modCtx (k : Nat) (f : Ctx → Ctx) (j : Nat) : playback (modCtx k f s) j = playback s j := rfl
@[simp] theorem port_modCtx (k : Nat) (f : Ctx → Ctx) (j : Nat) : port (modCtx k f s) j = port s j := rfl
@[simp] theorem tenant_modCtx (k : Nat) (f : Ctx → Ctx) (j : Nat) : tenant (modCtx k f s) j = tenant s j := rfl
@[simp] theorem stream_modCtx (k : Nat) (f : Ctx → Ctx) (j : Nat) : stream (modCtx k f s) j = stream s j := rfl

/-! ### setPlayback -/

@[simp] theorem setPlayback_now (k : Nat) (u : Playback) : (setPlayback k u s).now = s.now := rfl
@[simp] theorem setPlayback_released (k : Nat) (u : Playback) : (setPlayback k u s).released = s.released := rfl
@[simp] theorem setPlayback_free (k : Nat) (u : Playback) : (setPlayback k u s).free = s.free := rfl
@[simp] theorem setPlayback_regs (k : Nat) (u : Playback) : (setPlayback k u s).regs = s.regs := rfl
@[simp] theorem setPlayback_otp (k : Nat) (u : Playback) : (setPlayback k u s).otp = s.otp := rfl
@[simp] theorem setPlayback_shadow (k : Nat) (u : Playback) : (setPlayback k u s).shadow = s.shadow := rfl
@[simp] theorem setPlayback_busData (k : Nat) (u : Playback) : (setPlayback k u s).busData = s.busData := rfl
@[simp] theorem setPlayback_busStatus (k : Nat) (u : Playback) : (setPlayback k u s).busStatus = s.busStatus := rfl
@[simp] theorem setPlayback_tb (k : Nat) (u : Playback) : (setPlayback k u s).tb = s.tb := rfl
@[simp] theorem setPlayback_syn (k : Nat) (u : Playback) : (setPlayback k u s).syn = s.syn := rfl
@[simp] theorem setPlayback_fr (k : Nat) (u : Playback) : (setPlayback k u s).fr = s.fr := rfl
@[simp] theorem setPlayback_pl (k : Nat) (u : Playback) : (setPlayback k u s).pl = s.pl := rfl
@[simp] theorem setPlayback_sl (k : Nat) (u : Playback) : (setPlayback k u s).sl = s.sl := rfl
@[simp] theorem setPlayback_rg (k : Nat) (u : Playback) : (setPlayback k u s).rg = s.rg := rfl
@[simp] theorem setPlayback_cl (k : Nat) (u : Playback) : (setPlayback k u s).cl = s.cl := rfl
@[simp] theorem setPlayback_cx (k : Nat) (u : Playback) : (setPlayback k u s).cx = s.cx := rfl
@[simp] theorem setPlayback_sp (k : Nat) (u : Playback) : (setPlayback k u s).sp = s.sp := rfl
@[simp] theorem setPlayback_ev (k : Nat) (u : Playback) : (setPlayback k u s).ev = s.ev := rfl
@[simp] theorem setPlayback_tn (k : Nat) (u : Playback) : (setPlayback k u s).tn = s.tn := rfl
@[simp] theorem setPlayback_pt (k : Nat) (u : Playback) : (setPlayback k u s).pt = s.pt := rfl
@[simp] theorem setPlayback_ttc (k : Nat) (u : Playback) : (setPlayback k u s).ttc = s.ttc := rfl
@[simp] theorem setPlayback_mspi (k : Nat) (u : Playback) : (setPlayback k u s).mspi = s.mspi := rfl
@[simp] theorem setPlayback_jtag (k : Nat) (u : Playback) : (setPlayback k u s).jtag = s.jtag := rfl
@[simp] theorem setPlayback_jr (k : Nat) (u : Playback) : (setPlayback k u s).jr = s.jr := rfl
@[simp] theorem setPlayback_byre (k : Nat) (u : Playback) : (setPlayback k u s).byre = s.byre := rfl
@[simp] theorem setPlayback_st (k : Nat) (u : Playback) : (setPlayback k u s).st = s.st := rfl
@[simp] theorem setPlayback_ad (k : Nat) (u : Playback) : (setPlayback k u s).ad = s.ad := rfl
@[simp] theorem setPlayback_fl (k : Nat) (u : Playback) : (setPlayback k u s).fl = s.fl := rfl
@[simp] theorem setPlayback_acc (k : Nat) (u : Playback) : (setPlayback k u s).acc = s.acc := rfl
@[simp] theorem setPlayback_pending (k : Nat) (u : Playback) : (setPlayback k u s).pending = s.pending := rfl
@[simp] theorem reg_setPlayback (k : Nat) (u : Playback) (q : Reg) : reg (setPlayback k u s) q = reg s q := rfl
@[simp] theorem pulse_setPlayback (k : Nat) (u : Playback) (j : Nat) : pulse (setPlayback k u s) j = pulse s j := rfl
@[simp] theorem stamp_setPlayback (k : Nat) (u : Playback) (j : Nat) : stamp (setPlayback k u s) j = stamp s j := rfl
@[simp] theorem meas_setPlayback (k : Nat) (u : Playback) (j : Nat) : meas (setPlayback k u s) j = meas s j := rfl
@[simp] theorem cluster_setPlayback (k : Nat) (u : Playback) (j : Nat) : cluster (setPlayback k u s) j = cluster s j := rfl
@[simp] theorem ctx_setPlayback (k : Nat) (u : Playback) (j : Nat) : ctx (setPlayback k u s) j = ctx s j := rfl
@[simp] theorem port_setPlayback (k : Nat) (u : Playback) (j : Nat) : port (setPlayback k u s) j = port s j := rfl
@[simp] theorem tenant_setPlayback (k : Nat) (u : Playback) (j : Nat) : tenant (setPlayback k u s) j = tenant s j := rfl
@[simp] theorem stream_setPlayback (k : Nat) (u : Playback) (j : Nat) : stream (setPlayback k u s) j = stream s j := rfl

/-! ### modPlayback -/

@[simp] theorem modPlayback_now (k : Nat) (f : Playback → Playback) : (modPlayback k f s).now = s.now := rfl
@[simp] theorem modPlayback_released (k : Nat) (f : Playback → Playback) : (modPlayback k f s).released = s.released := rfl
@[simp] theorem modPlayback_free (k : Nat) (f : Playback → Playback) : (modPlayback k f s).free = s.free := rfl
@[simp] theorem modPlayback_regs (k : Nat) (f : Playback → Playback) : (modPlayback k f s).regs = s.regs := rfl
@[simp] theorem modPlayback_otp (k : Nat) (f : Playback → Playback) : (modPlayback k f s).otp = s.otp := rfl
@[simp] theorem modPlayback_shadow (k : Nat) (f : Playback → Playback) : (modPlayback k f s).shadow = s.shadow := rfl
@[simp] theorem modPlayback_busData (k : Nat) (f : Playback → Playback) : (modPlayback k f s).busData = s.busData := rfl
@[simp] theorem modPlayback_busStatus (k : Nat) (f : Playback → Playback) : (modPlayback k f s).busStatus = s.busStatus := rfl
@[simp] theorem modPlayback_tb (k : Nat) (f : Playback → Playback) : (modPlayback k f s).tb = s.tb := rfl
@[simp] theorem modPlayback_syn (k : Nat) (f : Playback → Playback) : (modPlayback k f s).syn = s.syn := rfl
@[simp] theorem modPlayback_fr (k : Nat) (f : Playback → Playback) : (modPlayback k f s).fr = s.fr := rfl
@[simp] theorem modPlayback_pl (k : Nat) (f : Playback → Playback) : (modPlayback k f s).pl = s.pl := rfl
@[simp] theorem modPlayback_sl (k : Nat) (f : Playback → Playback) : (modPlayback k f s).sl = s.sl := rfl
@[simp] theorem modPlayback_rg (k : Nat) (f : Playback → Playback) : (modPlayback k f s).rg = s.rg := rfl
@[simp] theorem modPlayback_cl (k : Nat) (f : Playback → Playback) : (modPlayback k f s).cl = s.cl := rfl
@[simp] theorem modPlayback_cx (k : Nat) (f : Playback → Playback) : (modPlayback k f s).cx = s.cx := rfl
@[simp] theorem modPlayback_sp (k : Nat) (f : Playback → Playback) : (modPlayback k f s).sp = s.sp := rfl
@[simp] theorem modPlayback_ev (k : Nat) (f : Playback → Playback) : (modPlayback k f s).ev = s.ev := rfl
@[simp] theorem modPlayback_tn (k : Nat) (f : Playback → Playback) : (modPlayback k f s).tn = s.tn := rfl
@[simp] theorem modPlayback_pt (k : Nat) (f : Playback → Playback) : (modPlayback k f s).pt = s.pt := rfl
@[simp] theorem modPlayback_ttc (k : Nat) (f : Playback → Playback) : (modPlayback k f s).ttc = s.ttc := rfl
@[simp] theorem modPlayback_mspi (k : Nat) (f : Playback → Playback) : (modPlayback k f s).mspi = s.mspi := rfl
@[simp] theorem modPlayback_jtag (k : Nat) (f : Playback → Playback) : (modPlayback k f s).jtag = s.jtag := rfl
@[simp] theorem modPlayback_jr (k : Nat) (f : Playback → Playback) : (modPlayback k f s).jr = s.jr := rfl
@[simp] theorem modPlayback_byre (k : Nat) (f : Playback → Playback) : (modPlayback k f s).byre = s.byre := rfl
@[simp] theorem modPlayback_st (k : Nat) (f : Playback → Playback) : (modPlayback k f s).st = s.st := rfl
@[simp] theorem modPlayback_ad (k : Nat) (f : Playback → Playback) : (modPlayback k f s).ad = s.ad := rfl
@[simp] theorem modPlayback_fl (k : Nat) (f : Playback → Playback) : (modPlayback k f s).fl = s.fl := rfl
@[simp] theorem modPlayback_acc (k : Nat) (f : Playback → Playback) : (modPlayback k f s).acc = s.acc := rfl
@[simp] theorem modPlayback_pending (k : Nat) (f : Playback → Playback) : (modPlayback k f s).pending = s.pending := rfl
@[simp] theorem reg_modPlayback (k : Nat) (f : Playback → Playback) (q : Reg) : reg (modPlayback k f s) q = reg s q := rfl
@[simp] theorem pulse_modPlayback (k : Nat) (f : Playback → Playback) (j : Nat) : pulse (modPlayback k f s) j = pulse s j := rfl
@[simp] theorem stamp_modPlayback (k : Nat) (f : Playback → Playback) (j : Nat) : stamp (modPlayback k f s) j = stamp s j := rfl
@[simp] theorem meas_modPlayback (k : Nat) (f : Playback → Playback) (j : Nat) : meas (modPlayback k f s) j = meas s j := rfl
@[simp] theorem cluster_modPlayback (k : Nat) (f : Playback → Playback) (j : Nat) : cluster (modPlayback k f s) j = cluster s j := rfl
@[simp] theorem ctx_modPlayback (k : Nat) (f : Playback → Playback) (j : Nat) : ctx (modPlayback k f s) j = ctx s j := rfl
@[simp] theorem port_modPlayback (k : Nat) (f : Playback → Playback) (j : Nat) : port (modPlayback k f s) j = port s j := rfl
@[simp] theorem tenant_modPlayback (k : Nat) (f : Playback → Playback) (j : Nat) : tenant (modPlayback k f s) j = tenant s j := rfl
@[simp] theorem stream_modPlayback (k : Nat) (f : Playback → Playback) (j : Nat) : stream (modPlayback k f s) j = stream s j := rfl

/-! ### setStream -/

@[simp] theorem setStream_now (k : Nat) (u : Stream) : (setStream k u s).now = s.now := rfl
@[simp] theorem setStream_released (k : Nat) (u : Stream) : (setStream k u s).released = s.released := rfl
@[simp] theorem setStream_free (k : Nat) (u : Stream) : (setStream k u s).free = s.free := rfl
@[simp] theorem setStream_regs (k : Nat) (u : Stream) : (setStream k u s).regs = s.regs := rfl
@[simp] theorem setStream_otp (k : Nat) (u : Stream) : (setStream k u s).otp = s.otp := rfl
@[simp] theorem setStream_shadow (k : Nat) (u : Stream) : (setStream k u s).shadow = s.shadow := rfl
@[simp] theorem setStream_busData (k : Nat) (u : Stream) : (setStream k u s).busData = s.busData := rfl
@[simp] theorem setStream_busStatus (k : Nat) (u : Stream) : (setStream k u s).busStatus = s.busStatus := rfl
@[simp] theorem setStream_tb (k : Nat) (u : Stream) : (setStream k u s).tb = s.tb := rfl
@[simp] theorem setStream_syn (k : Nat) (u : Stream) : (setStream k u s).syn = s.syn := rfl
@[simp] theorem setStream_fr (k : Nat) (u : Stream) : (setStream k u s).fr = s.fr := rfl
@[simp] theorem setStream_pl (k : Nat) (u : Stream) : (setStream k u s).pl = s.pl := rfl
@[simp] theorem setStream_sl (k : Nat) (u : Stream) : (setStream k u s).sl = s.sl := rfl
@[simp] theorem setStream_rg (k : Nat) (u : Stream) : (setStream k u s).rg = s.rg := rfl
@[simp] theorem setStream_cl (k : Nat) (u : Stream) : (setStream k u s).cl = s.cl := rfl
@[simp] theorem setStream_cx (k : Nat) (u : Stream) : (setStream k u s).cx = s.cx := rfl
@[simp] theorem setStream_pb (k : Nat) (u : Stream) : (setStream k u s).pb = s.pb := rfl
@[simp] theorem setStream_ev (k : Nat) (u : Stream) : (setStream k u s).ev = s.ev := rfl
@[simp] theorem setStream_tn (k : Nat) (u : Stream) : (setStream k u s).tn = s.tn := rfl
@[simp] theorem setStream_pt (k : Nat) (u : Stream) : (setStream k u s).pt = s.pt := rfl
@[simp] theorem setStream_ttc (k : Nat) (u : Stream) : (setStream k u s).ttc = s.ttc := rfl
@[simp] theorem setStream_mspi (k : Nat) (u : Stream) : (setStream k u s).mspi = s.mspi := rfl
@[simp] theorem setStream_jtag (k : Nat) (u : Stream) : (setStream k u s).jtag = s.jtag := rfl
@[simp] theorem setStream_jr (k : Nat) (u : Stream) : (setStream k u s).jr = s.jr := rfl
@[simp] theorem setStream_byre (k : Nat) (u : Stream) : (setStream k u s).byre = s.byre := rfl
@[simp] theorem setStream_st (k : Nat) (u : Stream) : (setStream k u s).st = s.st := rfl
@[simp] theorem setStream_ad (k : Nat) (u : Stream) : (setStream k u s).ad = s.ad := rfl
@[simp] theorem setStream_fl (k : Nat) (u : Stream) : (setStream k u s).fl = s.fl := rfl
@[simp] theorem setStream_acc (k : Nat) (u : Stream) : (setStream k u s).acc = s.acc := rfl
@[simp] theorem setStream_pending (k : Nat) (u : Stream) : (setStream k u s).pending = s.pending := rfl
@[simp] theorem reg_setStream (k : Nat) (u : Stream) (q : Reg) : reg (setStream k u s) q = reg s q := rfl
@[simp] theorem pulse_setStream (k : Nat) (u : Stream) (j : Nat) : pulse (setStream k u s) j = pulse s j := rfl
@[simp] theorem stamp_setStream (k : Nat) (u : Stream) (j : Nat) : stamp (setStream k u s) j = stamp s j := rfl
@[simp] theorem meas_setStream (k : Nat) (u : Stream) (j : Nat) : meas (setStream k u s) j = meas s j := rfl
@[simp] theorem cluster_setStream (k : Nat) (u : Stream) (j : Nat) : cluster (setStream k u s) j = cluster s j := rfl
@[simp] theorem ctx_setStream (k : Nat) (u : Stream) (j : Nat) : ctx (setStream k u s) j = ctx s j := rfl
@[simp] theorem playback_setStream (k : Nat) (u : Stream) (j : Nat) : playback (setStream k u s) j = playback s j := rfl
@[simp] theorem port_setStream (k : Nat) (u : Stream) (j : Nat) : port (setStream k u s) j = port s j := rfl
@[simp] theorem tenant_setStream (k : Nat) (u : Stream) (j : Nat) : tenant (setStream k u s) j = tenant s j := rfl

/-! ### modStream -/

@[simp] theorem modStream_now (k : Nat) (f : Stream → Stream) : (modStream k f s).now = s.now := rfl
@[simp] theorem modStream_released (k : Nat) (f : Stream → Stream) : (modStream k f s).released = s.released := rfl
@[simp] theorem modStream_free (k : Nat) (f : Stream → Stream) : (modStream k f s).free = s.free := rfl
@[simp] theorem modStream_regs (k : Nat) (f : Stream → Stream) : (modStream k f s).regs = s.regs := rfl
@[simp] theorem modStream_otp (k : Nat) (f : Stream → Stream) : (modStream k f s).otp = s.otp := rfl
@[simp] theorem modStream_shadow (k : Nat) (f : Stream → Stream) : (modStream k f s).shadow = s.shadow := rfl
@[simp] theorem modStream_busData (k : Nat) (f : Stream → Stream) : (modStream k f s).busData = s.busData := rfl
@[simp] theorem modStream_busStatus (k : Nat) (f : Stream → Stream) : (modStream k f s).busStatus = s.busStatus := rfl
@[simp] theorem modStream_tb (k : Nat) (f : Stream → Stream) : (modStream k f s).tb = s.tb := rfl
@[simp] theorem modStream_syn (k : Nat) (f : Stream → Stream) : (modStream k f s).syn = s.syn := rfl
@[simp] theorem modStream_fr (k : Nat) (f : Stream → Stream) : (modStream k f s).fr = s.fr := rfl
@[simp] theorem modStream_pl (k : Nat) (f : Stream → Stream) : (modStream k f s).pl = s.pl := rfl
@[simp] theorem modStream_sl (k : Nat) (f : Stream → Stream) : (modStream k f s).sl = s.sl := rfl
@[simp] theorem modStream_rg (k : Nat) (f : Stream → Stream) : (modStream k f s).rg = s.rg := rfl
@[simp] theorem modStream_cl (k : Nat) (f : Stream → Stream) : (modStream k f s).cl = s.cl := rfl
@[simp] theorem modStream_cx (k : Nat) (f : Stream → Stream) : (modStream k f s).cx = s.cx := rfl
@[simp] theorem modStream_pb (k : Nat) (f : Stream → Stream) : (modStream k f s).pb = s.pb := rfl
@[simp] theorem modStream_ev (k : Nat) (f : Stream → Stream) : (modStream k f s).ev = s.ev := rfl
@[simp] theorem modStream_tn (k : Nat) (f : Stream → Stream) : (modStream k f s).tn = s.tn := rfl
@[simp] theorem modStream_pt (k : Nat) (f : Stream → Stream) : (modStream k f s).pt = s.pt := rfl
@[simp] theorem modStream_ttc (k : Nat) (f : Stream → Stream) : (modStream k f s).ttc = s.ttc := rfl
@[simp] theorem modStream_mspi (k : Nat) (f : Stream → Stream) : (modStream k f s).mspi = s.mspi := rfl
@[simp] theorem modStream_jtag (k : Nat) (f : Stream → Stream) : (modStream k f s).jtag = s.jtag := rfl
@[simp] theorem modStream_jr (k : Nat) (f : Stream → Stream) : (modStream k f s).jr = s.jr := rfl
@[simp] theorem modStream_byre (k : Nat) (f : Stream → Stream) : (modStream k f s).byre = s.byre := rfl
@[simp] theorem modStream_st (k : Nat) (f : Stream → Stream) : (modStream k f s).st = s.st := rfl
@[simp] theorem modStream_ad (k : Nat) (f : Stream → Stream) : (modStream k f s).ad = s.ad := rfl
@[simp] theorem modStream_fl (k : Nat) (f : Stream → Stream) : (modStream k f s).fl = s.fl := rfl
@[simp] theorem modStream_acc (k : Nat) (f : Stream → Stream) : (modStream k f s).acc = s.acc := rfl
@[simp] theorem modStream_pending (k : Nat) (f : Stream → Stream) : (modStream k f s).pending = s.pending := rfl
@[simp] theorem reg_modStream (k : Nat) (f : Stream → Stream) (q : Reg) : reg (modStream k f s) q = reg s q := rfl
@[simp] theorem pulse_modStream (k : Nat) (f : Stream → Stream) (j : Nat) : pulse (modStream k f s) j = pulse s j := rfl
@[simp] theorem stamp_modStream (k : Nat) (f : Stream → Stream) (j : Nat) : stamp (modStream k f s) j = stamp s j := rfl
@[simp] theorem meas_modStream (k : Nat) (f : Stream → Stream) (j : Nat) : meas (modStream k f s) j = meas s j := rfl
@[simp] theorem cluster_modStream (k : Nat) (f : Stream → Stream) (j : Nat) : cluster (modStream k f s) j = cluster s j := rfl
@[simp] theorem ctx_modStream (k : Nat) (f : Stream → Stream) (j : Nat) : ctx (modStream k f s) j = ctx s j := rfl
@[simp] theorem playback_modStream (k : Nat) (f : Stream → Stream) (j : Nat) : playback (modStream k f s) j = playback s j := rfl
@[simp] theorem port_modStream (k : Nat) (f : Stream → Stream) (j : Nat) : port (modStream k f s) j = port s j := rfl
@[simp] theorem tenant_modStream (k : Nat) (f : Stream → Stream) (j : Nat) : tenant (modStream k f s) j = tenant s j := rfl

/-! ### setTenant -/

@[simp] theorem setTenant_now (k : Nat) (u : Tenant) : (setTenant k u s).now = s.now := rfl
@[simp] theorem setTenant_released (k : Nat) (u : Tenant) : (setTenant k u s).released = s.released := rfl
@[simp] theorem setTenant_free (k : Nat) (u : Tenant) : (setTenant k u s).free = s.free := rfl
@[simp] theorem setTenant_regs (k : Nat) (u : Tenant) : (setTenant k u s).regs = s.regs := rfl
@[simp] theorem setTenant_otp (k : Nat) (u : Tenant) : (setTenant k u s).otp = s.otp := rfl
@[simp] theorem setTenant_shadow (k : Nat) (u : Tenant) : (setTenant k u s).shadow = s.shadow := rfl
@[simp] theorem setTenant_busData (k : Nat) (u : Tenant) : (setTenant k u s).busData = s.busData := rfl
@[simp] theorem setTenant_busStatus (k : Nat) (u : Tenant) : (setTenant k u s).busStatus = s.busStatus := rfl
@[simp] theorem setTenant_tb (k : Nat) (u : Tenant) : (setTenant k u s).tb = s.tb := rfl
@[simp] theorem setTenant_syn (k : Nat) (u : Tenant) : (setTenant k u s).syn = s.syn := rfl
@[simp] theorem setTenant_fr (k : Nat) (u : Tenant) : (setTenant k u s).fr = s.fr := rfl
@[simp] theorem setTenant_pl (k : Nat) (u : Tenant) : (setTenant k u s).pl = s.pl := rfl
@[simp] theorem setTenant_sl (k : Nat) (u : Tenant) : (setTenant k u s).sl = s.sl := rfl
@[simp] theorem setTenant_rg (k : Nat) (u : Tenant) : (setTenant k u s).rg = s.rg := rfl
@[simp] theorem setTenant_cl (k : Nat) (u : Tenant) : (setTenant k u s).cl = s.cl := rfl
@[simp] theorem setTenant_cx (k : Nat) (u : Tenant) : (setTenant k u s).cx = s.cx := rfl
@[simp] theorem setTenant_pb (k : Nat) (u : Tenant) : (setTenant k u s).pb = s.pb := rfl
@[simp] theorem setTenant_sp (k : Nat) (u : Tenant) : (setTenant k u s).sp = s.sp := rfl
@[simp] theorem setTenant_ev (k : Nat) (u : Tenant) : (setTenant k u s).ev = s.ev := rfl
@[simp] theorem setTenant_pt (k : Nat) (u : Tenant) : (setTenant k u s).pt = s.pt := rfl
@[simp] theorem setTenant_ttc (k : Nat) (u : Tenant) : (setTenant k u s).ttc = s.ttc := rfl
@[simp] theorem setTenant_mspi (k : Nat) (u : Tenant) : (setTenant k u s).mspi = s.mspi := rfl
@[simp] theorem setTenant_jtag (k : Nat) (u : Tenant) : (setTenant k u s).jtag = s.jtag := rfl
@[simp] theorem setTenant_jr (k : Nat) (u : Tenant) : (setTenant k u s).jr = s.jr := rfl
@[simp] theorem setTenant_byre (k : Nat) (u : Tenant) : (setTenant k u s).byre = s.byre := rfl
@[simp] theorem setTenant_st (k : Nat) (u : Tenant) : (setTenant k u s).st = s.st := rfl
@[simp] theorem setTenant_ad (k : Nat) (u : Tenant) : (setTenant k u s).ad = s.ad := rfl
@[simp] theorem setTenant_fl (k : Nat) (u : Tenant) : (setTenant k u s).fl = s.fl := rfl
@[simp] theorem setTenant_acc (k : Nat) (u : Tenant) : (setTenant k u s).acc = s.acc := rfl
@[simp] theorem setTenant_pending (k : Nat) (u : Tenant) : (setTenant k u s).pending = s.pending := rfl
@[simp] theorem reg_setTenant (k : Nat) (u : Tenant) (q : Reg) : reg (setTenant k u s) q = reg s q := rfl
@[simp] theorem pulse_setTenant (k : Nat) (u : Tenant) (j : Nat) : pulse (setTenant k u s) j = pulse s j := rfl
@[simp] theorem stamp_setTenant (k : Nat) (u : Tenant) (j : Nat) : stamp (setTenant k u s) j = stamp s j := rfl
@[simp] theorem meas_setTenant (k : Nat) (u : Tenant) (j : Nat) : meas (setTenant k u s) j = meas s j := rfl
@[simp] theorem cluster_setTenant (k : Nat) (u : Tenant) (j : Nat) : cluster (setTenant k u s) j = cluster s j := rfl
@[simp] theorem ctx_setTenant (k : Nat) (u : Tenant) (j : Nat) : ctx (setTenant k u s) j = ctx s j := rfl
@[simp] theorem playback_setTenant (k : Nat) (u : Tenant) (j : Nat) : playback (setTenant k u s) j = playback s j := rfl
@[simp] theorem port_setTenant (k : Nat) (u : Tenant) (j : Nat) : port (setTenant k u s) j = port s j := rfl
@[simp] theorem stream_setTenant (k : Nat) (u : Tenant) (j : Nat) : stream (setTenant k u s) j = stream s j := rfl

/-! ### modTenant -/

@[simp] theorem modTenant_now (k : Nat) (f : Tenant → Tenant) : (modTenant k f s).now = s.now := rfl
@[simp] theorem modTenant_released (k : Nat) (f : Tenant → Tenant) : (modTenant k f s).released = s.released := rfl
@[simp] theorem modTenant_free (k : Nat) (f : Tenant → Tenant) : (modTenant k f s).free = s.free := rfl
@[simp] theorem modTenant_regs (k : Nat) (f : Tenant → Tenant) : (modTenant k f s).regs = s.regs := rfl
@[simp] theorem modTenant_otp (k : Nat) (f : Tenant → Tenant) : (modTenant k f s).otp = s.otp := rfl
@[simp] theorem modTenant_shadow (k : Nat) (f : Tenant → Tenant) : (modTenant k f s).shadow = s.shadow := rfl
@[simp] theorem modTenant_busData (k : Nat) (f : Tenant → Tenant) : (modTenant k f s).busData = s.busData := rfl
@[simp] theorem modTenant_busStatus (k : Nat) (f : Tenant → Tenant) : (modTenant k f s).busStatus = s.busStatus := rfl
@[simp] theorem modTenant_tb (k : Nat) (f : Tenant → Tenant) : (modTenant k f s).tb = s.tb := rfl
@[simp] theorem modTenant_syn (k : Nat) (f : Tenant → Tenant) : (modTenant k f s).syn = s.syn := rfl
@[simp] theorem modTenant_fr (k : Nat) (f : Tenant → Tenant) : (modTenant k f s).fr = s.fr := rfl
@[simp] theorem modTenant_pl (k : Nat) (f : Tenant → Tenant) : (modTenant k f s).pl = s.pl := rfl
@[simp] theorem modTenant_sl (k : Nat) (f : Tenant → Tenant) : (modTenant k f s).sl = s.sl := rfl
@[simp] theorem modTenant_rg (k : Nat) (f : Tenant → Tenant) : (modTenant k f s).rg = s.rg := rfl
@[simp] theorem modTenant_cl (k : Nat) (f : Tenant → Tenant) : (modTenant k f s).cl = s.cl := rfl
@[simp] theorem modTenant_cx (k : Nat) (f : Tenant → Tenant) : (modTenant k f s).cx = s.cx := rfl
@[simp] theorem modTenant_pb (k : Nat) (f : Tenant → Tenant) : (modTenant k f s).pb = s.pb := rfl
@[simp] theorem modTenant_sp (k : Nat) (f : Tenant → Tenant) : (modTenant k f s).sp = s.sp := rfl
@[simp] theorem modTenant_ev (k : Nat) (f : Tenant → Tenant) : (modTenant k f s).ev = s.ev := rfl
@[simp] theorem modTenant_pt (k : Nat) (f : Tenant → Tenant) : (modTenant k f s).pt = s.pt := rfl
@[simp] theorem modTenant_ttc (k : Nat) (f : Tenant → Tenant) : (modTenant k f s).ttc = s.ttc := rfl
@[simp] theorem modTenant_mspi (k : Nat) (f : Tenant → Tenant) : (modTenant k f s).mspi = s.mspi := rfl
@[simp] theorem modTenant_jtag (k : Nat) (f : Tenant → Tenant) : (modTenant k f s).jtag = s.jtag := rfl
@[simp] theorem modTenant_jr (k : Nat) (f : Tenant → Tenant) : (modTenant k f s).jr = s.jr := rfl
@[simp] theorem modTenant_byre (k : Nat) (f : Tenant → Tenant) : (modTenant k f s).byre = s.byre := rfl
@[simp] theorem modTenant_st (k : Nat) (f : Tenant → Tenant) : (modTenant k f s).st = s.st := rfl
@[simp] theorem modTenant_ad (k : Nat) (f : Tenant → Tenant) : (modTenant k f s).ad = s.ad := rfl
@[simp] theorem modTenant_fl (k : Nat) (f : Tenant → Tenant) : (modTenant k f s).fl = s.fl := rfl
@[simp] theorem modTenant_acc (k : Nat) (f : Tenant → Tenant) : (modTenant k f s).acc = s.acc := rfl
@[simp] theorem modTenant_pending (k : Nat) (f : Tenant → Tenant) : (modTenant k f s).pending = s.pending := rfl
@[simp] theorem reg_modTenant (k : Nat) (f : Tenant → Tenant) (q : Reg) : reg (modTenant k f s) q = reg s q := rfl
@[simp] theorem pulse_modTenant (k : Nat) (f : Tenant → Tenant) (j : Nat) : pulse (modTenant k f s) j = pulse s j := rfl
@[simp] theorem stamp_modTenant (k : Nat) (f : Tenant → Tenant) (j : Nat) : stamp (modTenant k f s) j = stamp s j := rfl
@[simp] theorem meas_modTenant (k : Nat) (f : Tenant → Tenant) (j : Nat) : meas (modTenant k f s) j = meas s j := rfl
@[simp] theorem cluster_modTenant (k : Nat) (f : Tenant → Tenant) (j : Nat) : cluster (modTenant k f s) j = cluster s j := rfl
@[simp] theorem ctx_modTenant (k : Nat) (f : Tenant → Tenant) (j : Nat) : ctx (modTenant k f s) j = ctx s j := rfl
@[simp] theorem playback_modTenant (k : Nat) (f : Tenant → Tenant) (j : Nat) : playback (modTenant k f s) j = playback s j := rfl
@[simp] theorem port_modTenant (k : Nat) (f : Tenant → Tenant) (j : Nat) : port (modTenant k f s) j = port s j := rfl
@[simp] theorem stream_modTenant (k : Nat) (f : Tenant → Tenant) (j : Nat) : stream (modTenant k f s) j = stream s j := rfl

/-! ### setPort -/

@[simp] theorem setPort_now (k : Nat) (u : Port) : (setPort k u s).now = s.now := rfl
@[simp] theorem setPort_released (k : Nat) (u : Port) : (setPort k u s).released = s.released := rfl
@[simp] theorem setPort_free (k : Nat) (u : Port) : (setPort k u s).free = s.free := rfl
@[simp] theorem setPort_regs (k : Nat) (u : Port) : (setPort k u s).regs = s.regs := rfl
@[simp] theorem setPort_otp (k : Nat) (u : Port) : (setPort k u s).otp = s.otp := rfl
@[simp] theorem setPort_shadow (k : Nat) (u : Port) : (setPort k u s).shadow = s.shadow := rfl
@[simp] theorem setPort_busData (k : Nat) (u : Port) : (setPort k u s).busData = s.busData := rfl
@[simp] theorem setPort_busStatus (k : Nat) (u : Port) : (setPort k u s).busStatus = s.busStatus := rfl
@[simp] theorem setPort_tb (k : Nat) (u : Port) : (setPort k u s).tb = s.tb := rfl
@[simp] theorem setPort_syn (k : Nat) (u : Port) : (setPort k u s).syn = s.syn := rfl
@[simp] theorem setPort_fr (k : Nat) (u : Port) : (setPort k u s).fr = s.fr := rfl
@[simp] theorem setPort_pl (k : Nat) (u : Port) : (setPort k u s).pl = s.pl := rfl
@[simp] theorem setPort_sl (k : Nat) (u : Port) : (setPort k u s).sl = s.sl := rfl
@[simp] theorem setPort_rg (k : Nat) (u : Port) : (setPort k u s).rg = s.rg := rfl
@[simp] theorem setPort_cl (k : Nat) (u : Port) : (setPort k u s).cl = s.cl := rfl
@[simp] theorem setPort_cx (k : Nat) (u : Port) : (setPort k u s).cx = s.cx := rfl
@[simp] theorem setPort_pb (k : Nat) (u : Port) : (setPort k u s).pb = s.pb := rfl
@[simp] theorem setPort_sp (k : Nat) (u : Port) : (setPort k u s).sp = s.sp := rfl
@[simp] theorem setPort_ev (k : Nat) (u : Port) : (setPort k u s).ev = s.ev := rfl
@[simp] theorem setPort_tn (k : Nat) (u : Port) : (setPort k u s).tn = s.tn := rfl
@[simp] theorem setPort_ttc (k : Nat) (u : Port) : (setPort k u s).ttc = s.ttc := rfl
@[simp] theorem setPort_mspi (k : Nat) (u : Port) : (setPort k u s).mspi = s.mspi := rfl
@[simp] theorem setPort_jtag (k : Nat) (u : Port) : (setPort k u s).jtag = s.jtag := rfl
@[simp] theorem setPort_jr (k : Nat) (u : Port) : (setPort k u s).jr = s.jr := rfl
@[simp] theorem setPort_byre (k : Nat) (u : Port) : (setPort k u s).byre = s.byre := rfl
@[simp] theorem setPort_st (k : Nat) (u : Port) : (setPort k u s).st = s.st := rfl
@[simp] theorem setPort_ad (k : Nat) (u : Port) : (setPort k u s).ad = s.ad := rfl
@[simp] theorem setPort_fl (k : Nat) (u : Port) : (setPort k u s).fl = s.fl := rfl
@[simp] theorem setPort_acc (k : Nat) (u : Port) : (setPort k u s).acc = s.acc := rfl
@[simp] theorem setPort_pending (k : Nat) (u : Port) : (setPort k u s).pending = s.pending := rfl
@[simp] theorem reg_setPort (k : Nat) (u : Port) (q : Reg) : reg (setPort k u s) q = reg s q := rfl
@[simp] theorem pulse_setPort (k : Nat) (u : Port) (j : Nat) : pulse (setPort k u s) j = pulse s j := rfl
@[simp] theorem stamp_setPort (k : Nat) (u : Port) (j : Nat) : stamp (setPort k u s) j = stamp s j := rfl
@[simp] theorem meas_setPort (k : Nat) (u : Port) (j : Nat) : meas (setPort k u s) j = meas s j := rfl
@[simp] theorem cluster_setPort (k : Nat) (u : Port) (j : Nat) : cluster (setPort k u s) j = cluster s j := rfl
@[simp] theorem ctx_setPort (k : Nat) (u : Port) (j : Nat) : ctx (setPort k u s) j = ctx s j := rfl
@[simp] theorem playback_setPort (k : Nat) (u : Port) (j : Nat) : playback (setPort k u s) j = playback s j := rfl
@[simp] theorem tenant_setPort (k : Nat) (u : Port) (j : Nat) : tenant (setPort k u s) j = tenant s j := rfl
@[simp] theorem stream_setPort (k : Nat) (u : Port) (j : Nat) : stream (setPort k u s) j = stream s j := rfl

/-! ### modPort -/

@[simp] theorem modPort_now (k : Nat) (f : Port → Port) : (modPort k f s).now = s.now := rfl
@[simp] theorem modPort_released (k : Nat) (f : Port → Port) : (modPort k f s).released = s.released := rfl
@[simp] theorem modPort_free (k : Nat) (f : Port → Port) : (modPort k f s).free = s.free := rfl
@[simp] theorem modPort_regs (k : Nat) (f : Port → Port) : (modPort k f s).regs = s.regs := rfl
@[simp] theorem modPort_otp (k : Nat) (f : Port → Port) : (modPort k f s).otp = s.otp := rfl
@[simp] theorem modPort_shadow (k : Nat) (f : Port → Port) : (modPort k f s).shadow = s.shadow := rfl
@[simp] theorem modPort_busData (k : Nat) (f : Port → Port) : (modPort k f s).busData = s.busData := rfl
@[simp] theorem modPort_busStatus (k : Nat) (f : Port → Port) : (modPort k f s).busStatus = s.busStatus := rfl
@[simp] theorem modPort_tb (k : Nat) (f : Port → Port) : (modPort k f s).tb = s.tb := rfl
@[simp] theorem modPort_syn (k : Nat) (f : Port → Port) : (modPort k f s).syn = s.syn := rfl
@[simp] theorem modPort_fr (k : Nat) (f : Port → Port) : (modPort k f s).fr = s.fr := rfl
@[simp] theorem modPort_pl (k : Nat) (f : Port → Port) : (modPort k f s).pl = s.pl := rfl
@[simp] theorem modPort_sl (k : Nat) (f : Port → Port) : (modPort k f s).sl = s.sl := rfl
@[simp] theorem modPort_rg (k : Nat) (f : Port → Port) : (modPort k f s).rg = s.rg := rfl
@[simp] theorem modPort_cl (k : Nat) (f : Port → Port) : (modPort k f s).cl = s.cl := rfl
@[simp] theorem modPort_cx (k : Nat) (f : Port → Port) : (modPort k f s).cx = s.cx := rfl
@[simp] theorem modPort_pb (k : Nat) (f : Port → Port) : (modPort k f s).pb = s.pb := rfl
@[simp] theorem modPort_sp (k : Nat) (f : Port → Port) : (modPort k f s).sp = s.sp := rfl
@[simp] theorem modPort_ev (k : Nat) (f : Port → Port) : (modPort k f s).ev = s.ev := rfl
@[simp] theorem modPort_tn (k : Nat) (f : Port → Port) : (modPort k f s).tn = s.tn := rfl
@[simp] theorem modPort_ttc (k : Nat) (f : Port → Port) : (modPort k f s).ttc = s.ttc := rfl
@[simp] theorem modPort_mspi (k : Nat) (f : Port → Port) : (modPort k f s).mspi = s.mspi := rfl
@[simp] theorem modPort_jtag (k : Nat) (f : Port → Port) : (modPort k f s).jtag = s.jtag := rfl
@[simp] theorem modPort_jr (k : Nat) (f : Port → Port) : (modPort k f s).jr = s.jr := rfl
@[simp] theorem modPort_byre (k : Nat) (f : Port → Port) : (modPort k f s).byre = s.byre := rfl
@[simp] theorem modPort_st (k : Nat) (f : Port → Port) : (modPort k f s).st = s.st := rfl
@[simp] theorem modPort_ad (k : Nat) (f : Port → Port) : (modPort k f s).ad = s.ad := rfl
@[simp] theorem modPort_fl (k : Nat) (f : Port → Port) : (modPort k f s).fl = s.fl := rfl
@[simp] theorem modPort_acc (k : Nat) (f : Port → Port) : (modPort k f s).acc = s.acc := rfl
@[simp] theorem modPort_pending (k : Nat) (f : Port → Port) : (modPort k f s).pending = s.pending := rfl
@[simp] theorem reg_modPort (k : Nat) (f : Port → Port) (q : Reg) : reg (modPort k f s) q = reg s q := rfl
@[simp] theorem pulse_modPort (k : Nat) (f : Port → Port) (j : Nat) : pulse (modPort k f s) j = pulse s j := rfl
@[simp] theorem stamp_modPort (k : Nat) (f : Port → Port) (j : Nat) : stamp (modPort k f s) j = stamp s j := rfl
@[simp] theorem meas_modPort (k : Nat) (f : Port → Port) (j : Nat) : meas (modPort k f s) j = meas s j := rfl
@[simp] theorem cluster_modPort (k : Nat) (f : Port → Port) (j : Nat) : cluster (modPort k f s) j = cluster s j := rfl
@[simp] theorem ctx_modPort (k : Nat) (f : Port → Port) (j : Nat) : ctx (modPort k f s) j = ctx s j := rfl
@[simp] theorem playback_modPort (k : Nat) (f : Port → Port) (j : Nat) : playback (modPort k f s) j = playback s j := rfl
@[simp] theorem tenant_modPort (k : Nat) (f : Port → Port) (j : Nat) : tenant (modPort k f s) j = tenant s j := rfl
@[simp] theorem stream_modPort (k : Nat) (f : Port → Port) (j : Nat) : stream (modPort k f s) j = stream s j := rfl

/-! ### modTb -/

@[simp] theorem modTb_now (f : Timebase → Timebase) : (modTb f s).now = s.now := rfl
@[simp] theorem modTb_released (f : Timebase → Timebase) : (modTb f s).released = s.released := rfl
@[simp] theorem modTb_free (f : Timebase → Timebase) : (modTb f s).free = s.free := rfl
@[simp] theorem modTb_regs (f : Timebase → Timebase) : (modTb f s).regs = s.regs := rfl
@[simp] theorem modTb_otp (f : Timebase → Timebase) : (modTb f s).otp = s.otp := rfl
@[simp] theorem modTb_shadow (f : Timebase → Timebase) : (modTb f s).shadow = s.shadow := rfl
@[simp] theorem modTb_busData (f : Timebase → Timebase) : (modTb f s).busData = s.busData := rfl
@[simp] theorem modTb_busStatus (f : Timebase → Timebase) : (modTb f s).busStatus = s.busStatus := rfl
@[simp] theorem modTb_syn (f : Timebase → Timebase) : (modTb f s).syn = s.syn := rfl
@[simp] theorem modTb_fr (f : Timebase → Timebase) : (modTb f s).fr = s.fr := rfl
@[simp] theorem modTb_pl (f : Timebase → Timebase) : (modTb f s).pl = s.pl := rfl
@[simp] theorem modTb_sl (f : Timebase → Timebase) : (modTb f s).sl = s.sl := rfl
@[simp] theorem modTb_rg (f : Timebase → Timebase) : (modTb f s).rg = s.rg := rfl
@[simp] theorem modTb_cl (f : Timebase → Timebase) : (modTb f s).cl = s.cl := rfl
@[simp] theorem modTb_cx (f : Timebase → Timebase) : (modTb f s).cx = s.cx := rfl
@[simp] theorem modTb_pb (f : Timebase → Timebase) : (modTb f s).pb = s.pb := rfl
@[simp] theorem modTb_sp (f : Timebase → Timebase) : (modTb f s).sp = s.sp := rfl
@[simp] theorem modTb_ev (f : Timebase → Timebase) : (modTb f s).ev = s.ev := rfl
@[simp] theorem modTb_tn (f : Timebase → Timebase) : (modTb f s).tn = s.tn := rfl
@[simp] theorem modTb_pt (f : Timebase → Timebase) : (modTb f s).pt = s.pt := rfl
@[simp] theorem modTb_ttc (f : Timebase → Timebase) : (modTb f s).ttc = s.ttc := rfl
@[simp] theorem modTb_mspi (f : Timebase → Timebase) : (modTb f s).mspi = s.mspi := rfl
@[simp] theorem modTb_jtag (f : Timebase → Timebase) : (modTb f s).jtag = s.jtag := rfl
@[simp] theorem modTb_jr (f : Timebase → Timebase) : (modTb f s).jr = s.jr := rfl
@[simp] theorem modTb_byre (f : Timebase → Timebase) : (modTb f s).byre = s.byre := rfl
@[simp] theorem modTb_st (f : Timebase → Timebase) : (modTb f s).st = s.st := rfl
@[simp] theorem modTb_ad (f : Timebase → Timebase) : (modTb f s).ad = s.ad := rfl
@[simp] theorem modTb_fl (f : Timebase → Timebase) : (modTb f s).fl = s.fl := rfl
@[simp] theorem modTb_acc (f : Timebase → Timebase) : (modTb f s).acc = s.acc := rfl
@[simp] theorem modTb_pending (f : Timebase → Timebase) : (modTb f s).pending = s.pending := rfl
@[simp] theorem reg_modTb (f : Timebase → Timebase) (q : Reg) : reg (modTb f s) q = reg s q := rfl
@[simp] theorem pulse_modTb (f : Timebase → Timebase) (j : Nat) : pulse (modTb f s) j = pulse s j := rfl
@[simp] theorem stamp_modTb (f : Timebase → Timebase) (j : Nat) : stamp (modTb f s) j = stamp s j := rfl
@[simp] theorem meas_modTb (f : Timebase → Timebase) (j : Nat) : meas (modTb f s) j = meas s j := rfl
@[simp] theorem cluster_modTb (f : Timebase → Timebase) (j : Nat) : cluster (modTb f s) j = cluster s j := rfl
@[simp] theorem ctx_modTb (f : Timebase → Timebase) (j : Nat) : ctx (modTb f s) j = ctx s j := rfl
@[simp] theorem playback_modTb (f : Timebase → Timebase) (j : Nat) : playback (modTb f s) j = playback s j := rfl
@[simp] theorem port_modTb (f : Timebase → Timebase) (j : Nat) : port (modTb f s) j = port s j := rfl
@[simp] theorem tenant_modTb (f : Timebase → Timebase) (j : Nat) : tenant (modTb f s) j = tenant s j := rfl
@[simp] theorem stream_modTb (f : Timebase → Timebase) (j : Nat) : stream (modTb f s) j = stream s j := rfl

/-! ### sysRecord -/

@[simp] theorem sysRecord_now (n : Nat) (p : List W64) : (sysRecord n p s).now = s.now := rfl
@[simp] theorem sysRecord_released (n : Nat) (p : List W64) : (sysRecord n p s).released = s.released := rfl
@[simp] theorem sysRecord_free (n : Nat) (p : List W64) : (sysRecord n p s).free = s.free := rfl
@[simp] theorem sysRecord_regs (n : Nat) (p : List W64) : (sysRecord n p s).regs = s.regs := rfl
@[simp] theorem sysRecord_otp (n : Nat) (p : List W64) : (sysRecord n p s).otp = s.otp := rfl
@[simp] theorem sysRecord_shadow (n : Nat) (p : List W64) : (sysRecord n p s).shadow = s.shadow := rfl
@[simp] theorem sysRecord_busData (n : Nat) (p : List W64) : (sysRecord n p s).busData = s.busData := rfl
@[simp] theorem sysRecord_busStatus (n : Nat) (p : List W64) : (sysRecord n p s).busStatus = s.busStatus := rfl
@[simp] theorem sysRecord_tb (n : Nat) (p : List W64) : (sysRecord n p s).tb = s.tb := rfl
@[simp] theorem sysRecord_syn (n : Nat) (p : List W64) : (sysRecord n p s).syn = s.syn := rfl
@[simp] theorem sysRecord_fr (n : Nat) (p : List W64) : (sysRecord n p s).fr = s.fr := rfl
@[simp] theorem sysRecord_pl (n : Nat) (p : List W64) : (sysRecord n p s).pl = s.pl := rfl
@[simp] theorem sysRecord_sl (n : Nat) (p : List W64) : (sysRecord n p s).sl = s.sl := rfl
@[simp] theorem sysRecord_rg (n : Nat) (p : List W64) : (sysRecord n p s).rg = s.rg := rfl
@[simp] theorem sysRecord_cl (n : Nat) (p : List W64) : (sysRecord n p s).cl = s.cl := rfl
@[simp] theorem sysRecord_cx (n : Nat) (p : List W64) : (sysRecord n p s).cx = s.cx := rfl
@[simp] theorem sysRecord_pb (n : Nat) (p : List W64) : (sysRecord n p s).pb = s.pb := rfl
@[simp] theorem sysRecord_sp (n : Nat) (p : List W64) : (sysRecord n p s).sp = s.sp := rfl
@[simp] theorem sysRecord_ev (n : Nat) (p : List W64) : (sysRecord n p s).ev = s.ev := rfl
@[simp] theorem sysRecord_tn (n : Nat) (p : List W64) : (sysRecord n p s).tn = s.tn := rfl
@[simp] theorem sysRecord_pt (n : Nat) (p : List W64) : (sysRecord n p s).pt = s.pt := rfl
@[simp] theorem sysRecord_ttc (n : Nat) (p : List W64) : (sysRecord n p s).ttc = s.ttc := rfl
@[simp] theorem sysRecord_mspi (n : Nat) (p : List W64) : (sysRecord n p s).mspi = s.mspi := rfl
@[simp] theorem sysRecord_jtag (n : Nat) (p : List W64) : (sysRecord n p s).jtag = s.jtag := rfl
@[simp] theorem sysRecord_byre (n : Nat) (p : List W64) : (sysRecord n p s).byre = s.byre := rfl
@[simp] theorem sysRecord_st (n : Nat) (p : List W64) : (sysRecord n p s).st = s.st := rfl
@[simp] theorem sysRecord_ad (n : Nat) (p : List W64) : (sysRecord n p s).ad = s.ad := rfl
@[simp] theorem sysRecord_fl (n : Nat) (p : List W64) : (sysRecord n p s).fl = s.fl := rfl
@[simp] theorem sysRecord_acc (n : Nat) (p : List W64) : (sysRecord n p s).acc = s.acc := rfl
@[simp] theorem sysRecord_pending (n : Nat) (p : List W64) : (sysRecord n p s).pending = s.pending := rfl
@[simp] theorem reg_sysRecord (n : Nat) (p : List W64) (q : Reg) : reg (sysRecord n p s) q = reg s q := rfl
@[simp] theorem pulse_sysRecord (n : Nat) (p : List W64) (j : Nat) : pulse (sysRecord n p s) j = pulse s j := rfl
@[simp] theorem stamp_sysRecord (n : Nat) (p : List W64) (j : Nat) : stamp (sysRecord n p s) j = stamp s j := rfl
@[simp] theorem meas_sysRecord (n : Nat) (p : List W64) (j : Nat) : meas (sysRecord n p s) j = meas s j := rfl
@[simp] theorem cluster_sysRecord (n : Nat) (p : List W64) (j : Nat) : cluster (sysRecord n p s) j = cluster s j := rfl
@[simp] theorem ctx_sysRecord (n : Nat) (p : List W64) (j : Nat) : ctx (sysRecord n p s) j = ctx s j := rfl
@[simp] theorem playback_sysRecord (n : Nat) (p : List W64) (j : Nat) : playback (sysRecord n p s) j = playback s j := rfl
@[simp] theorem port_sysRecord (n : Nat) (p : List W64) (j : Nat) : port (sysRecord n p s) j = port s j := rfl
@[simp] theorem tenant_sysRecord (n : Nat) (p : List W64) (j : Nat) : tenant (sysRecord n p s) j = tenant s j := rfl
@[simp] theorem stream_sysRecord (n : Nat) (p : List W64) (j : Nat) : stream (sysRecord n p s) j = stream s j := rfl

/-! ### safeSet -/

@[simp] theorem safeSet_now (b : Nat) : (safeSet b s).now = s.now := rfl
@[simp] theorem safeSet_released (b : Nat) : (safeSet b s).released = s.released := rfl
@[simp] theorem safeSet_free (b : Nat) : (safeSet b s).free = s.free := rfl
@[simp] theorem safeSet_regs (b : Nat) : (safeSet b s).regs = s.regs := rfl
@[simp] theorem safeSet_otp (b : Nat) : (safeSet b s).otp = s.otp := rfl
@[simp] theorem safeSet_shadow (b : Nat) : (safeSet b s).shadow = s.shadow := rfl
@[simp] theorem safeSet_busData (b : Nat) : (safeSet b s).busData = s.busData := rfl
@[simp] theorem safeSet_busStatus (b : Nat) : (safeSet b s).busStatus = s.busStatus := rfl
@[simp] theorem safeSet_tb (b : Nat) : (safeSet b s).tb = s.tb := rfl
@[simp] theorem safeSet_syn (b : Nat) : (safeSet b s).syn = s.syn := rfl
@[simp] theorem safeSet_fr (b : Nat) : (safeSet b s).fr = s.fr := rfl
@[simp] theorem safeSet_pl (b : Nat) : (safeSet b s).pl = s.pl := rfl
@[simp] theorem safeSet_sl (b : Nat) : (safeSet b s).sl = s.sl := rfl
@[simp] theorem safeSet_rg (b : Nat) : (safeSet b s).rg = s.rg := rfl
@[simp] theorem safeSet_cl (b : Nat) : (safeSet b s).cl = s.cl := rfl
@[simp] theorem safeSet_cx (b : Nat) : (safeSet b s).cx = s.cx := rfl
@[simp] theorem safeSet_pb (b : Nat) : (safeSet b s).pb = s.pb := rfl
@[simp] theorem safeSet_sp (b : Nat) : (safeSet b s).sp = s.sp := rfl
@[simp] theorem safeSet_ev (b : Nat) : (safeSet b s).ev = s.ev := rfl
@[simp] theorem safeSet_tn (b : Nat) : (safeSet b s).tn = s.tn := rfl
@[simp] theorem safeSet_pt (b : Nat) : (safeSet b s).pt = s.pt := rfl
@[simp] theorem safeSet_ttc (b : Nat) : (safeSet b s).ttc = s.ttc := rfl
@[simp] theorem safeSet_mspi (b : Nat) : (safeSet b s).mspi = s.mspi := rfl
@[simp] theorem safeSet_jtag (b : Nat) : (safeSet b s).jtag = s.jtag := rfl
@[simp] theorem safeSet_jr (b : Nat) : (safeSet b s).jr = s.jr := rfl
@[simp] theorem safeSet_st (b : Nat) : (safeSet b s).st = s.st := rfl
@[simp] theorem safeSet_ad (b : Nat) : (safeSet b s).ad = s.ad := rfl
@[simp] theorem safeSet_fl (b : Nat) : (safeSet b s).fl = s.fl := rfl
@[simp] theorem safeSet_acc (b : Nat) : (safeSet b s).acc = s.acc := rfl
@[simp] theorem safeSet_pending (b : Nat) : (safeSet b s).pending = s.pending := rfl
@[simp] theorem reg_safeSet (b : Nat) (q : Reg) : reg (safeSet b s) q = reg s q := rfl
@[simp] theorem pulse_safeSet (b : Nat) (j : Nat) : pulse (safeSet b s) j = pulse s j := rfl
@[simp] theorem stamp_safeSet (b : Nat) (j : Nat) : stamp (safeSet b s) j = stamp s j := rfl
@[simp] theorem meas_safeSet (b : Nat) (j : Nat) : meas (safeSet b s) j = meas s j := rfl
@[simp] theorem cluster_safeSet (b : Nat) (j : Nat) : cluster (safeSet b s) j = cluster s j := rfl
@[simp] theorem ctx_safeSet (b : Nat) (j : Nat) : ctx (safeSet b s) j = ctx s j := rfl
@[simp] theorem playback_safeSet (b : Nat) (j : Nat) : playback (safeSet b s) j = playback s j := rfl
@[simp] theorem port_safeSet (b : Nat) (j : Nat) : port (safeSet b s) j = port s j := rfl
@[simp] theorem tenant_safeSet (b : Nat) (j : Nat) : tenant (safeSet b s) j = tenant s j := rfl
@[simp] theorem stream_safeSet (b : Nat) (j : Nat) : stream (safeSet b s) j = stream s j := rfl

/-! ### emitRec -/

@[simp] theorem emitRec_now (r : SpRec) : (emitRec r s).now = s.now := rfl
@[simp] theorem emitRec_released (r : SpRec) : (emitRec r s).released = s.released := rfl
@[simp] theorem emitRec_free (r : SpRec) : (emitRec r s).free = s.free := rfl
@[simp] theorem emitRec_regs (r : SpRec) : (emitRec r s).regs = s.regs := rfl
@[simp] theorem emitRec_otp (r : SpRec) : (emitRec r s).otp = s.otp := rfl
@[simp] theorem emitRec_shadow (r : SpRec) : (emitRec r s).shadow = s.shadow := rfl
@[simp] theorem emitRec_busData (r : SpRec) : (emitRec r s).busData = s.busData := rfl
@[simp] theorem emitRec_busStatus (r : SpRec) : (emitRec r s).busStatus = s.busStatus := rfl
@[simp] theorem emitRec_tb (r : SpRec) : (emitRec r s).tb = s.tb := rfl
@[simp] theorem emitRec_syn (r : SpRec) : (emitRec r s).syn = s.syn := rfl
@[simp] theorem emitRec_fr (r : SpRec) : (emitRec r s).fr = s.fr := rfl
@[simp] theorem emitRec_pl (r : SpRec) : (emitRec r s).pl = s.pl := rfl
@[simp] theorem emitRec_sl (r : SpRec) : (emitRec r s).sl = s.sl := rfl
@[simp] theorem emitRec_rg (r : SpRec) : (emitRec r s).rg = s.rg := rfl
@[simp] theorem emitRec_cl (r : SpRec) : (emitRec r s).cl = s.cl := rfl
@[simp] theorem emitRec_cx (r : SpRec) : (emitRec r s).cx = s.cx := rfl
@[simp] theorem emitRec_pb (r : SpRec) : (emitRec r s).pb = s.pb := rfl
@[simp] theorem emitRec_ev (r : SpRec) : (emitRec r s).ev = s.ev := rfl
@[simp] theorem emitRec_tn (r : SpRec) : (emitRec r s).tn = s.tn := rfl
@[simp] theorem emitRec_pt (r : SpRec) : (emitRec r s).pt = s.pt := rfl
@[simp] theorem emitRec_ttc (r : SpRec) : (emitRec r s).ttc = s.ttc := rfl
@[simp] theorem emitRec_mspi (r : SpRec) : (emitRec r s).mspi = s.mspi := rfl
@[simp] theorem emitRec_jtag (r : SpRec) : (emitRec r s).jtag = s.jtag := rfl
@[simp] theorem emitRec_jr (r : SpRec) : (emitRec r s).jr = s.jr := rfl
@[simp] theorem emitRec_byre (r : SpRec) : (emitRec r s).byre = s.byre := rfl
@[simp] theorem emitRec_st (r : SpRec) : (emitRec r s).st = s.st := rfl
@[simp] theorem emitRec_ad (r : SpRec) : (emitRec r s).ad = s.ad := rfl
@[simp] theorem emitRec_fl (r : SpRec) : (emitRec r s).fl = s.fl := rfl
@[simp] theorem emitRec_acc (r : SpRec) : (emitRec r s).acc = s.acc := rfl
@[simp] theorem emitRec_pending (r : SpRec) : (emitRec r s).pending = s.pending := rfl
@[simp] theorem reg_emitRec (r : SpRec) (q : Reg) : reg (emitRec r s) q = reg s q := rfl
@[simp] theorem pulse_emitRec (r : SpRec) (j : Nat) : pulse (emitRec r s) j = pulse s j := rfl
@[simp] theorem stamp_emitRec (r : SpRec) (j : Nat) : stamp (emitRec r s) j = stamp s j := rfl
@[simp] theorem meas_emitRec (r : SpRec) (j : Nat) : meas (emitRec r s) j = meas s j := rfl
@[simp] theorem cluster_emitRec (r : SpRec) (j : Nat) : cluster (emitRec r s) j = cluster s j := rfl
@[simp] theorem ctx_emitRec (r : SpRec) (j : Nat) : ctx (emitRec r s) j = ctx s j := rfl
@[simp] theorem playback_emitRec (r : SpRec) (j : Nat) : playback (emitRec r s) j = playback s j := rfl
@[simp] theorem port_emitRec (r : SpRec) (j : Nat) : port (emitRec r s) j = port s j := rfl
@[simp] theorem tenant_emitRec (r : SpRec) (j : Nat) : tenant (emitRec r s) j = tenant s j := rfl

/-! ### What is written -/

@[simp] theorem reg_setReg (r : Reg) (v : W32) : reg (setReg r v s) r = v := tget_tset _ _ _ _

theorem reg_setReg_ne {r q : Reg} (v : W32) (h : regAddr q ≠ regAddr r) : reg (setReg r v s) q = reg s q :=
  tget_tset_ne _ _ _ _ h

@[simp] theorem reg_raise (r : Reg) (b : Nat) : reg (raise r b s) r = reg s r ||| at32 1 b := tget_tset _ _ _ _

theorem reg_raise_ne {r q : Reg} (b : Nat) (h : regAddr q ≠ regAddr r) : reg (raise r b s) q = reg s q :=
  tget_tset_ne _ _ _ _ h

@[simp] theorem passTo_now (n : Nat) : (passTo n s).now = max s.now n := rfl

@[simp] theorem toLc_now (n : Nat) : (toLc n s).now = max s.now (2 * n) := rfl

@[simp] theorem modTb_tb (f : Timebase → Timebase) : (modTb f s).tb = f s.tb := rfl

@[simp] theorem pulse_setPulse (k : Nat) (u : PulseLane) : pulse (setPulse k u s) k = u := tget_tset _ _ _ _

theorem pulse_setPulse_ne {k j : Nat} (u : PulseLane) (h : j ≠ k) : pulse (setPulse k u s) j = pulse s j := tget_tset_ne _ _ _ _ h

@[simp] theorem pulse_modPulse (k : Nat) (f : PulseLane → PulseLane) : pulse (modPulse k f s) k = f (pulse s k) := tget_tset _ _ _ _

theorem pulse_modPulse_ne {k j : Nat} (f : PulseLane → PulseLane) (h : j ≠ k) : pulse (modPulse k f s) j = pulse s j := tget_tset_ne _ _ _ _ h

@[simp] theorem stamp_setStamp (k : Nat) (u : StampLane) : stamp (setStamp k u s) k = u := tget_tset _ _ _ _

theorem stamp_setStamp_ne {k j : Nat} (u : StampLane) (h : j ≠ k) : stamp (setStamp k u s) j = stamp s j := tget_tset_ne _ _ _ _ h

@[simp] theorem stamp_modStamp (k : Nat) (f : StampLane → StampLane) : stamp (modStamp k f s) k = f (stamp s k) := tget_tset _ _ _ _

theorem stamp_modStamp_ne {k j : Nat} (f : StampLane → StampLane) (h : j ≠ k) : stamp (modStamp k f s) j = stamp s j := tget_tset_ne _ _ _ _ h

@[simp] theorem meas_setMeas (k : Nat) (u : Measure) : meas (setMeas k u s) k = u := tget_tset _ _ _ _

theorem meas_setMeas_ne {k j : Nat} (u : Measure) (h : j ≠ k) : meas (setMeas k u s) j = meas s j := tget_tset_ne _ _ _ _ h

@[simp] theorem meas_modMeas (k : Nat) (f : Measure → Measure) : meas (modMeas k f s) k = f (meas s k) := tget_tset _ _ _ _

theorem meas_modMeas_ne {k j : Nat} (f : Measure → Measure) (h : j ≠ k) : meas (modMeas k f s) j = meas s j := tget_tset_ne _ _ _ _ h

@[simp] theorem cluster_setCluster (k : Nat) (u : Cluster) : cluster (setCluster k u s) k = u := tget_tset _ _ _ _

theorem cluster_setCluster_ne {k j : Nat} (u : Cluster) (h : j ≠ k) : cluster (setCluster k u s) j = cluster s j := tget_tset_ne _ _ _ _ h

@[simp] theorem cluster_modCluster (k : Nat) (f : Cluster → Cluster) : cluster (modCluster k f s) k = f (cluster s k) := tget_tset _ _ _ _

theorem cluster_modCluster_ne {k j : Nat} (f : Cluster → Cluster) (h : j ≠ k) : cluster (modCluster k f s) j = cluster s j := tget_tset_ne _ _ _ _ h

@[simp] theorem ctx_setCtx (k : Nat) (u : Ctx) : ctx (setCtx k u s) k = u := tget_tset _ _ _ _

theorem ctx_setCtx_ne {k j : Nat} (u : Ctx) (h : j ≠ k) : ctx (setCtx k u s) j = ctx s j := tget_tset_ne _ _ _ _ h

@[simp] theorem ctx_modCtx (k : Nat) (f : Ctx → Ctx) : ctx (modCtx k f s) k = f (ctx s k) := tget_tset _ _ _ _

theorem ctx_modCtx_ne {k j : Nat} (f : Ctx → Ctx) (h : j ≠ k) : ctx (modCtx k f s) j = ctx s j := tget_tset_ne _ _ _ _ h

@[simp] theorem playback_setPlayback (k : Nat) (u : Playback) : playback (setPlayback k u s) k = u := tget_tset _ _ _ _

theorem playback_setPlayback_ne {k j : Nat} (u : Playback) (h : j ≠ k) : playback (setPlayback k u s) j = playback s j := tget_tset_ne _ _ _ _ h

@[simp] theorem playback_modPlayback (k : Nat) (f : Playback → Playback) : playback (modPlayback k f s) k = f (playback s k) := tget_tset _ _ _ _

theorem playback_modPlayback_ne {k j : Nat} (f : Playback → Playback) (h : j ≠ k) : playback (modPlayback k f s) j = playback s j := tget_tset_ne _ _ _ _ h

@[simp] theorem stream_setStream (k : Nat) (u : Stream) : stream (setStream k u s) k = u := tget_tset _ _ _ _

theorem stream_setStream_ne {k j : Nat} (u : Stream) (h : j ≠ k) : stream (setStream k u s) j = stream s j := tget_tset_ne _ _ _ _ h

@[simp] theorem stream_modStream (k : Nat) (f : Stream → Stream) : stream (modStream k f s) k = f (stream s k) := tget_tset _ _ _ _

theorem stream_modStream_ne {k j : Nat} (f : Stream → Stream) (h : j ≠ k) : stream (modStream k f s) j = stream s j := tget_tset_ne _ _ _ _ h

@[simp] theorem tenant_setTenant (k : Nat) (u : Tenant) : tenant (setTenant k u s) k = u := tget_tset _ _ _ _

theorem tenant_setTenant_ne {k j : Nat} (u : Tenant) (h : j ≠ k) : tenant (setTenant k u s) j = tenant s j := tget_tset_ne _ _ _ _ h

@[simp] theorem tenant_modTenant (k : Nat) (f : Tenant → Tenant) : tenant (modTenant k f s) k = f (tenant s k) := tget_tset _ _ _ _

theorem tenant_modTenant_ne {k j : Nat} (f : Tenant → Tenant) (h : j ≠ k) : tenant (modTenant k f s) j = tenant s j := tget_tset_ne _ _ _ _ h

@[simp] theorem port_setPort (k : Nat) (u : Port) : port (setPort k u s) k = u := tget_tset _ _ _ _

theorem port_setPort_ne {k j : Nat} (u : Port) (h : j ≠ k) : port (setPort k u s) j = port s j := tget_tset_ne _ _ _ _ h

@[simp] theorem port_modPort (k : Nat) (f : Port → Port) : port (modPort k f s) k = f (port s k) := tget_tset _ _ _ _

theorem port_modPort_ne {k j : Nat} (f : Port → Port) (h : j ≠ k) : port (modPort k f s) j = port s j := tget_tset_ne _ _ _ _ h

end Sys2Proof.Laws
end

