-- ==== Sys2Proof/Laws/Ops.lean ====
section
/-! SUPPORT. What each shared operation can do, said once: answers and conditions, folds, registers, counters, the fault log,
records, and the issue of an instruction. -/
namespace Sys2Proof.Laws

open Sys2Proof.Machine Sys2Proof.Safety

/-! ### Answers -/

theorem onUnit_next {ok : Bool} {t u : State} : onUnit ok t = .next u ↔ ok = true ∧ t = u := by
  cases ok <;> simp [onUnit]

@[simp] theorem onUnit_true (t : State) : onUnit true t = .next t := rfl

theorem onUnit_of {ok : Bool} (h : ok = true) (t : State) : onUnit ok t = .next t := by rw [h]; rfl

theorem onUnit_refused {ok : Bool} {t : State} {r : Refusal} (h : onUnit ok t = .refused r) : r = .noSuchUnit := by
  cases ok <;> simp_all [onUnit]

@[simp] theorem when_true (f : State → State) (s : State) : when true f s = f s := rfl
@[simp] theorem when_false (f : State → State) (s : State) : when false f s = s := rfl

theorem when_of {c : Bool} (h : c = true) (f : State → State) (s : State) : when c f s = f s := by rw [h]; rfl
theorem when_not {c : Bool} (h : c = false) (f : State → State) (s : State) : when c f s = s := by rw [h]; rfl

/-- What holds before and is kept by f holds after `when`. -/
theorem when_keeps {P : State → Prop} {c : Bool} {f : State → State} {s : State} (h : P s) (hf : P s → P (f s)) :
    P (when c f s) := by
  cases c
  · exact h
  · exact hf h

/-- A meaning of the form `onUnit ok (when c f s)` keeps what f keeps. -/
theorem onUnit_when_keeps {P : State → Prop} {ok c : Bool} {f : State → State} {s t : State}
    (h : onUnit ok (when c f s) = .next t) (hs : P s) (hf : P s → P (f s)) : P t := by
  obtain ⟨-, rfl⟩ := onUnit_next.mp h
  exact when_keeps hs hf

/-! ### Folds -/

theorem forL_keeps {α : Type} {P : State → Prop} {f : α → State → State} :
    ∀ {l : List α} {s : State}, P s → (∀ x ∈ l, ∀ u, P u → P (f x u)) → P (forL f l s)
  | [], _, h, _ => h
  | x :: l, _, h, hf =>
    forL_keeps (l := l) (hf x (List.mem_cons_self ..) _ h) fun y hy u hu => hf y (List.mem_cons_of_mem _ hy) u hu

theorem forN_keeps {P : State → Prop} {f : Nat → State → State} :
    ∀ {n : Nat} {s : State}, P s → (∀ i, i < n → ∀ u, P u → P (f i u)) → P (forN n f s)
  | 0, _, h, _ => h
  | n + 1, _, h, hf =>
    hf n (Nat.lt_succ_self n) _ (forN_keeps (n := n) h fun i hi u hu => hf i (Nat.lt_succ_of_lt hi) u hu)

/-- A reading that no round of a fold changes is unchanged by the fold. -/
theorem forL_same {α β : Type} (g : State → β) {f : α → State → State} (l : List α) (s : State)
    (h : ∀ x ∈ l, ∀ u, g (f x u) = g u) : g (forL f l s) = g s :=
  forL_keeps (P := fun u => g u = g s) rfl fun x hx u hu => (h x hx u).trans hu

theorem forN_same {β : Type} (g : State → β) {f : Nat → State → State} (n : Nat) (s : State)
    (h : ∀ i, i < n → ∀ u, g (f i u) = g u) : g (forN n f s) = g s :=
  forN_keeps (P := fun u => g u = g s) rfl fun i hi u hu => (h i hi u).trans hu

@[simp] theorem forL_nil {α : Type} (f : α → State → State) (s : State) : forL f [] s = s := rfl
@[simp] theorem forL_cons {α : Type} (f : α → State → State) (x : α) (l : List α) (s : State) :
    forL f (x :: l) s = forL f l (f x s) := rfl

/-! ### Time -/

theorem lc_toLc (n : Nat) (s : State) : lc (toLc n s) = max (lc s) n := by
  simp only [lc, toLc, passTo]; omega

theorem now_le_passTo (n : Nat) (s : State) : s.now ≤ (passTo n s).now := Nat.le_max_left ..

/-! ### Registers -/

/-- A register write is seen at its address only, whatever an unlisted cell reads as. -/
theorem setReg_regsBut (r : Reg) (v : W32) (s : State) : RegsBut [regAddr r] s (setReg r v s) := by
  intro a ha d
  exact tget_tset_ne _ _ _ _ (by simpa using ha)

theorem RegsBut.trans {as bs : List Nat} {s t u : State} (h : RegsBut as s t) (k : RegsBut bs t u) :
    RegsBut (as ++ bs) s u := by
  intro a ha d
  rw [List.mem_append, not_or] at ha
  rw [k a ha.2 d, h a ha.1 d]

theorem RegsBut.reg {as : List Nat} {s t : State} (h : RegsBut as s t) {r : Reg} (hr : regAddr r ∉ as) :
    reg t r = reg s r := h _ hr _

theorem setReg_eq (r : Reg) (v : W32) (s : State) : setReg r v s = { s with regs := (setReg r v s).regs } := rfl
theorem raise_eq (r : Reg) (b : Nat) (s : State) : raise r b s = { s with regs := (raise r b s).regs, acc := (raise r b s).acc } := rfl
theorem setRfld_eq (r : Reg) (lo n v : Nat) (s : State) :
    setRfld r lo n v s = { s with regs := (setRfld r lo n v s).regs } := rfl
theorem writeRw_eq (r : Reg) (v : W32) (s : State) : writeRw r v s = { s with regs := (writeRw r v s).regs } := rfl
theorem writeW1c_eq (r : Reg) (v : W32) (s : State) : writeW1c r v s = { s with regs := (writeW1c r v s).regs } := rfl

@[simp] theorem reg_writeRw (r : Reg) (v : W32) (s : State) :
    reg (writeRw r v s) r = (reg s r &&& ~~~ (regRwMask r)) ||| (v &&& regRwMask r) := reg_setReg ..
@[simp] theorem reg_writeW1c (r : Reg) (v : W32) (s : State) :
    reg (writeW1c r v s) r = reg s r &&& ~~~ (v &&& regW1cMask r &&& ~~~ setNow s (regAddr r)) := reg_setReg ..
@[simp] theorem reg_setRfld (r : Reg) (lo n v : Nat) (s : State) :
    reg (setRfld r lo n v s) r = setFld (reg s r) lo n v := reg_setReg ..

/-! ### Counters (R540, R541) -/

/-- A carry touches the flags of the counter, FL_OVF_LOG and FL_EVENTS. -/
theorem carried_eq (a : Nat) (s : State) :
    carried a s = { s with regs := (carried a s).regs, fl := (carried a s).fl, acc := (carried a s).acc } := rfl

/-- A count touches the register, the flags of the counter, FL_OVF_LOG and FL_EVENTS. -/
theorem countN_eq (r : Reg) (n : Nat) (s : State) :
    countN r n s = { s with regs := (countN r n s).regs, fl := (countN r n s).fl, acc := (countN r n s).acc } := by
  unfold countN
  split
  · unfold incrementLost; dsimp only; split <;> rfl
  · dsimp only; split <;> rfl

theorem count_eq (r : Reg) (s : State) :
    count r s = { s with regs := (count r s).regs, fl := (count r s).fl, acc := (count r s).acc } :=
  countN_eq r 1 s

/-- Outside the lane cycle of a clear a counter that does not carry becomes its sum. -/
theorem countN_plain {r : Reg} {n : Nat} {s : State} (h : clearingNow s (regAddr r) (reg s r).toNat = none)
    (hn : (reg s r).toNat + n < 2 ^ 32) : countN r n s =
      { setReg r (BitVec.ofNat 32 ((reg s r).toNat + n)) s with acc := noteOld (regAddr r) (reg s r) s } := by
  unfold countN; simp only [h]; rw [if_pos hn]

/-- No clear under way and none just done: no counter is being cleared. -/
theorem clearingNow_none {s : State} (hc : s.fl.clears = []) (hd : s.fl.cleared = []) (a v : Nat) :
    clearingNow s a v = none := by
  simp [clearingNow, hc, hd]

/-! ### The fault log and records (R523-R528) -/

/-- A detection touches the fault unit, the retention RAM and registers. -/
theorem logOnly_eq (code obj : Nat) (detail : W64) (s : State) :
    logOnly code obj detail s =
      { s with regs := (logOnly code obj detail s).regs, fl := (logOnly code obj detail s).fl, acc := (logOnly code obj detail s).acc
               byre := { s.byre with rram := (logOnly code obj detail s).byre.rram } } := by
  have h := count_eq .flLogDropCnt s
  unfold logOnly
  split
  · dsimp only
    split
    · rfl
    · split
      · rfl
      · rw [raise_eq, h]
  · dsimp only
    split
    · rfl
    · split
      · rfl
      · rw [raise_eq, h]

theorem logFault_eq (code obj : Nat) (detail : W64) (s : State) :
    logFault code obj detail s =
      { s with regs := (logFault code obj detail s).regs, fl := (logFault code obj detail s).fl, acc := (logFault code obj detail s).acc
               byre := { s.byre with rram := (logFault code obj detail s).byre.rram } } := by
  have h := logOnly_eq code obj detail s
  unfold logFault
  dsimp only
  split
  · unfold fpend; rw [raise_eq, h]
  · exact h

/-- A fault record touches the Separator. -/
theorem faultRec_eq (t top : Nat) (s : State) : faultRec t top s = { s with sp := (faultRec t top s).sp } := by
  unfold faultRec; dsimp only; split <;> rfl

theorem beginEvent_eq (n ch : Nat) (s : State) : beginEvent n ch s = { s with ev := (beginEvent n ch s).ev } := by
  unfold beginEvent; split <;> rfl

/-- An assertion touches the events. -/
theorem produce_eq (kind idx n : Nat) (s : State) : produce kind idx n s = { s with ev := (produce kind idx n s).ev } := by
  unfold produce
  split
  · rfl
  · exact forL_keeps (P := fun u => u = { s with ev := u.ev }) rfl fun ch _ u hu => by
      rw [beginEvent_eq]
      generalize (beginEvent _ ch u).ev = e
      exact congrArg (fun v : State => { v with ev := e }) hu

/-! ### The invariant -/

theorem stateInv_of_eq {s t : State} (hr : t.regs = s.regs) (hm : t.byre.rram = s.byre.rram) (hb : t.fl.buf = s.fl.buf)
    (ho : t.fl.ovfLog = s.fl.ovfLog) (hs : t.byre.state = s.byre.state) (hu : t.released = s.released)
    (h : StateInv s) : StateInv t := by
  unfold StateInv CoreState at *
  rw [hr, hm, hb, ho, hs, hu]
  exact h

theorem stateInv_setReg (r : Reg) (v : W32) {s : State} (h : StateInv s) : StateInv (setReg r v s) :=
  ⟨rising_tset _ _ _ h.1, h.2⟩

theorem stateInv_raise (r : Reg) (b : Nat) {s : State} (h : StateInv s) : StateInv (raise r b s) := stateInv_setReg _ _ h

theorem stateInv_rramSet (i : Nat) (v : W32) {s : State} (h : StateInv s) : StateInv (rramSet i v s) :=
  ⟨h.1, rising_tset _ _ _ h.2.1, h.2.2.1, h.2.2.2.1, h.2.2.2.2⟩

theorem stateInv_passTo (n : Nat) {s : State} (h : StateInv s) : StateInv (passTo n s) := h

theorem stateInv_carried (a : Nat) {s : State} (h : StateInv s) : StateInv (carried a s) := by
  unfold carried
  refine stateInv_raise _ _ ⟨h.1, h.2.1, h.2.2.1, ?_, h.2.2.2.2⟩
  have h16 := h.2.2.2.1
  dsimp only
  split
  · rw [List.length_append]; simp only [List.length_cons, List.length_nil]; omega
  · exact h16

theorem stateInv_countN (r : Reg) (n : Nat) {s : State} (h : StateInv s) : StateInv (countN r n s) := by
  unfold countN
  split
  · unfold incrementLost
    dsimp only
    split
    · exact h
    · exact stateInv_carried _ h
  · dsimp only
    split
    · exact stateInv_setReg _ _ h
    · exact stateInv_carried _ (stateInv_setReg _ _ h)

theorem stateInv_logOnly (code obj : Nat) (detail : W64) {s : State} (h : StateInv s) : StateInv (logOnly code obj detail s) := by
  have hfold : StateInv
      { s with
        fl := { s.fl with
          newest := s.fl.newest.map bumpEntry, buf := s.fl.buf.map fun e => if e.seq = s.fl.seq then bumpEntry e else e }
        byre := { s.byre with
          rram := if (s.fl.buf.any fun e => e.seq == s.fl.seq) then s.byre.rram else bumpWritten s.fl.seq s.byre.rram } } := by
    refine ⟨h.1, ?_, ?_, h.2.2.2.1, h.2.2.2.2⟩
    · dsimp only
      split
      · exact h.2.1
      · exact rising_tset _ _ _ h.2.1
    · dsimp only; rw [List.length_map]; exact h.2.2.1
  have hnew (hl : s.fl.buf.length < 16) (e : LogEntry) (n d : Nat) :
      StateInv { s with fl := { s.fl with seq := n, newest := some e, buf := s.fl.buf ++ [e], logDue := d } } := by
    refine ⟨h.1, h.2.1, ?_, h.2.2.2.1, h.2.2.2.2⟩
    dsimp only
    rw [List.length_append]; simp only [List.length_cons, List.length_nil]; omega
  have hdrop : StateInv (raise .flEvents 3 (count .flLogDropCnt s)) := stateInv_raise _ _ (stateInv_countN _ _ h)
  unfold logOnly
  split
  · dsimp only
    split
    · exact hfold
    · split
      · exact hnew (by assumption) _ _ _
      · exact hdrop
  · dsimp only
    split
    · exact hfold
    · split
      · exact hnew (by assumption) _ _ _
      · exact hdrop

theorem stateInv_logFault (code obj : Nat) (detail : W64) {s : State} (h : StateInv s) :
    StateInv (logFault code obj detail s) := by
  unfold logFault
  dsimp only
  split
  · exact stateInv_raise _ _ (stateInv_logOnly _ _ _ h)
  · exact stateInv_logOnly _ _ _ h

/-! ### The issue of an instruction (Table 8-3) -/

/-- Where no broadcast is due, none meets a WAIT. -/
theorem broadcastsDue_quiet {s : State} {n : Nat} (h : Quiet s n = true) : broadcastsDue n s = s := by
  have h' : ∀ b ∈ s.ttc.bcast, n < b.1 := by simpa [Quiet] using h
  have h1 : (s.ttc.bcast.filter fun b => decide (b.1 ≤ n)) = [] := by
    rw [List.filter_eq_nil_iff]; intro b hb; have := h' b hb; simp; omega
  have h2 : (s.ttc.bcast.filter fun b => decide (n < b.1)) = s.ttc.bcast := by
    rw [List.filter_eq_self]; intro b hb; simpa using h' b hb
  unfold broadcastsDue
  simp only [h1, h2, forL]

/-- What the issue of an instruction that passes the common checks comes to: the checks of its unit and of its rights, then
its effect, in the first cycle in which its cluster may issue. -/
theorem instr_of_issues {s : State} {c x : Nat} {m : Mnemonic} {w : W32} (h : Issues s c x m w = true)
    (chk : Nat → W32 → State → Option Nat) (run : Nat → Nat → W32 → State → Ends) :
    instr c m chk run s = .next
      (match chk x w (passTo (issueAt s c) s) with
      | some code => faultAt x (issueAt s c) code (passTo (issueAt s c) s)
      | none => match run x (issueAt s c) w (passTo (issueAt s c) s) with
        | .retires n s' => retire x (issueAt s c) n (ctx s x).pc false s'
        | .leaves s' => s'
        | .faults code => faultAt x (issueAt s c) code (passTo (issueAt s c) s)
        | .faultsEcc mem word => faultEcc x (issueAt s c) mem word (passTo (issueAt s c) s)) := by
  simp only [Issues, Holds, Bool.and_eq_true, decide_eq_true_eq, Bool.not_eq_true', beq_iff_eq, bne_iff_ne,
    Bool.and_eq_false_iff] at h
  obtain ⟨⟨⟨⟨⟨⟨⟨⟨⟨⟨⟨⟨⟨⟨⟨⟨⟨⟨⟨⟨⟨hrel, hout⟩, hc⟩, hx⟩, hrun⟩, hst⟩, hhold⟩, hstep⟩, hbrk⟩, hcode⟩, hbad⟩, hw⟩, hm⟩, hul⟩, henc⟩, hl⟩, _⟩, _⟩,
    hleft⟩, hq⟩, hsw⟩, hquiet⟩ := h
  have hxc : 64 * c + x % 64 = x := by omega
  have hqe : quantumEnds x (issueAt s c) s = s := by
    unfold quantumEnds
    rw [if_neg]
    simp only [Bool.and_eq_true, beq_iff_eq, not_and]
    rcases hq with hq | hq
    · simp [hq]
    · intro h1; simp_all
  have hb : boundary x (issueAt s c) s = s := by
    unfold boundary; simp only [hqe, hsw]; rfl
  have hi : issueAt s c = issueCycle s c := rfl
  have hbd : broadcastsDue (issueAt s c / 2) s = s := broadcastsDue_quiet hquiet
  have hho : (cluster s c).hold.isSome = false := by simpa using hhold
  have hcx : ctx (passTo (issueAt s c) s) x = ctx s x := rfl
  have hlf : left (passTo (issueAt s c) s) x = left s x := rfl
  have hbad' : codeBad (passTo (issueAt s c) s) (x / 64) (ctx s x).pc.toNat = false := by rw [hx]; exact hbad
  have hadm : admissible (passTo (issueAt s c) s) x w = true := by
    unfold admissible
    simp only [hcx, hl, hm]
    simpa using hul
  unfold instr
  rw [onUnit_of (by simpa using hc), when_of (by simp [hrel, hout])]
  congr 1
  unfold issue
  simp only [hrun, hxc, hw, hm, bne_self_eq_false, Bool.false_eq_true, if_false, ← hi, hbd, hb, hho, hst, hcx, hbrk, Bool.false_and]
  unfold issueWord ends
  simp only [hcx, hcode, hbad', hl, hlf, henc, hadm, Bool.not_true, Bool.not_false, Bool.true_and, Bool.false_eq_true,
    if_false, Bool.or_self, decide_eq_true_eq, Nat.not_lt.mpr hleft] <;> rfl

/-- A charge leaves everything of its context but the cycles left. -/
theorem ctx_charge (x n : Nat) (s : State) : ctx (charge x n s) x = { ctx s x with rem := (ctx (charge x n s) x).rem } := by
  unfold charge
  dsimp only
  split
  · rw [ctx_setCtx]
  · rfl

/-- Outside a lock, with no step, STOP or HALT to end it and no held instruction, retirement charges the cycles, lets the
cluster issue after them and counts. -/
theorem retire_plain (x i n : Nat) (pc : BitVec 13) {s : State} (h : (ctx s x).stepping = false)
    (hs : (ctx s x).stopPend = false) (hh : (ctx s x).haltPend = false) (hc : (cluster s (x / 64)).hold = none) :
    retire x i n pc false s =
      modCtx x (fun u => { u with bpSkip := false, ret := u.ret + 1 })
        (modCluster (x / 64) (fun k => { k with next := i + n, hold := none }) (charge x n s)) := by
  have hp : i + n - paidTo s (x / 64) i = n := by unfold paidTo; rw [hc]; exact Nat.add_sub_cancel_left i n
  have hu : ∀ f : Cluster → Cluster, ctx (modCtx x (fun u => { u with bpSkip := false, ret := u.ret + 1 })
      (modCluster (x / 64) f (charge x n s))) x =
      { ctx s x with rem := (ctx (charge x n s) x).rem, bpSkip := false, ret := (ctx s x).ret + 1 } := by
    intro f
    rw [modCtx, ctx_setCtx]
    show ({ ctx (charge x n s) x with bpSkip := false, ret := (ctx (charge x n s) x).ret + 1 } : Ctx) = _
    rw [ctx_charge]
  unfold retire afterRetire
  dsimp only
  rw [hp, hu]
  simp only [h, hs, hh, Bool.or_self, Bool.false_and, Bool.false_eq_true, if_false]

/-! ### Requests to the Byre, and reads (R475, R540) -/

/-- All that a request can do: nothing where one before it in the order of R475 has come at its edge, otherwise its effect. -/
theorem request_cases (r : Nat) (f : State → State) (s : State) :
    (outranked s r = true ∧ request r f s = s) ∨
    (outranked s r = false ∧ request r f s = f (modBy (fun b => { b with decided := (b.kc, r) }) s)) := by
  unfold request
  cases h : outranked s r <;> simp

/-- A request at an edge at which none has come takes effect. -/
theorem request_first {r : Nat} {s : State} (f : State → State) (h : s.byre.decided.1 ≠ s.byre.kc) :
    request r f s = f (modBy (fun b => { b with decided := (b.kc, r) }) s) := by
  have : outranked s r = false := by unfold outranked; rw [beq_false_of_ne h]; rfl
  unfold request; rw [this]; rfl

/-- A register that is no counter is read as its view, but one that shows its shadow. -/
theorem readView_plain (w : Who) {r : Reg} {s : State} (hs : readsShadow r = false) (hc : isCounter r = false) :
    readView w r s = regView s w.tenant r := by
  have : (accNow s).olds.find? (fun p => p.1 == regAddr r && isCounter r) = none := by
    rw [hc]; simp
  unfold readView; rw [hs, this]; rfl

end Sys2Proof.Laws
end

