-- ==== Sys2Proof/Tests/Slice0.lean ====
section
/-! SUPPORT. Tests: operands that WellFormed refuses, worked examples of the spec, and for every statement with hypotheses a
state and operands that meet them. -/
namespace Sys2Proof.Tests

open Sys2Proof Sys2Proof.Machine Sys2Proof.Safety

set_option Elab.async false

/-- The machine after reset with its core released. -/
def up : State := { State.reset with released := true }

/-- Released, with the TS in a state. -/
def inTs (x : TsState) : State := { up with tb := { Timebase.reset with ts := x } }

/-- Locked, with time running. -/
def ticking : State := { inTs .locked with fr := { Frames.reset with running := true } }

/-- The steward at port P0. -/
def st0 : Who := { path := .p0, tenant := 0 }

/-- Released, with pulse lane k, stamp lane k as given. -/
def lane (k : Nat) (l : PulseLane) : State := setPulse k l { ticking with tb := { ticking.tb with gated := 0 } }
def stampLane (k : Nat) (l : StampLane) : State := setStamp k l up

/-- A command frame of tenant t with counter n under the key of zeros, and a key area in which tenants 0 and 1 have that key
with reservation 100. -/
def cmdHead (t op n : Nat) (pl : List W64) : List W64 :=
  [at64 1 56 ||| at64 op 48 ||| at64 t 30 ||| at64 pl.length 0, BitVec.ofNat 64 n, 0] ++ pl
def cmdTag (t op n : Nat) (pl : List W64) : Nat := tagOf (cmdKey 0) (cmdHead t op n pl)
def cmdFrame (p : Path) (t op n : Nat) (pl : List W64) : CmdFrame :=
  { path := p
    words := cmdHead t op n pl ++ [BitVec.ofNat 64 (cmdTag t op n pl / 2 ^ 32), at64 (cmdTag t op n pl % 2 ^ 32) 32] }
def keyArea : Tbl W64 := [(2, 100), (3, 0x80822AD8B6FD137F), (6, 100), (7, 0x80822AD8B6FD137F)]

/-- The tag of a command frame is right. -/
theorem authentic_cmdFrame (s : State) (p : Path) (t op n : Nat) (pl : List W64)
    (ht : cTenant (cmdFrame p t op n pl).words = t) (hp : cPlen (cmdFrame p t op n pl).words = pl.length)
    (hk : (keyOf s t).key = 0)
    (hs : (!s.tn.zeroising && !purging s && (t == 0 || (tenant s t).state != .absent) && (keyOf s t).valid) = true) :
    authentic s (cmdFrame p t op n pl).words = true := by
  have hl : (cmdHead t op n pl).length = 3 + pl.length := by simp [cmdHead]; omega
  have hm : cMessage (cmdFrame p t op n pl).words = cmdHead t op n pl := by
    unfold cMessage; rw [hp, ← hl]; simp [cmdFrame]
  have hb : cmdTag t op n pl < 2 ^ 96 := Nat.mod_lt _ (by decide)
  have hc : cTag (cmdFrame p t op n pl).words = cmdTag t op n pl := by
    unfold cTag cW; rw [hp, ← hl]
    have h4 : 4 + pl.length = (cmdHead t op n pl).length + 1 := by omega
    rw [h4]
    simp only [cmdFrame, List.getD_eq_getElem?_getD, List.getElem?_append_right (Nat.le_refl _),
      List.getElem?_append_right (Nat.le_add_right _ _), Nat.sub_self, Nat.add_sub_cancel_left]
    simp only [List.getElem?_cons_zero, List.getElem?_cons_succ, Option.getD_some, at64, fld, BitVec.toNat_ofNat]
    omega
  unfold authentic
  simp only [ht, hm, hc, hk]
  simp only [Bool.and_eq_true] at hs ⊢
  exact ⟨hs, by simp [cmdTag]⟩

/-- A command frame with its tag is well formed where its header is. -/
theorem wellFormed_cmdFrame (p : Path) (t op n : Nat) (pl : List W64)
    (hp : cPlen (cmdFrame p t op n pl).words = pl.length)
    (h : (decide (3 ≤ (cmdFrame p t op n pl).words.length) && fld (cW (cmdFrame p t op n pl).words 0) 56 8 == 1 &&
      only (cW (cmdFrame p t op n pl).words 0) 0xFFFF01FFC000FFFF && decide (cPlen (cmdFrame p t op n pl).words ≤ 2048) &&
      (cmdFrame p t op n pl).words.length ==
        (if cOp (cmdFrame p t op n pl).words == 0x20 then 3 else 5) + cPlen (cmdFrame p t op n pl).words) = true) :
    wellFormed (cmdFrame p t op n pl).words = true := by
  have hl : (cmdHead t op n pl).length = 3 + pl.length := by simp [cmdHead]; omega
  have hz : fld (cW (cmdFrame p t op n pl).words (4 + cPlen (cmdFrame p t op n pl).words)) 0 32 = 0 := by
    have h4 : 4 + pl.length = (cmdHead t op n pl).length + 1 := by omega
    unfold cW; rw [hp, h4]
    simp only [cmdFrame, List.getD_eq_getElem?_getD, List.getElem?_append_right (Nat.le_add_right _ _),
      Nat.add_sub_cancel_left, List.getElem?_cons_zero, List.getElem?_cons_succ, Option.getD_some, at64, fld,
      BitVec.toNat_ofNat]
    omega
  unfold wellFormed
  simp only [Bool.and_eq_true] at h ⊢
  exact ⟨h, by rw [hz]; simp⟩

/-- An entry for a rise, as it reaches a lane and as it is stored. -/
def edgeIn : EdgeEntry := { time := 1000000, width := 0, kind := 0, tag := 33, ctx := 5, source := .direct }
def edge0 : Stored := { t := 1000000, tint := 1000000, kind := .rise, tag := 33, ctx := 5, source := .direct, pair := 0, mate := 0 }

/-- A measurement that fits no bank, and one of bins of equal width. -/
def badCal : PulseCal := { pos := [], delay := -1 }
def flatCounts : StampCal := { counts := List.replicate 64 1024 }

/-- A capture, its decoded time, a hit and a program record of one word. -/
def capture0 : Capture :=
  { trail := false, t := 20000, lc := 1, vc := 3, bin := 4, frame := 0, no := 0, prevLen := 320, warm := true, prevWarm := true,
    ovf := false, lost := false, dec := none }
def time0 : StampTime := { frame := 0, no := 0, time := 20000, run := 20000, notWarm := false, degraded := false, ovf := false }
def hit0 : Hit := { frame := 0, word := 0x1230000000000000, no := 0, inq := 0 }
def rec0 : ProgRec := { stream := 5, frame := 0, w0 := 0x3000000000000000, w1 := none, base := 0 }
def thr0 : ThrPend := { thr := 100, tickPassed := false }

/-- A tenant with every right of its record, and stream 5. -/
def ten1 : Tenant :=
  { Tenant.reset with state := .active, caps := (List.range 320).map fun i => (i, if i = 43 then 0x00008005 else 0xFFFFFFFF) }

/-- A running context of tenant 1 with a window of 64 words of code and 64 bytes of data. -/
def running0 (r : Regs) : Ctx :=
  { Ctx.reset with
    state := .running, rem := 1000, bud := 250, iwin := 0x10000, dwin := 0x10000, cfg := 0x80000001, r := r }

/-- Context 0 of cluster c, of tenant 1, runs word w, with registers as given. -/
def prog (c : Nat) (w : W32) (r : Regs) : State :=
  setTenant 1 ten1 (setCluster c { Cluster.reset with run := some 0, imem := [(0, w)] }
    (setCtx (64 * c) (running0 r) { ticking with tb := { ticking.tb with gated := 0 } }))

/-- Registers g1 = 8, g4 = 7, t0 = 4096. -/
def regs0 : Regs := { Regs.reset with g := [(1, 8), (4, 7)], t := [(0, 4096)] }

/-- Context 64 inside a locked sequence, at its UNLOCK; and ready with no context running. -/
def locked : State :=
  modCluster 1 (fun u => { u with lock := some { ctx := 0, n := 4, count := 2, pc := 0, saved := regs0 } })
    (modCtx 64 (fun u => { u with l := true }) (prog 1 0x84000000 regs0))
def ready1 : State :=
  modCluster 1 (fun u => { u with run := none }) (modCtx 64 (fun u => { u with state := .ready }) (prog 1 0x08210008 regs0))

def dlv0 : Delivery := { time := 77, code := some 5 }
def wait0 : WaitInfo := { d := 0, ge := 7, c := true, timeout := some 9 }

def up_keyless : State := { up with jr := { Journal.reset with replayed := true }, byre := { Byre.reset with ready := true } }
def keyed : State :=
  { prog 1 0x84000000 regs0 with
    tn := { TenUnit.reset with tens := [(1, ten1)], keys := keyArea }
    jr := { Journal.reset with replayed := true }
    byre := { Byre.reset with ready := true } }


/-- A released core in RUN. -/
def up_run : State := { up with byre := { Byre.reset with state := .run } }

/-- A HELLO frame. -/
def link0 : LinkFrame := { kind := 5, flags := 0, nwords := 1, lseq := 0, body := [0], fcs := 0, clean := true }
/-- The hypotheses of each clause of TimebaseEvents are met. -/
theorem witness_timebaseEvents :
    (let s : State := inTs .locked; (s.released = true) ∧ (s.tb.ts ≠ .off) ∧ ((windowsRun s = true → s.now * 8192 ≤ windowEnd s ∧ s.tb.expect ≤ edgeAt s + refCycle s / 4))) ∧
    (let s : State := { inTs .locked with tb := { (inTs .locked).tb with expect := 200000 } }; (s.released = true) ∧ (windowsRun s = true) ∧ (s.now * 8192 ≤ windowEnd s) ∧ (edgeAt s + refCycle s / 4 < s.tb.expect)) ∧
    (let s : State := { inTs .locked with tb := { (inTs .locked).tb with missing := 3 } }; (s.released = true) ∧ (windowsRun s = true)) ∧
    (let s : State := inTs .check; (s.released = true) ∧ (s.tb.ts = .check)) ∧
    (let s : State := inTs .search; let band := (63 : Nat); (s.released = true) ∧ (band < 64) ∧ (s.tb.ts = .search)) ∧
    (let s : State := { inTs .acquire with tb := { (inTs .acquire).tb with fromStored := true } }; (s.released = true) ∧ (s.tb.ts = .acquire) ∧ (s.tb.fromStored = true)) ∧
    (let s : State := up; (s.released = true)) ∧
    (let s : State := up; let off := (16383 : Nat); (s.released = true) ∧ (off < 16384)) := by
  decide +kernel

/-- The hypotheses of each clause of TimebaseWrites are met. -/
theorem witness_timebaseWrites :
    (let s : State := inTs .locked; let who := st0; let sel := (1 : Nat); (s.released = true) ∧ (sel < 4) ∧ (TbRights s who = true)) ∧
    (let s : State := up; let who := st0; (s.released = true) ∧ (TbRights s who = true)) ∧
    (let s : State := inTs .locked; let who := st0; (s.released = true) ∧ (TbRights s who = true)) ∧
    (let s : State := up; let who := st0; (s.released = true) ∧ (TbRights s who = true)) ∧
    (let s : State := up; let who := st0; (s.released = true) ∧ (TbRights s who = true)) := by
  decide +kernel

/-- The hypotheses of each clause of SynthesizerCommands are met. -/
theorem witness_synthesizerCommands :
    (let s : State := { up with regs := [(regAddr .asCtrl, 1), (regAddr (.asPlanRatio 3), 0x07F66E87)] }; let who := st0; let plan := (3 : Nat); (s.released = true) ∧ (plan < 16) ∧ (TbRights s who = true) ∧ (rbit s .asCtrl 0 = true) ∧ (planUsable s plan = true)) ∧
    (let s : State := { up with regs := [(regAddr .asCtrl, 1), (regAddr (.asPlanRatio 3), 0x07F66E87)] }; let who := st0; let plan := (3 : Nat); (s.released = true) ∧ (plan < 16) ∧ (TbRights s who = true) ∧ (rbit s .asCtrl 0 = true) ∧ (planUsable s plan = true)) ∧
    (let s : State := { up with regs := [(regAddr (.asPlanRatio 0), 0x07F66E87)] }; let who := st0; let en := true; (s.released = true) ∧ (TbRights s who = true) ∧ (rbit s .asCtrl 0 ≠ en) ∧ (planUsable s (rfld s .asCtrl 4 4) = true)) ∧
    (let s : State := { up with syn := { Synth.reset with work := .search 3 false } }; let band := (255 : Nat); (s.released = true) ∧ (band < 256) ∧ (s.syn.work ≠ .idle ∨ s.syn.relock = true)) ∧
    (let s : State := { up with syn := { Synth.reset with locked := true } }; (s.released = true) ∧ (asHeld s = true)) ∧
    (let s : State := { up with syn := { Synth.reset with work := .hop 3 } }; let p := (3 : Nat); (s.released = true) ∧ (s.syn.work = .hop p)) ∧
    (let s : State := up; let who := st0; let plan := (15 : Nat); (s.released = true) ∧ (plan < 16) ∧ (TbRights s who = true)) ∧
    (let s : State := up; let who := st0; let n := (7 : Nat); (s.released = true) ∧ (n < 8) ∧ (TbRights s who = true)) := by
  decide +kernel

/-- The hypotheses of each clause of FrameTick are met. -/
theorem witness_frameTick :
    (let s : State := ticking; (s.released = true) ∧ (s.tb.tickPending = false) ∧ (s.fr.running = true) ∧ (syncFirst s = false) ∧ (s.tb.ts = .locked) ∧ (s.tb.tset = false) ∧ (s.fr.count + 1 < 2 ^ 48)) ∧
    (let s : State := { inTs .locked with tb := { (inTs .locked).tb with tickPending := true } }; (s.released = true) ∧ (s.tb.tickPending = true) ∧ (s.fr.running = false)) ∧
    (let s : State := { ticking with tb := { ticking.tb with ts := .holdover, cause := .lock } }; (s.released = true) ∧ (s.tb.tickPending = false) ∧ (s.fr.running = true) ∧ (s.tb.ts = .holdover)) ∧
    (let s : State := { ticking with tb := { ticking.tb with syncT0 := some 16 } }; let n := (16 : Nat); (s.released = true) ∧ (s.tb.tickPending = false) ∧ (s.fr.running = true) ∧ (s.tb.ts = .locked) ∧ (s.tb.syncT0 = some n) ∧ (n ≤ nextTick s)) ∧
    (let s : State := up; let who := st0; (s.released = true) ∧ (who.tenant = 0)) := by
  decide +kernel

/-- The hypotheses of each clause of PulseEdgePath are met. -/
theorem witness_pulseEdgePath :
    (let s : State := lane 255 { PulseLane.reset with direct := some (3, edgeIn) }; let k := (255 : Nat); let w := (3 : Nat); let n := (3 : Nat); let e := edgeIn; (s.released = true) ∧ (k < 256) ∧ (portNext (pulse s k) = some (w, e)) ∧ (n = max (max (lc s) w) (pulse s k).portFree) ∧ (tbGated s k = false) ∧ ((pulse s k).ocDis = false) ∧ (late s n e.time = false)) ∧
    (let s : State := lane 0 { PulseLane.reset with correct := [(3, edge0)] }; let k := (0 : Nat); let n := (3 : Nat); let e := edge0; let rest := ([] : List (Nat × Stored)); (s.released = true) ∧ (k < 256) ∧ ((pulse s k).correct = (n, e) :: rest) ∧ (queueCheck (pulse s k) { e with tint := corrected (pulse s k).bank e.t } = none)) ∧
    (let s : State := lane 0 { PulseLane.reset with correct := [(3, edge0)], gens := [edge0] }; let k := (0 : Nat); let n := (3 : Nat); let e := edge0; let rest := ([] : List (Nat × Stored)); let cause := (2 : Nat); (s.released = true) ∧ (k < 256) ∧ ((pulse s k).correct = (n, e) :: rest) ∧ (queueCheck (pulse s k) { e with tint := corrected (pulse s k).bank e.t } = some cause)) ∧
    (let s : State := lane 0 { PulseLane.reset with queue := [edge0] }; let k := (0 : Nat); let m := (60 : Nat); let n := (60 : Nat); let ns := ([] : List Nat); (s.released = true) ∧ (k < 256) ∧ ((pulse s k).queue.map (fun e => loadLc s e.tint) = n :: ns) ∧ (m = max (lc s) (ns.foldl min n))) ∧
    (let s : State := lane 0 { PulseLane.reset with gens := [edge0], gateOpen := true }; let k := (0 : Nat); let e := edge0; let rest := ([] : List Stored); (s.released = true) ∧ (k < 256) ∧ ((pulse s k).gens = e :: rest) ∧ ((pulse s k).gateReqs = []) ∧ (safeOn s = false) ∧ ((pulse s k).ocDis = false) ∧ ((pulse s k).cut = none) ∧ ((pulse s k).gateOpen = true) ∧ (tbGated s k = false)) ∧
    (let s : State := lane 0 { PulseLane.reset with gens := [edge0] }; let k := (0 : Nat); let e := edge0; let rest := ([] : List Stored); (s.released = true) ∧ (k < 256) ∧ ((pulse s k).gens = e :: rest) ∧ ((pulse s k).gateReqs = []) ∧ ((pulse s k).cut = none) ∧ ((pulse s k).gateOpen = false) ∧ ((pulse s k).trailing = none)) ∧
    (let s : State := lane 9 { PulseLane.reset with gateReqs := [(32768, true)] }; let k := (9 : Nat); let x := (32768 : Nat); let op := true; (s.released = true) ∧ (k < 256) ∧ ((pulse s k).gateReqs = [(x, op)]) ∧ (safeOn s = false) ∧ ((pulse s k).cut = none) ∧ ((op = true → (pulse s k).closedLc ≠ some (x / 16384)))) ∧
    (let s : State := lane 255 { PulseLane.reset with stdNow := 1, gateOpen := true, level := true }; let k := (255 : Nat); (s.released = true) ∧ (k < 256) ∧ ((pulse s k).stdNow ≠ 0) ∧ ((pulse s k).ocDis = false)) := by
  decide +kernel

/-- The hypotheses of each clause of PulseLaneWrites are met. -/
theorem witness_pulseLaneWrites :
    (let s : State := up; let who := st0; let k := (255 : Nat); (s.released = true) ∧ (k < 256) ∧ (LaneRights s who k = true) ∧ (outOfService s (pulseCl k) = false)) ∧
    (let s : State := lane 0 { PulseLane.reset with queue := [edge0], level := true }; let who := st0; let k := (0 : Nat); (s.released = true) ∧ (k < 256) ∧ (LaneRights s who k = true) ∧ (outOfService s (pulseCl k) = false)) ∧
    (let s : State := up; let who := st0; let k := (255 : Nat); (s.released = true) ∧ (k < 256) ∧ (LaneRights s who k = true) ∧ (outOfService s (pulseCl k) = false)) ∧
    (let s : State := up; let who := st0; let k := (255 : Nat); (s.released = true) ∧ (k < 256) ∧ (who.tenant = 0) ∧ (outOfService s (pulseCl k) = false)) ∧
    (let s : State := up; let who := st0; let k := (255 : Nat); (s.released = true) ∧ (k < 256) ∧ (who.tenant = 0) ∧ (outOfService s (pulseCl k) = false)) ∧
    (let s : State := up; let who := st0; let k := (255 : Nat); (s.released = true) ∧ (k < 256) ∧ (who.tenant = 0) ∧ (outOfService s (pulseCl k) = false)) ∧
    (let s : State := up; let who := st0; let k := (255 : Nat); (s.released = true) ∧ (k < 256) ∧ (LaneRights s who k = true) ∧ (outOfService s (pulseCl k) = false)) ∧
    (let s : State := up; let who := st0; let k := (255 : Nat); let v := (0xD000 : W32); (s.released = true) ∧ (k < 256) ∧ (who.tenant = 0) ∧ (outOfService s (pulseCl k) = false) ∧ (-12288 ≤ sgn 16 (fld v 0 16)) ∧ (sgn 16 (fld v 0 16) ≤ 0)) ∧
    (let s : State := up; let who := st0; let k := (255 : Nat); (s.released = true) ∧ (k < 256) ∧ (who.tenant = 0) ∧ (outOfService s (pulseCl k) = false)) := by
  iterate 8
    apply And.intro
    · decide +kernel
  decide +kernel

/-- The hypotheses of each clause of Calibration are met. -/
theorem witness_calibration :
    (let s : State := lane 255 { PulseLane.reset with cal := { CalState.reset with due := .turn } }; let k := (255 : Nat); (s.released = true) ∧ (k < 256) ∧ (nextVisit s k = true)) ∧
    (let s : State := lane 255 { PulseLane.reset with cal := { CalState.reset with busy := true } }; let k := (255 : Nat); (s.released = true) ∧ (k < 256) ∧ ((pulse s k).cal.busy = true) ∧ ((pulse s k).cal.awaits = false)) ∧
    (let s : State := { up with byre := { Byre.reset with warm := true, spots := BitVec.allOnes 256 } }; let k := (255 : Nat); (s.released = true) ∧ (k < 256) ∧ (s.byre.warm = true) ∧ (fld s.byre.spots k 1 = 1)) ∧
    (let s : State := stampLane 255 { StampLane.reset with cal := { CalState.reset with due := .now } }; let k := (255 : Nat); (s.released = true) ∧ (k < 256) ∧ (nextPass s k = true)) ∧
    (let s : State := stampLane 255 { StampLane.reset with cal := { CalState.reset with busy := true } }; let k := (255 : Nat); let m := flatCounts; (s.released = true) ∧ (k < 256) ∧ ((stamp s k).cal.busy = true) ∧ (m.counts.length = 64) ∧ (lsum m.counts = passSamples (stamp s k).cal)) := by
  decide +kernel

/-- The hypotheses of each clause of StampPath are met. -/
theorem witness_stampPath :
    (let s : State := { stampLane 255 { StampLane.reset with cfg := 9 } with fr := ticking.fr }; let k := (255 : Nat); let cmpB := false; let level := true; let x := (20000 : Nat); let bin := (63 : Nat); (s.released = true) ∧ (k < 256) ∧ (bin < 64) ∧ (cmpState (stamp s k) cmpB ≠ level) ∧ (s.fr.tickLc ≤ x / 16384) ∧ (lc s ≤ x / 16384 + 8) ∧ (comparatorsTaken s = false)) ∧
    (let s : State := stampLane 255 { StampLane.reset with buf := [capture0] }; let k := (255 : Nat); let x := capture0; let rest := ([] : List Capture); (s.released = true) ∧ (k < 256) ∧ ((stamp s k).buf = x :: rest) ∧ ((stamp s k).queue.length < 256)) ∧
    (let s : State := stampLane 255 { StampLane.reset with pair := some time0 }; let k := (255 : Nat); let d := time0; (s.released = true) ∧ (k < 256) ∧ ((stamp s k).pair = some d) ∧ ((stamp s k).buf.any (·.trail) = false) ∧ ((stamp s k).queue.length < 256)) ∧
    (let s : State := stampLane 255 { StampLane.reset with queue := [hit0] }; let c := (31 : Nat); let k := (255 : Nat); let m := (0 : Nat); let h := hit0; let rest := ([] : List Hit); (s.released = true) ∧ (c < 32) ∧ (16 ≤ c) ∧ (k < 256) ∧ (stampCl k = c) ∧ (outOfService s c = false) ∧ (quarantined s c = false) ∧ (recTurn s c = none) ∧ ((stamp s k).queue = h :: rest) ∧ (laneReady s k = some m) ∧ (((List.range 16).all fun j => 16 * (c - 16) + j == k || (laneReady s (16 * (c - 16) + j)).isNone) = true)) ∧
    (let s : State := setCtx 64 { Ctx.reset with recs := [rec0] } up; let c := (1 : Nat); let x := (64 : Nat); let r := rec0; let rest := ([] : List ProgRec); (s.released = true) ∧ (c < 16) ∧ (outOfService s c = false) ∧ (quarantined s c = false) ∧ ((cluster s c).recHalf = none) ∧ (recTurn s c = some x) ∧ ((ctx s x).recs = r :: rest) ∧ (r.w1 = none)) := by
  decide +kernel

/-- The hypotheses of each clause of StampTiming are met. -/
theorem witness_stampTiming :
    (let s : State := stampLane 255 { StampLane.reset with thrPend := some thr0, settling := some (0, 99999) }; let k := (255 : Nat); let p := thr0; (s.released = true) ∧ (k < 256) ∧ ((stamp s k).thrPend = some p) ∧ (blankedAt (stamp s k) ((lc s + 1) * 16384) = true)) ∧
    (let s : State := stampLane 255 { StampLane.reset with oneShotAt := [7] }; let k := (255 : Nat); let one := true; let n := (7 : Nat); (s.released = true) ∧ (k < 256) ∧ (startOf (stamp s k) one = some n)) ∧
    (let s : State := stampLane 255 { StampLane.reset with oneShot := some (0, 99999), sA := true }; let k := (255 : Nat); (s.released = true) ∧ (k < 256) ∧ (blankEnds (stamp s k) ≠ [])) ∧
    (let s : State := stampLane 255 { StampLane.reset with windowOpen := true, window := some 65536 }; let k := (255 : Nat); let e := (65536 : Nat); (s.released = true) ∧ (k < 256) ∧ ((stamp s k).window = some e) ∧ ((stamp s k).held = false)) := by
  decide +kernel

/-- The hypotheses of each clause of StampLaneWrites are met. -/
theorem witness_stampLaneWrites :
    (let s : State := up; let who := st0; let k := (255 : Nat); (s.released = true) ∧ (k < 256) ∧ (StampRights s who k = true) ∧ (outOfService s (stampCl k) = false)) ∧
    (let s : State := up; let who := st0; let k := (255 : Nat); (s.released = true) ∧ (k < 256) ∧ (StampRights s who k = true) ∧ (outOfService s (stampCl k) = false)) ∧
    (let s : State := up; let who := st0; let k := (255 : Nat); (s.released = true) ∧ (k < 256) ∧ (StampRights s who k = true) ∧ (outOfService s (stampCl k) = false)) ∧
    (let s : State := up; let who := st0; let k := (255 : Nat); (s.released = true) ∧ (k < 256) ∧ (who.tenant = 0) ∧ (outOfService s (stampCl k) = false)) ∧
    (let s : State := up; let who := st0; let k := (255 : Nat); (s.released = true) ∧ (k < 256) ∧ (who.tenant = 0) ∧ (outOfService s (stampCl k) = false)) ∧
    (let s : State := up; let who := st0; let k := (255 : Nat); (s.released = true) ∧ (k < 256) ∧ (who.tenant = 0) ∧ (outOfService s (stampCl k) = false)) ∧
    (let s : State := up; let who := st0; let k := (255 : Nat); (s.released = true) ∧ (k < 256) ∧ (StampRights s who k = true) ∧ (outOfService s (stampCl k) = false) ∧ (held s (stampCl k) = none)) ∧
    (let s : State := up; let who := st0; let k := (255 : Nat); (s.released = true) ∧ (k < 256) ∧ (who.tenant = 0) ∧ (outOfService s (stampCl k) = false)) ∧
    (let s : State := up; let who := st0; let k := (255 : Nat); (s.released = true) ∧ (k < 256) ∧ (who.tenant = 0) ∧ (outOfService s (stampCl k) = false)) := by
  iterate 8
    apply And.intro
    · decide +kernel
  decide +kernel

/-- The hypotheses of each clause of FrequencyMeasurement are met. -/
theorem witness_frequencyMeasurement :
    (let s : State := up; let who := st0; let k := (255 : Nat); (s.released = true) ∧ (k < 256) ∧ (StampRights s who k = true) ∧ (outOfService s (stampCl k) = false) ∧ (held s (stampCl k) = none)) ∧
    (let s : State := up; let who := st0; let k := (255 : Nat); (s.released = true) ∧ (k < 256) ∧ (StampRights s who k = true) ∧ (outOfService s (stampCl k) = false)) ∧
    (let s : State := setMeas 255 { Measure.reset with state := .running } up; let k := (255 : Nat); (s.released = true) ∧ (k < 256)) ∧
    (let s : State := setMeas 255 { Measure.reset with finish := [(Gate.empty, 5, 105)] } up; let k := (255 : Nat); let n := (5 : Nat); let ready := (105 : Nat); let g := Gate.empty; let rest := ([] : List (Gate × Nat × Nat)); (s.released = true) ∧ (k < 256) ∧ ((meas s k).finish = (g, n, ready) :: rest)) := by
  decide +kernel

/-- The words of the integer instructions, each with the instruction it stands for (Table 8-4). -/
def intWords : List (IntOp × W32) :=
  [(.add, 0x08210008), (.sub, 0x0C210008), (.and, 0x10210008), (.or, 0x1484B852), (.xor, 0x18210008), (.shl, 0x1C210004),
   (.shr, 0x1C210024), (.sra, 0x1C210044), (.mul, 0x20210003), (.min, 0x24210003), (.max, 0x28210003), (.cmp, 0x2C070005),
   (.li, 0x30A00010), (.lui, 0x3480051E), (.add, 0x04210800), (.sra, 0x04210807)]

theorem witness_integerInstructions :
    intWords.all (fun p => Issues (prog 1 p.2 regs0) 1 64 (.int p.1) p.2) = true := by
  decide +kernel

/-- The hypotheses of each clause of TimeInstructions are met. -/
theorem witness_timeInstructions :
    (let s : State := prog 1 0x40980003 regs0; let c := (1 : Nat); let x := (64 : Nat); let w := (0x40980003 : W32); (Issues s c x .tadd w = true)) ∧
    (let s : State := prog 1 0x44900001 regs0; let c := (1 : Nat); let x := (64 : Nat); let w := (0x44900001 : W32); (Issues s c x .tsub w = true)) ∧
    (let s : State := prog 1 0x48100001 regs0; let c := (1 : Nat); let x := (64 : Nat); let w := (0x48100001 : W32); (Issues s c x .tcmp w = true)) ∧
    (let s : State := prog 1 0x4C244600 regs0; let c := (1 : Nat); let x := (64 : Nat); let w := (0x4C244600 : W32); (Issues s c x .tscl w = true) ∧ (fld w 17 1 = 0)) ∧
    (let s : State := prog 1 0x4CA20800 regs0; let c := (1 : Nat); let x := (64 : Nat); let w := (0x4CA20800 : W32); (Issues s c x .tscl w = true) ∧ (fld w 17 1 = 1)) ∧
    (let s : State := prog 1 0x51040000 regs0; let c := (1 : Nat); let x := (64 : Nat); let w := (0x51040000 : W32); (Issues s c x .tld w = true) ∧ (offsetFault (ctx s x) (dataOffset s x w) = none) ∧ (dataBad s c (dataWord (ctx s x) (dataOffset s x w)) = false)) ∧
    (let s : State := prog 1 0x51040004 regs0; let c := (1 : Nat); let x := (64 : Nat); let w := (0x51040004 : W32); let f := (5 : Nat); (Issues s c x .tld w = true) ∧ (offsetFault (ctx s x) (dataOffset s x w) = some f)) ∧
    (let s : State := prog 1 0x55040000 regs0; let c := (1 : Nat); let x := (64 : Nat); let w := (0x55040000 : W32); (Issues s c x .tst w = true) ∧ (offsetFault (ctx s x) (dataOffset s x w) = none)) ∧
    (let s : State := prog 1 0x55040040 regs0; let c := (1 : Nat); let x := (64 : Nat); let w := (0x55040040 : W32); let f := (4 : Nat); (Issues s c x .tst w = true) ∧ (offsetFault (ctx s x) (dataOffset s x w) = some f)) ∧
    (let s : State := prog 1 0x588C0000 regs0; let c := (1 : Nat); let x := (64 : Nat); let w := (0x588C0000 : W32); (Issues s c x .tnow w = true)) ∧
    (let s : State := prog 1 0x5C800001 regs0; let c := (1 : Nat); let x := (64 : Nat); let w := (0x5C800001 : W32); (Issues s c x .tfrm w = true)) := by
  iterate 10
    apply And.intro
    · decide +kernel
  decide +kernel

/-- The hypotheses of each clause of ControlInstructions are met. -/
theorem witness_controlInstructions :
    (let s : State := prog 1 0x6020FFFD regs0; let c := (1 : Nat); let x := (64 : Nat); let w := (0x6020FFFD : W32); (Issues s c x .bcond w = true)) ∧
    (let s : State := prog 1 0x6400FFF9 regs0; let c := (1 : Nat); let x := (64 : Nat); let w := (0x6400FFF9 : W32); let pc := (8186 : BitVec 13); (Issues s c x .j w = true) ∧ (jumpTarget s x w = some pc)) ∧
    (let s : State := prog 1 0x68000005 regs0; let c := (1 : Nat); let x := (64 : Nat); let w := (0x68000005 : W32); let pc := (6 : BitVec 13); (Issues s c x .call w = true) ∧ (jumpTarget s x w = some pc) ∧ ((ctx s x).r.rstk.length < 8)) ∧
    (let s : State := prog 1 0x70A0FFFC regs0; let c := (1 : Nat); let x := (64 : Nat); let w := (0x70A0FFFC : W32); (Issues s c x .loop w = true)) ∧
    (let s : State := prog 1 0x74000000 { regs0 with rstk := [17] }; let c := (1 : Nat); let x := (64 : Nat); let w := (0x74000000 : W32); let pc := (17 : BitVec 13); let rest := ([] : List (BitVec 13)); (Issues s c x .ret w = true) ∧ ((ctx s x).r.rstk = pc :: rest)) ∧
    (let s : State := prog 1 0x78000000 regs0; let c := (1 : Nat); let x := (64 : Nat); let w := (0x78000000 : W32); (Issues s c x .yield w = true)) ∧
    (let s : State := prog 1 0x7C000000 regs0; let c := (1 : Nat); let x := (64 : Nat); let w := (0x7C000000 : W32); (Issues s c x .halt w = true)) := by
  decide +kernel

/-- The hypotheses of each clause of LocksAndBudget are met. -/
theorem witness_locksAndBudget :
    (let s : State := prog 1 0x80000003 regs0; let c := (1 : Nat); let x := (64 : Nat); let w := (0x80000003 : W32); (Issues s c x .lock w = true) ∧ (1 + 4 * (fld w 0 6 + 1) ≤ left s x)) ∧
    (let s : State := locked; let c := (1 : Nat); let x := (64 : Nat); let w := (0x84000000 : W32); (Holds s c x = true) ∧ (wordAt s x = w) ∧ (mnemonicOf w = .unlock) ∧ (encodingDefined w = true) ∧ ((ctx s x).l = true) ∧ ((cluster s c).lock.isSome = true) ∧ ((ctx s x).stopPend = false) ∧ ((ctx s x).haltPend = false) ∧ (Quiet s (issueAt s c / 2) = true)) ∧
    (let s : State := prog 1 0x88A00000 regs0; let c := (1 : Nat); let x := (64 : Nat); let w := (0x88A00000 : W32); (Issues s c x .bud w = true)) ∧
    (let s : State := prog 1 0xFC000000 regs0; let c := (1 : Nat); let x := (64 : Nat); let w := (0xFC000000 : W32); (Holds s c x = true) ∧ (wordAt s x = w) ∧ (mnemonicOf w = .reserved) ∧ ((ctx s x).l = false) ∧ (1 ≤ left s x) ∧ (quantumOver s x (issueAt s c) = false) ∧ (switchDue s x (issueAt s c) = false) ∧ (Quiet s (issueAt s c / 2) = true)) ∧
    (let s : State := ready1; let c := (1 : Nat); let x := (64 : Nat); (s.released = true) ∧ (c < 32) ∧ (outOfService s c = false) ∧ ((cluster s c).run = none) ∧ (pick s c (readyOf s c) = some x) ∧ (4 + nextWorst s x ≤ left s x) ∧ (Quiet s (max s.now (cluster s c).next / 2) = true) ∧ ((readyOf s c).all (fun y => !(ctx s y).stopPend && !(ctx s y).haltPend && !(ctx s y).bpPend) = true)) := by
  decide +kernel

/-- The hypotheses of each clause of RequestInstructions are met. -/
theorem witness_requestInstructions :
    (let s : State := prog 1 0x8CA40000 regs0; let c := (1 : Nat); let x := (64 : Nat); let w := (0x8CA40000 : W32); (Issues s c x .reqPing w = true) ∧ (interruptAt { s with now := issueAt s c } x (issueAt s c) (2 * serviceLc c (issueAt s c) - (issueAt s c + 8)) (issueAt s c + 8) = none) ∧ (Quiet s (serviceLc c (issueAt s c) + 1) = true)) ∧
    (let s : State := prog 1 0x8CA40001 regs0; let c := (1 : Nat); let x := (64 : Nat); let w := (0x8CA40001 : W32); (Issues s c x .reqPubstat w = true) ∧ (interruptAt { s with now := issueAt s c } x (issueAt s c) (2 * serviceLc c (issueAt s c) - (issueAt s c + 8)) (issueAt s c + 8) = none) ∧ (Quiet s (serviceLc c (issueAt s c) + 1) = true)) ∧
    (let s : State := prog 1 0x8CA40002 regs0; let c := (1 : Nat); let x := (64 : Nat); let w := (0x8CA40002 : W32); (Issues s c x .reqDigest w = true) ∧ (interruptAt { s with now := issueAt s c } x (issueAt s c) (2 * serviceLc c (issueAt s c) - (issueAt s c + 8)) (issueAt s c + 8) = none) ∧ (Quiet s (serviceLc c (issueAt s c) + 1) = true)) ∧
    (let s : State := prog 1 0x8CA40003 regs0; let c := (1 : Nat); let x := (64 : Nat); let w := (0x8CA40003 : W32); (Issues s c x .reqTemp w = true) ∧ (interruptAt { s with now := issueAt s c } x (issueAt s c) (2 * serviceLc c (issueAt s c) - (issueAt s c + 8)) (issueAt s c + 8) = none) ∧ (Quiet s (serviceLc c (issueAt s c) + 1) = true) ∧ (service s (tenantOf s x) 1 = true)) ∧
    (let s : State := prog 1 0x8CA40010 regs0; let c := (1 : Nat); let x := (64 : Nat); let w := (0x8CA40010 : W32); (Issues s c x .reqUngate w = true) ∧ (interruptAt { s with now := issueAt s c } x (issueAt s c) (2 * serviceLc c (issueAt s c) - (issueAt s c + 8)) (issueAt s c + 8) = none) ∧ (Quiet s (serviceLc c (issueAt s c) + 1) = true) ∧ (service s (tenantOf s x) 2 = true)) ∧
    (let s : State := prog 1 0x8CA40020 regs0; let c := (1 : Nat); let x := (64 : Nat); let w := (0x8CA40020 : W32); (Issues s c x .reqPost w = true) ∧ (interruptAt { s with now := issueAt s c } x (issueAt s c) (2 * serviceLc c (issueAt s c) - (issueAt s c + 8)) (issueAt s c + 8) = none) ∧ (Quiet s (serviceLc c (issueAt s c) + 1) = true) ∧ (service s (tenantOf s x) 3 = true)) ∧
    (let s : State := modCtx 64 (fun u => { u with post := some { ticket := 7, message := 1, reply := some 99 } }) (prog 1 0x8CA40021 regs0); let c := (1 : Nat); let x := (64 : Nat); let w := (0x8CA40021 : W32); let m := (1 : W32); let v := (99 : W32); (Issues s c x .reqCollect w = true) ∧ (interruptAt { s with now := issueAt s c } x (issueAt s c) (2 * serviceLc c (issueAt s c) - (issueAt s c + 8)) (issueAt s c + 8) = none) ∧ (Quiet s (serviceLc c (issueAt s c) + 1) = true) ∧ (service s (tenantOf s x) 3 = true) ∧ ((ctx s x).post = some { ticket := (gOf s x (fB w)).toNat, message := m, reply := some v })) := by
  decide +kernel

/-- The hypotheses of each clause of EdgeInstructions are met. -/
theorem witness_edgeInstructions :
    (let s : State := prog 10 0xA0056C20 regs0; let c := (10 : Nat); let x := (640 : Nat); let w := (0xA0056C20 : W32); (Issues s c x .emit w = true) ∧ (pulseCheck x w s = none) ∧ (((lanesNamed s x w).all fun p => (pulse s p.1).direct.isNone) = true) ∧ (interruptAt { s with now := issueAt s c } x (issueAt s c) (emitAt s x w (issueAt s c) + 1 - (issueAt s c + 2)) (issueAt s c + 2) = none) ∧ (Quiet s (emitAt s x w (issueAt s c) / 2) = true)) ∧
    (let s : State := prog 10 0xA4056C24 regs0; let c := (10 : Nat); let x := (640 : Nat); let w := (0xA4056C24 : W32); (Issues s c x .emitp w = true) ∧ (pulseCheck x w s = none) ∧ (((lanesNamed s x w).all fun p => (pulse s p.1).direct.isNone) = true) ∧ (interruptAt { s with now := issueAt s c } x (issueAt s c) (emitAt s x w (issueAt s c) + 1 - (issueAt s c + 2)) (issueAt s c + 2) = none) ∧ (Quiet s (emitAt s x w (issueAt s c) / 2) = true)) ∧
    (let s : State := prog 10 0xA8256800 regs0; let c := (10 : Nat); let x := (640 : Nat); let w := (0xA8256800 : W32); (Issues s c x .gateOpen w = true) ∧ (pulseCheck x w s = none) ∧ (held s c = none)) ∧
    (let s : State := prog 10 0xA8056800 regs0; let c := (10 : Nat); let x := (640 : Nat); let w := (0xA8056800 : W32); (Issues s c x .gateClose w = true) ∧ (pulseCheck x w s = none)) ∧
    (let s : State := { prog 10 0xAC056801 { regs0 with g := [(1, 1)] } with regs := [(regAddr (.sgDOwn 10 1), 0x80000001)] }; let c := (10 : Nat); let x := (640 : Nat); let w := (0xAC056801 : W32); (Issues s c x .splayStart w = true) ∧ (descCheck x w s = none) ∧ (fld (gOf s x (fGw w)) 6 26 = 0) ∧ ((playback (boundaryDue (playLane s x w) (issueAt s c / 2) { s with now := issueAt s c }) (playLane s x w)).play = false) ∧ ((playback (boundaryDue (playLane s x w) (issueAt s c / 2) { s with now := issueAt s c }) (playLane s x w)).idleAt ≤ issueAt s c) ∧ (tbGated s (playLane s x w) = false) ∧ (held s c = none)) ∧
    (let s : State := setPlayback 173 { Playback.reset with play := true } (prog 10 0xAC256800 regs0); let c := (10 : Nat); let x := (640 : Nat); let w := (0xAC256800 : W32); (Issues s c x .splayStop w = true) ∧ (pulseCheck x w s = none)) ∧
    (let s : State := setPlayback 173 { Playback.reset with play := true } ({ prog 10 0xB0056801 { regs0 with g := [(1, 1)] } with regs := [(regAddr (.sgDOwn 10 1), 0x80000001)] }); let c := (10 : Nat); let x := (640 : Nat); let w := (0xB0056801 : W32); (Issues s c x .sjump w = true) ∧ (descCheck x w s = none) ∧ (fld (gOf s x (fGw w)) 6 26 = 0)) := by
  decide +kernel

/-- The hypotheses of each clause of EventInstructions are met. -/
theorem witness_eventInstructions :
    (let s : State := { prog 1 0xC0000105 regs0 with regs := [(regAddr (.evMcProd 5 0), 0x401)] }; let c := (1 : Nat); let x := (64 : Nat); let w := (0xC0000105 : W32); (Issues s c x .sig w = true) ∧ (sigCheck x w s = none)) ∧
    (let s : State := prog 1 0xC4000005 regs0; let c := (1 : Nat); let x := (64 : Nat); let w := (0xC4000005 : W32); (Issues s c x .wait w = true) ∧ (waitCheck x w s = none) ∧ ((ctx (attach x (fName w) s) x).con.pending = none)) ∧
    (let s : State := modCtx 64 (fun u => { u with con := { subject := some 5, pending := some dlv0, overrun := false } }) (prog 1 0xC4000005 regs0); let c := (1 : Nat); let x := (64 : Nat); let w := (0xC4000005 : W32); let e := dlv0; (Issues s c x .wait w = true) ∧ (waitCheck x w s = none) ∧ ((ctx s x).con.subject = some (fName w)) ∧ ((ctx s x).con.pending = some e)) ∧
    (let s : State := prog 1 0xC8000005 regs0; let c := (1 : Nat); let x := (64 : Nat); let w := (0xC8000005 : W32); (Issues s c x .poll w = true) ∧ (waitCheck x w s = none)) ∧
    (let s : State := prog 1 0xCC000105 regs0; let c := (1 : Nat); let x := (64 : Nat); let w := (0xCC000105 : W32); (Issues s c x .arm w = true) ∧ (armCheck x w s = none)) ∧
    (let s : State := prog 1 0xD0000205 regs0; let c := (1 : Nat); let x := (64 : Nat); let w := (0xD0000205 : W32); (Issues s c x .disarm w = true) ∧ (armCheck x w s = none)) ∧
    (let s : State := setCtx 2047 { running0 regs0 with state := .waiting, wait := some wait0 } ticking; let x := (2047 : Nat); let n := (9 : Nat); let k := wait0; (s.released = true) ∧ (x < 2048) ∧ (outOfService s (x / 64) = false) ∧ ((ctx s x).state = .waiting) ∧ ((ctx s x).wait = some k) ∧ (k.timeout = some n) ∧ ((ctx s x).stepping = false) ∧ (Quiet s (max (lc s) n) = true)) := by
  decide +kernel

/-- The hypotheses of each clause of StampInstructions are met. -/
theorem witness_stampInstructions :
    (let s : State := modStamp 16 (fun l => { l with cfg := 64, queue := [hit0] }) (prog 17 0xE080A010 regs0); let c := (17 : Nat); let x := (1088 : Nat); let w := (0xE080A010 : W32); (Issues s c x .hpop w = true) ∧ (stampCheck laneT x w s = none)) ∧
    (let s : State := prog 17 0xE4A00010 regs0; let c := (17 : Nat); let x := (1088 : Nat); let w := (0xE4A00010 : W32); (Issues s c x .hcnt w = true) ∧ (stampCheck laneI x w s = none)) ∧
    (let s : State := prog 17 0xE8800010 regs0; let c := (17 : Nat); let x := (1088 : Nat); let w := (0xE8800010 : W32); (Issues s c x .thr w = true) ∧ (stampCheck laneI x w s = none)) ∧
    (let s : State := prog 17 0xEC000010 regs0; let c := (17 : Nat); let x := (1088 : Nat); let w := (0xEC000010 : W32); (Issues s c x .blnkOne w = true) ∧ (stampCheck laneI x w s = none)) ∧
    (let s : State := prog 17 0xEC800110 regs0; let c := (17 : Nat); let x := (1088 : Nat); let w := (0xEC800110 : W32); (Issues s c x .blnkSet w = true) ∧ (stampCheck laneI x w s = none)) ∧
    (let s : State := prog 17 0xF0000110 regs0; let c := (17 : Nat); let x := (1088 : Nat); let w := (0xF0000110 : W32); (Issues s c x .measStart w = true) ∧ (stampCheck laneI x w s = none)) ∧
    (let s : State := prog 17 0xF0000210 regs0; let c := (17 : Nat); let x := (1088 : Nat); let w := (0xF0000210 : W32); (Issues s c x .measStop w = true) ∧ (stampCheck laneI x w s = none)) ∧
    (let s : State := prog 17 0xF4800210 regs0; let c := (17 : Nat); let x := (1088 : Nat); let w := (0xF4800210 : W32); (Issues s c x .mrd w = true) ∧ (stampCheck laneT x w s = none)) ∧
    (let s : State := { prog 1 0xF804A0A1 { regs0 with g := [(5, 5)] } with regs := [(regAddr (.spSCfg 5), 0x80000001)] }; let c := (1 : Nat); let x := (64 : Nat); let w := (0xF804A0A1 : W32); (Issues s c x .record w = true) ∧ (recCheck x w s = none)) := by
  iterate 8
    apply And.intro
    · decide +kernel
  decide +kernel

/-- The hypotheses of each clause of SegmentPlayback are met. -/
theorem witness_segmentPlayback :
    (let s : State := setPlayback 255 { Playback.reset with play := true, cnt := 2 } up; let k := (255 : Nat); (s.released = true) ∧ (k < 256) ∧ (fetchLane s (pulseCl k) = some k) ∧ (outOfService s (pulseCl k) = false) ∧ ((engineRead { s with now := max s.now (cluster s (pulseCl k)).sgAt } (pulseCl k) (((playback s k).addr + (playback s k).fetched) % 2048)).2 = false)) ∧
    (let s : State := setPlayback 255 { Playback.reset with play := true, buf := [{ idx := 0, e := edgeIn, fromLc := 5 }] } ticking; let k := (255 : Nat); let m := (30 : Nat); let h := ({ idx := 0, e := edgeIn, fromLc := 5 } : SegEntry); let rest := ([] : List SegEntry); (s.released = true) ∧ (k < 256) ∧ ((playback s k).play = true) ∧ ((playback s k).buf = h :: rest) ∧ ((pulse s k).seg = none) ∧ (queuedCount (pulse s k) ≤ 61) ∧ (presentLc s k (max (lc s) h.fromLc) h.e.time = some m)) ∧
    (let s : State := setPlayback 255 { Playback.reset with play := true, jumpAt := [(7, 63), (9, 1)] } up; let k := (255 : Nat); let n := (7 : Nat); let d := (63 : Nat); let rest := ([(9, 1)] : List (Nat × Nat)); (s.released = true) ∧ (k < 256) ∧ ((playback s k).jumpAt = (n, d) :: rest) ∧ ((playback (boundaryDue k (max n (lc s) - 1) { s with now := max s.now (2 * n) }) k).jumpAt = (n, d) :: rest) ∧ (rest.all (fun j => decide (max n (lc s) < j.1)) = true)) ∧
    (let s : State := setPlayback 255 { Playback.reset with play := true, stopAt := some 9, jump := some 3 } up; let k := (255 : Nat); let n := (9 : Nat); (s.released = true) ∧ (k < 256) ∧ ((playback s k).play = true) ∧ ((playback s k).stopAt = some n)) ∧
    (let s : State := setPlayback 255 { Playback.reset with play := true } up; let k := (255 : Nat); let who := st0; (s.released = true) ∧ (k < 256) ∧ (LaneRights s who k = true) ∧ (outOfService s (pulseCl k) = false)) := by
  decide +kernel

/-- The hypotheses of each clause of SeparatorRecordsAndFrames are met. -/
theorem witness_separatorRecordsAndFrames :
    (let s : State := { up with regs := [(regAddr (.spSCfg 5), 0x80000001), (regAddr (.spSQuota 5), 1)], sp := { Sep.reset with inbound := [{ tenant := 1, stream := some 5, frame := 3, words := [0x1000000000000000], pos := 0 }], frames := [{ frame := 3, no := 3, gen := 0, epoch := 0, start := 0, closed := none, stop := 5242880, wins := [], keys := [], flags := 0, digest := 0 }] } }; let m := (5 : Nat); let r := ({ tenant := 1, stream := some 5, frame := 3, words := [0x1000000000000000], pos := 0 } : SpRec); let rest := ([] : List SpRec); (s.released = true) ∧ (s.sp.inbound = r :: rest) ∧ (progTrig r = none) ∧ (removed s r = false) ∧ (r.stream = some m) ∧ (streamOn s m = true) ∧ (streamOwner s m = r.tenant) ∧ ((s.sp.frames.any fun f => f.no == r.frame) = true) ∧ (streamUsed s m + r.words.length ≤ 256 * rfld s (.spSQuota m) 0 11)) ∧
    (let s : State := { up with regs := [(regAddr (.spSCfg 5), 0x80000001), (regAddr (.spSQuota 5), 1)], sp := { Sep.reset with inbound := [{ tenant := 1, stream := some 5, frame := 3, words := [0x1000000000000000], pos := 0 }], frames := [{ frame := 4, no := 4, gen := 0, epoch := 0, start := 0, closed := none, stop := 5242880, wins := [], keys := [], flags := 0, digest := 0 }] } }; let m := (5 : Nat); let r := ({ tenant := 1, stream := some 5, frame := 3, words := [0x1000000000000000], pos := 0 } : SpRec); let rest := ([] : List SpRec); (s.released = true) ∧ (s.sp.inbound = r :: rest) ∧ (progTrig r = none) ∧ (removed s r = false) ∧ (r.stream = some m) ∧ (streamOn s m = true) ∧ (streamOwner s m = r.tenant) ∧ ((s.sp.frames.any fun f => f.no == r.frame) = false)) ∧
    (let s : State := { up with regs := [(regAddr (.spSCfg 5), 0x80000001), (regAddr (.spSQuota 5), 1)], sp := { Sep.reset with frames := [{ frame := 3, no := 3, gen := 0, epoch := 0, start := 0, closed := some 320, stop := 5242880, wins := [], keys := [], flags := 0, digest := 0 }] } }; let f := ({ frame := 3, no := 3, gen := 0, epoch := 0, start := 0, closed := some 320, stop := 5242880, wins := [], keys := [], flags := 0, digest := 0 } : OpenFrame); let rest := ([] : List OpenFrame); let n := (320 : Nat); (s.released = true) ∧ (s.sp.frames = f :: rest) ∧ (f.closed = some n)) := by
  decide +kernel

/-- The hypotheses of each clause of SeparatorPorts are met. -/
theorem witness_separatorPorts :
    (let s : State := { setPort 1 { Port.reset with up := true, rest := [7], sending := some (.item, 0) } up with regs := [(regAddr (.ptCfg 1), 1)] }; let p := (1 : Nat); let e := (0 : Nat); let w := Sending.item; (s.released = true) ∧ (p = 0 ∨ p = 1 ∨ p = 3) ∧ (maySend s p = true) ∧ ((port s p).rest ≠ []) ∧ ((port s p).sending = some (w, e))) ∧
    (let s : State := setStream 5 { Stream.reset with queue := [{ stream := 5, frame := 3, no := 3, gen := 0, epoch := 0, digest := 0, flags := 0, loss := 0, srcmap := 1, recs := [{ tenant := 1, stream := some 5, frame := 3, words := [0x1000000000000000], pos := 0 }], key := KeyEntry.reset, resume := none, hb := false, hbFlag := false, rdy := true, hold := false, readyLc := 12, waitLc := 0 }] } { setPort 0 { Port.reset with up := true } ticking with regs := [(regAddr (.ptCfg 0), 1), (regAddr (.spSCfg 5), 0x80000001), (regAddr (.spSQuota 5), 0x00100001)] }; let p := (0 : Nat); let m := (5 : Nat); let n := (12 : Nat); let a := (12 : Nat); let as := ([] : List Nat); let q := ({ stream := 5, frame := 3, no := 3, gen := 0, epoch := 0, digest := 0, flags := 0, loss := 0, srcmap := 1, recs := [{ tenant := 1, stream := some 5, frame := 3, words := [0x1000000000000000], pos := 0 }], key := KeyEntry.reset, resume := none, hb := false, hbFlag := false, rdy := true, hold := false, readyLc := 12, waitLc := 0 } : Packet); let rest := ([] : List Packet); (s.released = true) ∧ (p = 0 ∨ p = 1 ∨ p = 3) ∧ (maySend s p = true) ∧ ((port s p).rest = []) ∧ ((p = 3 → endReady s = none)) ∧ (((heldStreams s).filter fun j => portOf s j == p).filterMap (headLc s) = a :: as) ∧ (n = slotFrom p (max (startLc s p) (as.foldl min a))) ∧ ((drr (65536 * ((readyStreams (toLc n (xoffs s)) p n).length + 1)) (readyStreams (toLc n (xoffs s)) p n) (readyStreams (toLc n (xoffs s)) p n) (toLc n (xoffs s))).1 = some m) ∧ ((stream s m).replays = []) ∧ ((stream s m).queue = q :: rest) ∧ (q.hb = false) ∧ (((tenantNos s).all fun u => (tenant s u).leaving.isNone) = true)) ∧
    (let s : State := { up with regs := [(regAddr (.ptCfg 3), 1), (regAddr .spChain, 0x10)], sp := { Sep.reset with ends := [(8, 9)] } }; let k := (9 : Nat); (s.released = true) ∧ (maySend s 3 = true) ∧ ((port s 3).rest = []) ∧ (endReady s = some k)) ∧
    (let s : State := { setPort 3 { Port.reset with up := true } up with regs := [(regAddr .spChain, 0x11)] }; let f := ({ kind := 3, flags := 0, nwords := 1, lseq := 0, body := [0xFC00000000000009], fcs := fcsOf 3 0 1 0 [0xFC00000000000009], clean := true } : LinkFrame); let w := (0xFC00000000000009 : W64); (s.released = true) ∧ (chainPos s ≠ 0) ∧ ((port s 3).up = true) ∧ (linkOk 3 f = true) ∧ (f.kind = 3) ∧ (f.flags = 0) ∧ ((port s 3).part = none) ∧ (f.body = [w]) ∧ (fld w 56 8 = 0xFC)) ∧
    (let s : State := { setPort 3 { Port.reset with up := true } up with regs := [(regAddr .spChain, 0x11)] }; let f := ({ kind := 3, flags := 1, nwords := 1, lseq := 0, body := [0xFC00000000000009], fcs := fcsOf 3 1 1 0 [0xFC00000000000009], clean := true } : LinkFrame); (s.released = true) ∧ (chainPos s ≠ 0) ∧ ((port s 3).up = true) ∧ (linkOk 3 f = true) ∧ (f.kind = 3) ∧ (f.flags = 1) ∧ ((port s 3).part = none)) ∧
    (let s : State := { setPort 3 { Port.reset with up := true } up with regs := [(regAddr .spChain, 0x11)] }; let f := ({ kind := 3, flags := 1, nwords := 1, lseq := 0, body := [0xFC00000000000009], fcs := fcsOf 3 1 1 0 [0xFC00000000000009], clean := false } : LinkFrame); (s.released = true) ∧ (chainPos s ≠ 0) ∧ ((port s 3).up = true) ∧ (linkOk 3 f = false)) ∧
    (let s : State := setStream 5 { Stream.reset with queue := [{ ({ stream := 5, frame := 3, no := 3, gen := 0, epoch := 0, digest := 0, flags := 0, loss := 0, srcmap := 1, recs := [{ tenant := 1, stream := some 5, frame := 3, words := [0x1000000000000000], pos := 0 }], key := KeyEntry.reset, resume := none, hb := false, hbFlag := false, rdy := true, hold := false, readyLc := 12, waitLc := 0 } : Packet) with rdy := false }] } up; (s.released = true) ∧ ((((heldStreams s).flatMap fun m => (stream s m).queue.filter fun q => !q.rdy) ≠ []))) ∧
    (let s : State := up; (s.released = true)) := by
  decide +kernel

/-- The hypotheses of each clause of EventChannels are met. -/
theorem witness_eventChannels :
    (let s : State := { up with regs := [(regAddr (.clCcCtl 31 31), 0x80000000)], ev := { Ev.reset with asserted := [(9, 1279)] } }; let c := (31 : Nat); let n := (31 : Nat); let p := ((9, 1279) : Nat × Nat); (s.released = true) ∧ (c < 32) ∧ (n < 32) ∧ (s.ev.asserted.find? (·.2 == (256 + 32 * c + n)) = some p) ∧ (passes s (256 + 32 * c + n) = true) ∧ (s.ev.reqs = []) ∧ (s.ev.pendW = []) ∧ (s.fl.clears = []) ∧ (s.fl.cleared = [])) ∧
    (let s : State := { up with regs := [(regAddr (.clCcCtl 31 31), 0)], ev := { Ev.reset with asserted := [(9, 1279)] } }; let c := (31 : Nat); let n := (31 : Nat); let p := ((9, 1279) : Nat × Nat); (s.released = true) ∧ (c < 32) ∧ (n < 32) ∧ (s.ev.asserted.find? (·.2 == (256 + 32 * c + n)) = some p) ∧ (passes s (256 + 32 * c + n) = false) ∧ (s.ev.reqs = []) ∧ (s.ev.pendW = []) ∧ (s.fl.clears = []) ∧ (s.fl.cleared = [])) ∧
    (let s : State := { up with regs := [(regAddr (.evMcCtl 247), 0x80000000)], ev := { Ev.reset with asserted := [(9, 247)] } }; let n := (247 : Nat); let delay := (61440 : Nat); let p := ((9, 247) : Nat × Nat); (s.released = true) ∧ (n < 248) ∧ (delay ≤ 61440) ∧ (s.ev.asserted.find? (·.2 == n) = some p) ∧ (passes s n = true) ∧ (s.ev.reqs = []) ∧ (s.ev.pendW = []) ∧ (s.fl.clears = []) ∧ (s.fl.cleared = [])) ∧
    (let s : State := { up with regs := [(regAddr (.evMcCtl 247), 0)], ev := { Ev.reset with asserted := [(9, 247)] } }; let n := (247 : Nat); let delay := (61440 : Nat); let p := ((9, 247) : Nat × Nat); (s.released = true) ∧ (n < 248) ∧ (delay ≤ 61440) ∧ (s.ev.asserted.find? (·.2 == n) = some p) ∧ (passes s n = false) ∧ (s.ev.reqs = []) ∧ (s.ev.pendW = []) ∧ (s.fl.clears = []) ∧ (s.fl.cleared = [])) ∧
    (let s : State := { up with ev := { Ev.reset with reqs := [{ due := 9, obj := 2111, on := true }, { due := 11, obj := 7, on := false }] } }; let r := ({ due := 9, obj := 2111, on := true } : EnReq); (s.released = true) ∧ (r ∈ s.ev.reqs) ∧ ((s.ev.reqs.all fun q => decide (r.due ≤ q.due) && (decide (q.obj < 1280) || decide (2048 ≤ q.obj) && decide (q.obj < 2112))) = true)) := by
  decide +kernel

/-- The hypotheses of each clause of EventWrites are met. -/
theorem witness_eventWrites :
    (let s : State := up; let who := st0; let obj := (1279 : Nat); let v := (0x80000000 : W32); (s.released = true) ∧ (obj < 1280) ∧ (obj < 248 ∨ 256 ≤ obj) ∧ ((match clusterAt (regAddr (ctlOf obj)) with | some c => outOfService s c | none => false) = false) ∧ (writerActive s who.tenant = true) ∧ (mayWrite s who.tenant (ctlOf obj) v = true) ∧ ((who.tenant = 0 → (v &&& stewardPart (ctlOf obj)) = (reg (committed s) (ctlOf obj) &&& stewardPart (ctlOf obj))))) ∧
    (let s : State := up; let who := ({ path := .p0, tenant := 9 } : Who); let obj := (1279 : Nat); let v := (0x80000000 : W32); (s.released = true) ∧ (obj < 1280) ∧ (mayWrite s who.tenant (ctlOf obj) v = false)) ∧
    (let s : State := up; let who := st0; let g := (63 : Nat); let v := (0x80000000 : W32); (s.released = true) ∧ (g < 64) ∧ (writerActive s who.tenant = true) ∧ (mayWrite s who.tenant (.evGrpCfg g) v = true) ∧ ((who.tenant = 0 → (v &&& stewardPart (.evGrpCfg g)) = (reg (committed s) (.evGrpCfg g) &&& stewardPart (.evGrpCfg g))))) ∧
    (let s : State := up; let who := st0; let c := (31 : Nat); let n := (15 : Nat); let v := (0x8001C005 : W32); (s.released = true) ∧ (c < 32) ∧ (n < 16) ∧ (outOfService s c = false) ∧ (writerActive s who.tenant = true) ∧ (mayWrite s who.tenant (.clLev c n) v = true)) ∧
    (let s : State := up; let who := st0; let v := (0x80000007 : W32); (s.released = true) ∧ (who.tenant = 0) ∧ (regBad (committed s) 0 .evAdcSel v = false) ∧ (journalRefused s 0 none 1 = none)) ∧
    (let s : State := up; let who := ({ path := .p0, tenant := 9 } : Who); (s.released = true) ∧ (who.tenant ≠ 0)) ∧
    (let s : State := up; let who := ({ path := .p0, tenant := 9 } : Who); let v := (0x80000000 : W32); let c := (31 : Nat); let n := (15 : Nat); (s.released = true) ∧ (c < 32) ∧ (n < 16) ∧ (mayWrite s who.tenant (.clLev c n) v = false)) ∧
    (let s : State := up; let who := ({ path := .p0, tenant := 9 } : Who); let v := (0x80000000 : W32); let g := (63 : Nat); (s.released = true) ∧ (g < 64) ∧ (mayWrite s who.tenant (.evGrpCfg g) v = false)) := by
  decide +kernel

/-- The hypotheses of each clause of CommandVerification are met. -/
theorem witness_commandVerification :
    wellFormed (cmdFrame .mspi 0 0x46 5 []).words = true ∧
    (let s : State := up_keyless; let f := cmdFrame .mspi 0 0x46 5 []; (s.released = true) ∧ (canVerify s = true) ∧ (PathFree s f.path = true) ∧ (cOp f.words = 0x46) ∧ (authentic s f.words = false)) ∧
    authentic (keyed) (cmdFrame .mspi 0 0x46 0 []).words = true ∧
    wellFormed (cmdFrame .mspi 0 0x46 0 []).words = true ∧
    (let s : State := keyed; let f := cmdFrame .mspi 0 0x46 0 []; (s.released = true) ∧ (canVerify s = true) ∧ (PathFree s f.path = true) ∧ (cOp f.words = 0x46) ∧ (cCounter f.words ≤ (tenant s (cTenant f.words)).last)) ∧
    authentic (keyed) (cmdFrame .mspi 0 0x46 101 []).words = true ∧
    wellFormed (cmdFrame .mspi 0 0x46 101 []).words = true ∧
    (let s : State := keyed; let f := cmdFrame .mspi 0 0x46 101 []; (s.released = true) ∧ (canVerify s = true) ∧ (PathFree s f.path = true) ∧ (cOp f.words = 0x46) ∧ ((tenant s (cTenant f.words)).last < cCounter f.words) ∧ ((keyOf s (cTenant f.words)).resv < cCounter f.words)) ∧
    wellFormed (cmdFrame .mspi 0 0x07 5 []).words = true ∧
    (let s : State := up_keyless; let f := cmdFrame .mspi 0 0x07 5 []; (s.released = true) ∧ (canVerify s = true) ∧ (PathFree s f.path = true) ∧ (opDefined (cOp f.words) = false) ∧ (authentic s f.words = false)) ∧
    authentic (keyed) (cmdFrame .mspi 0 0x07 0 []).words = true ∧
    wellFormed (cmdFrame .mspi 0 0x07 0 []).words = true ∧
    (let s : State := keyed; let f := cmdFrame .mspi 0 0x07 0 []; (s.released = true) ∧ (canVerify s = true) ∧ (PathFree s f.path = true) ∧ (opDefined (cOp f.words) = false) ∧ (cCounter f.words ≤ (tenant s (cTenant f.words)).last)) ∧
    authentic (keyed) (cmdFrame .mspi 0 0x07 101 []).words = true ∧
    wellFormed (cmdFrame .mspi 0 0x07 101 []).words = true ∧
    (let s : State := keyed; let f := cmdFrame .mspi 0 0x07 101 []; (s.released = true) ∧ (canVerify s = true) ∧ (PathFree s f.path = true) ∧ (opDefined (cOp f.words) = false) ∧ ((tenant s (cTenant f.words)).last < cCounter f.words) ∧ ((keyOf s (cTenant f.words)).resv < cCounter f.words)) ∧
    authentic (keyed) (cmdFrame .mspi 0 0x07 5 []).words = true ∧
    wellFormed (cmdFrame .mspi 0 0x07 5 []).words = true ∧
    (let s : State := keyed; let f := cmdFrame .mspi 0 0x07 5 []; (s.released = true) ∧ (Reaches s f (cOp f.words) = true) ∧ (opDefined (cOp f.words) = false) ∧ (cTenant f.words = 0 ∨ (tenant s (cTenant f.words)).state ≠ .suspended)) ∧
    authentic (setTenant 1 { ten1 with state := .suspended } keyed) (cmdFrame .mspi 1 0x07 5 []).words = true ∧
    wellFormed (cmdFrame .mspi 1 0x07 5 []).words = true ∧
    (let s : State := setTenant 1 { ten1 with state := .suspended } keyed; let f := cmdFrame .mspi 1 0x07 5 []; (s.released = true) ∧ (Reaches s f (cOp f.words) = true) ∧ (opDefined (cOp f.words) = false) ∧ (cTenant f.words ≠ 0) ∧ ((tenant s (cTenant f.words)).state = .suspended)) := by
  apply And.intro (wellFormed_cmdFrame _ _ _ _ _ (by decide +kernel) (by decide +kernel))
  iterate 1
    apply And.intro
    · decide +kernel
  apply And.intro (authentic_cmdFrame _ _ _ _ _ _ (by decide +kernel) (by decide +kernel) (by decide +kernel) (by decide +kernel))
  apply And.intro (wellFormed_cmdFrame _ _ _ _ _ (by decide +kernel) (by decide +kernel))
  iterate 1
    apply And.intro
    · decide +kernel
  apply And.intro (authentic_cmdFrame _ _ _ _ _ _ (by decide +kernel) (by decide +kernel) (by decide +kernel) (by decide +kernel))
  apply And.intro (wellFormed_cmdFrame _ _ _ _ _ (by decide +kernel) (by decide +kernel))
  iterate 1
    apply And.intro
    · decide +kernel
  apply And.intro (wellFormed_cmdFrame _ _ _ _ _ (by decide +kernel) (by decide +kernel))
  iterate 1
    apply And.intro
    · decide +kernel
  apply And.intro (authentic_cmdFrame _ _ _ _ _ _ (by decide +kernel) (by decide +kernel) (by decide +kernel) (by decide +kernel))
  apply And.intro (wellFormed_cmdFrame _ _ _ _ _ (by decide +kernel) (by decide +kernel))
  iterate 1
    apply And.intro
    · decide +kernel
  apply And.intro (authentic_cmdFrame _ _ _ _ _ _ (by decide +kernel) (by decide +kernel) (by decide +kernel) (by decide +kernel))
  apply And.intro (wellFormed_cmdFrame _ _ _ _ _ (by decide +kernel) (by decide +kernel))
  iterate 1
    apply And.intro
    · decide +kernel
  apply And.intro (authentic_cmdFrame _ _ _ _ _ _ (by decide +kernel) (by decide +kernel) (by decide +kernel) (by decide +kernel))
  apply And.intro (wellFormed_cmdFrame _ _ _ _ _ (by decide +kernel) (by decide +kernel))
  iterate 1
    apply And.intro
    · decide +kernel
  apply And.intro (authentic_cmdFrame _ _ _ _ _ _ (by decide +kernel) (by decide +kernel) (by decide +kernel) (by decide +kernel))
  apply And.intro (wellFormed_cmdFrame _ _ _ _ _ (by decide +kernel) (by decide +kernel))
  decide +kernel

/-- The hypotheses of each clause of AccessCommands are met. -/
theorem witness_accessCommands :
    authentic (keyed) (cmdFrame .mspi 0 0x01 5 [0x0000000200000000]).words = true ∧
    wellFormed (cmdFrame .mspi 0 0x01 5 [0x0000000200000000]).words = true ∧
    (let s : State := keyed; let f := cmdFrame .mspi 0 0x01 5 [0x0000000200000000]; (s.released = true) ∧ (Reaches s f 0x01 = true) ∧ (Permits (taking s f) f 0x01 = true) ∧ (fld (pw (cPayload f.words) 0) 0 32 % 4 = 0)) ∧
    authentic (keyed) (cmdFrame .mspi 0 0x02 5 [0x0000101800000009]).words = true ∧
    wellFormed (cmdFrame .mspi 0 0x02 5 [0x0000101800000009]).words = true ∧
    (let s : State := keyed; let f := cmdFrame .mspi 0 0x02 5 [0x0000101800000009]; let e := (0x0000101800000009 : W64); (s.released = true) ∧ (Reaches s f 0x02 = true) ∧ (Permits (taking s f) f 0x02 = true) ∧ (cPayload f.words = [e]) ∧ ((regWrite { path := f.path, tenant := cTenant f.words } (cSchedFrame f.words) (fld e 32 32) (lo32 e) (taking s f)).1 = 0) ∧ ((regWrite { path := f.path, tenant := cTenant f.words } (cSchedFrame f.words) (fld e 32 32) (lo32 e) (taking s f)).2.1 = []) ∧ (f.path = .mspi)) ∧
    authentic (keyed) (cmdFrame .mspi 0 0x02 5 [0x7000000000000009]).words = true ∧
    wellFormed (cmdFrame .mspi 0 0x02 5 [0x7000000000000009]).words = true ∧
    (let s : State := keyed; let f := cmdFrame .mspi 0 0x02 5 [0x7000000000000009]; let e := (0x7000000000000009 : W64); (s.released = true) ∧ (Reaches s f 0x02 = true) ∧ (Permits (taking s f) f 0x02 = true) ∧ (cPayload f.words = [e]) ∧ ((regWrite { path := f.path, tenant := cTenant f.words } (cSchedFrame f.words) (fld e 32 32) (lo32 e) (taking s f)).1 ≠ 0) ∧ (f.path = .mspi)) ∧
    authentic (setStream 5 { Stream.reset with window := [{ frame := 3, words := [1, 2, 3, 4, 5] }] } keyed) (cmdFrame .mspi 0 0x04 5 [0x0005000000000003]).words = true ∧
    wellFormed (cmdFrame .mspi 0 0x04 5 [0x0005000000000003]).words = true ∧
    (let s : State := setStream 5 { Stream.reset with window := [{ frame := 3, words := [1, 2, 3, 4, 5] }] } keyed; let f := cmdFrame .mspi 0 0x04 5 [0x0005000000000003]; let m := (5 : Nat); let x := ({ frame := 3, words := [1, 2, 3, 4, 5] } : Sent); (s.released = true) ∧ (Reaches s f 0x04 = true) ∧ (Permits (taking s f) f 0x04 = true) ∧ (m = fld (pw (cPayload f.words) 0) 48 10) ∧ (((stream s m).window.find? fun y => y.frame == fld (pw (cPayload f.words) 0) 0 48) = some x)) ∧
    authentic (keyed) (cmdFrame .mspi 0 0x04 5 [0x0005000000000003]).words = true ∧
    wellFormed (cmdFrame .mspi 0 0x04 5 [0x0005000000000003]).words = true ∧
    (let s : State := keyed; let f := cmdFrame .mspi 0 0x04 5 [0x0005000000000003]; (s.released = true) ∧ (Reaches s f 0x04 = true) ∧ (Permits (taking s f) f 0x04 = true) ∧ (((stream s (fld (pw (cPayload f.words) 0) 48 10)).window.find? fun y => y.frame == fld (pw (cPayload f.words) 0) 0 48) = none)) ∧
    authentic (modCtx 64 (fun u => { u with post := some { ticket := 7, message := 1, reply := none } }) keyed) (cmdFrame .mspi 0 0x05 5 [0x0040070000000063]).words = true ∧
    wellFormed (cmdFrame .mspi 0 0x05 5 [0x0040070000000063]).words = true ∧
    (let s : State := modCtx 64 (fun u => { u with post := some { ticket := 7, message := 1, reply := none } }) keyed; let f := cmdFrame .mspi 0 0x05 5 [0x0040070000000063]; let q := ({ ticket := 7, message := 1, reply := none } : Post); (s.released = true) ∧ (Reaches s f 0x05 = true) ∧ (Permits (taking s f) f 0x05 = true) ∧ ((ctx s (pCtx (cPayload f.words))).post = some q)) ∧
    authentic (keyed) (cmdFrame .mspi 0 0x03 5 []).words = true ∧
    wellFormed (cmdFrame .mspi 0 0x03 5 []).words = true ∧
    (let s : State := keyed; let f := cmdFrame .mspi 0 0x03 5 []; (s.released = true) ∧ (Reaches s f 0x03 = true) ∧ (Permits (taking s f) f 0x03 = true)) ∧
    (let s : State := keyed; let who := st0; (s.released = true) ∧ (TbRights s who = true) ∧ (who.tenant ≠ 0 → service s who.tenant 2 = true)) ∧
    authentic (keyed) (cmdFrame .mspi 1 0x30 5 []).words = true ∧
    wellFormed (cmdFrame .mspi 1 0x30 5 []).words = true ∧
    (let s : State := keyed; let f := cmdFrame .mspi 1 0x30 5 []; (s.released = true) ∧ (Reaches s f 0x30 = true) ∧ (Permits (taking s f) f 0x30 = true)) := by
  apply And.intro (authentic_cmdFrame _ _ _ _ _ _ (by decide +kernel) (by decide +kernel) (by decide +kernel) (by decide +kernel))
  apply And.intro (wellFormed_cmdFrame _ _ _ _ _ (by decide +kernel) (by decide +kernel))
  iterate 1
    apply And.intro
    · decide +kernel
  apply And.intro (authentic_cmdFrame _ _ _ _ _ _ (by decide +kernel) (by decide +kernel) (by decide +kernel) (by decide +kernel))
  apply And.intro (wellFormed_cmdFrame _ _ _ _ _ (by decide +kernel) (by decide +kernel))
  iterate 1
    apply And.intro
    · decide +kernel
  apply And.intro (authentic_cmdFrame _ _ _ _ _ _ (by decide +kernel) (by decide +kernel) (by decide +kernel) (by decide +kernel))
  apply And.intro (wellFormed_cmdFrame _ _ _ _ _ (by decide +kernel) (by decide +kernel))
  iterate 1
    apply And.intro
    · decide +kernel
  apply And.intro (authentic_cmdFrame _ _ _ _ _ _ (by decide +kernel) (by decide +kernel) (by decide +kernel) (by decide +kernel))
  apply And.intro (wellFormed_cmdFrame _ _ _ _ _ (by decide +kernel) (by decide +kernel))
  iterate 1
    apply And.intro
    · decide +kernel
  apply And.intro (authentic_cmdFrame _ _ _ _ _ _ (by decide +kernel) (by decide +kernel) (by decide +kernel) (by decide +kernel))
  apply And.intro (wellFormed_cmdFrame _ _ _ _ _ (by decide +kernel) (by decide +kernel))
  iterate 1
    apply And.intro
    · decide +kernel
  apply And.intro (authentic_cmdFrame _ _ _ _ _ _ (by decide +kernel) (by decide +kernel) (by decide +kernel) (by decide +kernel))
  apply And.intro (wellFormed_cmdFrame _ _ _ _ _ (by decide +kernel) (by decide +kernel))
  iterate 1
    apply And.intro
    · decide +kernel
  apply And.intro (authentic_cmdFrame _ _ _ _ _ _ (by decide +kernel) (by decide +kernel) (by decide +kernel) (by decide +kernel))
  apply And.intro (wellFormed_cmdFrame _ _ _ _ _ (by decide +kernel) (by decide +kernel))
  iterate 2
    apply And.intro
    · decide +kernel
  apply And.intro (authentic_cmdFrame _ _ _ _ _ _ (by decide +kernel) (by decide +kernel) (by decide +kernel) (by decide +kernel))
  apply And.intro (wellFormed_cmdFrame _ _ _ _ _ (by decide +kernel) (by decide +kernel))
  decide +kernel

/-- The hypotheses of each clause of JournaledCommands are met. -/
theorem witness_journaledCommands :
    authentic (keyed) (cmdFrame .mspi 0 0x06 5 [320]).words = true ∧
    wellFormed (cmdFrame .mspi 0 0x06 5 [320]).words = true ∧
    (let s : State := keyed; let f := cmdFrame .mspi 0 0x06 5 [320]; (s.released = true) ∧ (Reaches s f 0x06 = true) ∧ (Permits (taking s f) f 0x06 = true) ∧ (stepEight 0x06 (cTenant f.words) (cPayload f.words) (taking s f) = none) ∧ (journalRefused (taking s f) (cTenant f.words) (cSchedFrame f.words) (cPayload f.words).length = none)) ∧
    authentic (keyed) (cmdFrame .mspi 0 0x10 5 [0x0041000080200001, 0, 0]).words = true ∧
    wellFormed (cmdFrame .mspi 0 0x10 5 [0x0041000080200001, 0, 0]).words = true ∧
    (let s : State := keyed; let f := cmdFrame .mspi 0 0x10 5 [0x0041000080200001, 0, 0]; (s.released = true) ∧ (Reaches s f 0x10 = true) ∧ (Permits (taking s f) f 0x10 = true) ∧ (stepEight 0x10 (cTenant f.words) (cPayload f.words) (taking s f) = none) ∧ (journalRefused (taking s f) (cTenant f.words) (cSchedFrame f.words) (cPayload f.words).length = none)) ∧
    authentic (keyed) (cmdFrame .mspi 0 0x11 5 [0x0001000000000002, 5]).words = true ∧
    wellFormed (cmdFrame .mspi 0 0x11 5 [0x0001000000000002, 5]).words = true ∧
    (let s : State := keyed; let f := cmdFrame .mspi 0 0x11 5 [0x0001000000000002, 5]; (s.released = true) ∧ (Reaches s f 0x11 = true) ∧ (Permits (taking s f) f 0x11 = true) ∧ (stepEight 0x11 (cTenant f.words) (cPayload f.words) (taking s f) = none) ∧ (journalRefused (taking s f) (cTenant f.words) (cSchedFrame f.words) (cPayload f.words).length = none)) ∧
    authentic (keyed) (cmdFrame .mspi 0 0x12 5 [0x0001000000000001, 5]).words = true ∧
    wellFormed (cmdFrame .mspi 0 0x12 5 [0x0001000000000001, 5]).words = true ∧
    (let s : State := keyed; let f := cmdFrame .mspi 0 0x12 5 [0x0001000000000001, 5]; (s.released = true) ∧ (Reaches s f 0x12 = true) ∧ (Permits (taking s f) f 0x12 = true) ∧ (stepEight 0x12 (cTenant f.words) (cPayload f.words) (taking s f) = none) ∧ (journalRefused (taking s f) (cTenant f.words) (cSchedFrame f.words) (cPayload f.words).length = none)) ∧
    authentic (keyed) (cmdFrame .mspi 0 0x13 5 [0x0040000000000009]).words = true ∧
    wellFormed (cmdFrame .mspi 0 0x13 5 [0x0040000000000009]).words = true ∧
    (let s : State := keyed; let f := cmdFrame .mspi 0 0x13 5 [0x0040000000000009]; (s.released = true) ∧ (Reaches s f 0x13 = true) ∧ (Permits (taking s f) f 0x13 = true) ∧ (stepEight 0x13 (cTenant f.words) (cPayload f.words) (taking s f) = none) ∧ (journalRefused (taking s f) (cTenant f.words) (cSchedFrame f.words) (cPayload f.words).length = none)) ∧
    authentic (keyed) (cmdFrame .mspi 0 0x22 5 (2 :: List.replicate 160 0)).words = true ∧
    wellFormed (cmdFrame .mspi 0 0x22 5 (2 :: List.replicate 160 0)).words = true ∧
    (let s : State := keyed; let f := cmdFrame .mspi 0 0x22 5 (2 :: List.replicate 160 0); (s.released = true) ∧ (Reaches s f 0x22 = true) ∧ (Permits (taking s f) f 0x22 = true) ∧ (stepEight 0x22 (cTenant f.words) (cPayload f.words) (taking s f) = none) ∧ (journalRefused (taking s f) (cTenant f.words) (cSchedFrame f.words) (cPayload f.words).length = none)) ∧
    authentic (keyed) (cmdFrame .mspi 0 0x23 5 [1]).words = true ∧
    wellFormed (cmdFrame .mspi 0 0x23 5 [1]).words = true ∧
    (let s : State := keyed; let f := cmdFrame .mspi 0 0x23 5 [1]; (s.released = true) ∧ (Reaches s f 0x23 = true) ∧ (Permits (taking s f) f 0x23 = true) ∧ (stepEight 0x23 (cTenant f.words) (cPayload f.words) (taking s f) = none) ∧ (journalRefused (taking s f) (cTenant f.words) (cSchedFrame f.words) (cPayload f.words).length = none)) ∧
    authentic (setTenant 1 { ten1 with state := .suspended } keyed) (cmdFrame .mspi 0 0x24 5 [1]).words = true ∧
    wellFormed (cmdFrame .mspi 0 0x24 5 [1]).words = true ∧
    (let s : State := setTenant 1 { ten1 with state := .suspended } keyed; let f := cmdFrame .mspi 0 0x24 5 [1]; (s.released = true) ∧ (Reaches s f 0x24 = true) ∧ (Permits (taking s f) f 0x24 = true) ∧ (stepEight 0x24 (cTenant f.words) (cPayload f.words) (taking s f) = none) ∧ (journalRefused (taking s f) (cTenant f.words) (cSchedFrame f.words) (cPayload f.words).length = none)) ∧
    authentic (keyed) (cmdFrame .mspi 0 0x25 5 [1]).words = true ∧
    wellFormed (cmdFrame .mspi 0 0x25 5 [1]).words = true ∧
    (let s : State := keyed; let f := cmdFrame .mspi 0 0x25 5 [1]; (s.released = true) ∧ (Reaches s f 0x25 = true) ∧ (Permits (taking s f) f 0x25 = true) ∧ (stepEight 0x25 (cTenant f.words) (cPayload f.words) (taking s f) = none) ∧ (journalRefused (taking s f) (cTenant f.words) (cSchedFrame f.words) (cPayload f.words).length = none)) ∧
    authentic (keyed) (cmdFrame .mspi 0 0x22 5 (2 :: 0x0000000000010000 :: List.replicate 159 0)).words = true ∧
    wellFormed (cmdFrame .mspi 0 0x22 5 (2 :: 0x0000000000010000 :: List.replicate 159 0)).words = true ∧
    (let s : State := keyed; let f := cmdFrame .mspi 0 0x22 5 (2 :: 0x0000000000010000 :: List.replicate 159 0); let code := (4 : Nat); (s.released = true) ∧ (Reaches s f 0x22 = true) ∧ (Permits (taking s f) f 0x22 = true) ∧ ((stepEight 0x22 (cTenant f.words) (cPayload f.words) (taking s f)).map (·.1) = some code) ∧ (code = 0x04)) ∧
    authentic (keyed) (cmdFrame .mspi 0 0x24 5 [1]).words = true ∧
    wellFormed (cmdFrame .mspi 0 0x24 5 [1]).words = true ∧
    (let s : State := keyed; let f := cmdFrame .mspi 0 0x24 5 [1]; let code := (10 : Nat); (s.released = true) ∧ (Reaches s f 0x24 = true) ∧ (Permits (taking s f) f 0x24 = true) ∧ ((stepEight 0x24 (cTenant f.words) (cPayload f.words) (taking s f)).map (·.1) = some code)) := by
  apply And.intro (authentic_cmdFrame _ _ _ _ _ _ (by decide +kernel) (by decide +kernel) (by decide +kernel) (by decide +kernel))
  apply And.intro (wellFormed_cmdFrame _ _ _ _ _ (by decide +kernel) (by decide +kernel))
  iterate 1
    apply And.intro
    · decide +kernel
  apply And.intro (authentic_cmdFrame _ _ _ _ _ _ (by decide +kernel) (by decide +kernel) (by decide +kernel) (by decide +kernel))
  apply And.intro (wellFormed_cmdFrame _ _ _ _ _ (by decide +kernel) (by decide +kernel))
  iterate 1
    apply And.intro
    · decide +kernel
  apply And.intro (authentic_cmdFrame _ _ _ _ _ _ (by decide +kernel) (by decide +kernel) (by decide +kernel) (by decide +kernel))
  apply And.intro (wellFormed_cmdFrame _ _ _ _ _ (by decide +kernel) (by decide +kernel))
  iterate 1
    apply And.intro
    · decide +kernel
  apply And.intro (authentic_cmdFrame _ _ _ _ _ _ (by decide +kernel) (by decide +kernel) (by decide +kernel) (by decide +kernel))
  apply And.intro (wellFormed_cmdFrame _ _ _ _ _ (by decide +kernel) (by decide +kernel))
  iterate 1
    apply And.intro
    · decide +kernel
  apply And.intro (authentic_cmdFrame _ _ _ _ _ _ (by decide +kernel) (by decide +kernel) (by decide +kernel) (by decide +kernel))
  apply And.intro (wellFormed_cmdFrame _ _ _ _ _ (by decide +kernel) (by decide +kernel))
  iterate 1
    apply And.intro
    · decide +kernel
  apply And.intro (authentic_cmdFrame _ _ _ _ _ _ (by decide +kernel) (by decide +kernel) (by decide +kernel) (by decide +kernel))
  apply And.intro (wellFormed_cmdFrame _ _ _ _ _ (by decide +kernel) (by decide +kernel))
  iterate 1
    apply And.intro
    · decide +kernel
  apply And.intro (authentic_cmdFrame _ _ _ _ _ _ (by decide +kernel) (by decide +kernel) (by decide +kernel) (by decide +kernel))
  apply And.intro (wellFormed_cmdFrame _ _ _ _ _ (by decide +kernel) (by decide +kernel))
  iterate 1
    apply And.intro
    · decide +kernel
  apply And.intro (authentic_cmdFrame _ _ _ _ _ _ (by decide +kernel) (by decide +kernel) (by decide +kernel) (by decide +kernel))
  apply And.intro (wellFormed_cmdFrame _ _ _ _ _ (by decide +kernel) (by decide +kernel))
  iterate 1
    apply And.intro
    · decide +kernel
  apply And.intro (authentic_cmdFrame _ _ _ _ _ _ (by decide +kernel) (by decide +kernel) (by decide +kernel) (by decide +kernel))
  apply And.intro (wellFormed_cmdFrame _ _ _ _ _ (by decide +kernel) (by decide +kernel))
  iterate 1
    apply And.intro
    · decide +kernel
  apply And.intro (authentic_cmdFrame _ _ _ _ _ _ (by decide +kernel) (by decide +kernel) (by decide +kernel) (by decide +kernel))
  apply And.intro (wellFormed_cmdFrame _ _ _ _ _ (by decide +kernel) (by decide +kernel))
  iterate 1
    apply And.intro
    · decide +kernel
  apply And.intro (authentic_cmdFrame _ _ _ _ _ _ (by decide +kernel) (by decide +kernel) (by decide +kernel) (by decide +kernel))
  apply And.intro (wellFormed_cmdFrame _ _ _ _ _ (by decide +kernel) (by decide +kernel))
  decide +kernel

/-- The hypotheses of each clause of RunControl are met. -/
theorem witness_runControl :
    authentic (modCtx 64 (fun u => { u with state := .stopped }) (keyed)) (cmdFrame .mspi 0 0x14 5 [0x0040000000000000]).words = true ∧
    wellFormed (cmdFrame .mspi 0 0x14 5 [0x0040000000000000]).words = true ∧
    (let s : State := modCtx 64 (fun u => { u with state := .stopped }) (keyed); let f := cmdFrame .mspi 0 0x14 5 [0x0040000000000000]; (s.released = true) ∧ (Reaches s f 0x14 = true) ∧ (Permits (taking s f) f 0x14 = true) ∧ (startOk (ctx s (pCtx (cPayload f.words))) = true) ∧ (held s ((pCtx (cPayload f.words)) / 64) = none)) ∧
    (let s : State := modCtx 64 (fun u => { u with state := .stopped }) (keyed); let who := st0; let x := (64 : Nat); (s.released = true) ∧ (x < 2048) ∧ (outOfService s (x / 64) = false) ∧ (writerActive s who.tenant = true) ∧ (mayWrite s who.tenant (.ctxCtrl x) (at32 1 0) = true) ∧ (startOk (ctx s x) = true) ∧ (held s (x / 64) = none)) ∧
    authentic (keyed) (cmdFrame .mspi 0 0x15 5 [0x0040000000000000]).words = true ∧
    wellFormed (cmdFrame .mspi 0 0x15 5 [0x0040000000000000]).words = true ∧
    (let s : State := keyed; let f := cmdFrame .mspi 0 0x15 5 [0x0040000000000000]; (s.released = true) ∧ (Reaches s f 0x15 = true) ∧ (Permits (taking s f) f 0x15 = true) ∧ ((ctx s (pCtx (cPayload f.words))).state ≠ .free)) ∧
    (let s : State := keyed; let who := st0; let x := (64 : Nat); (s.released = true) ∧ (x < 2048) ∧ (outOfService s (x / 64) = false) ∧ (writerActive s who.tenant = true) ∧ (mayWrite s who.tenant (.ctxCtrl x) (at32 1 1) = true) ∧ ((ctx s x).state ≠ .free)) ∧
    authentic (keyed) (cmdFrame .mspi 0 0x16 5 [0x0040000000000000]).words = true ∧
    wellFormed (cmdFrame .mspi 0 0x16 5 [0x0040000000000000]).words = true ∧
    (let s : State := keyed; let f := cmdFrame .mspi 0 0x16 5 [0x0040000000000000]; (s.released = true) ∧ (Reaches s f 0x16 = true) ∧ (Permits (taking s f) f 0x16 = true) ∧ (haltOk (ctx s (pCtx (cPayload f.words))) = true)) ∧
    (let s : State := keyed; let who := st0; let x := (64 : Nat); (s.released = true) ∧ (x < 2048) ∧ (outOfService s (x / 64) = false) ∧ (writerActive s who.tenant = true) ∧ (mayWrite s who.tenant (.ctxCtrl x) (at32 1 2) = true) ∧ (haltOk (ctx s x) = true)) ∧
    authentic (modCtx 64 (fun u => { u with state := .halted }) (keyed)) (cmdFrame .mspi 0 0x17 5 [0x0040000000000000]).words = true ∧
    wellFormed (cmdFrame .mspi 0 0x17 5 [0x0040000000000000]).words = true ∧
    (let s : State := modCtx 64 (fun u => { u with state := .halted }) (keyed); let f := cmdFrame .mspi 0 0x17 5 [0x0040000000000000]; (s.released = true) ∧ (Reaches s f 0x17 = true) ∧ (Permits (taking s f) f 0x17 = true) ∧ ((ctx s (pCtx (cPayload f.words))).state = .halted)) ∧
    (let s : State := modCtx 64 (fun u => { u with state := .halted }) (keyed); let who := st0; let x := (64 : Nat); (s.released = true) ∧ (x < 2048) ∧ (outOfService s (x / 64) = false) ∧ (writerActive s who.tenant = true) ∧ (mayWrite s who.tenant (.ctxCtrl x) (at32 1 3) = true) ∧ ((ctx s x).state = .halted)) ∧
    authentic (modCtx 64 (fun u => { u with state := .halted }) (keyed)) (cmdFrame .mspi 0 0x18 5 [0x0040000000000000]).words = true ∧
    wellFormed (cmdFrame .mspi 0 0x18 5 [0x0040000000000000]).words = true ∧
    (let s : State := modCtx 64 (fun u => { u with state := .halted }) (keyed); let f := cmdFrame .mspi 0 0x18 5 [0x0040000000000000]; (s.released = true) ∧ (Reaches s f 0x18 = true) ∧ (Permits (taking s f) f 0x18 = true) ∧ ((ctx s (pCtx (cPayload f.words))).state = .halted) ∧ (held s ((pCtx (cPayload f.words)) / 64) = none)) ∧
    (let s : State := modCtx 64 (fun u => { u with state := .halted }) (keyed); let who := st0; let x := (64 : Nat); (s.released = true) ∧ (x < 2048) ∧ (outOfService s (x / 64) = false) ∧ (writerActive s who.tenant = true) ∧ (mayWrite s who.tenant (.ctxCtrl x) (at32 1 4) = true) ∧ ((ctx s x).state = .halted) ∧ (held s (x / 64) = none)) ∧
    authentic (modCluster 1 (fun u => { u with lock := some { ctx := 0, n := 4, count := 2, pc := 0, saved := regs0 } }) (modCtx 64 (fun u => { u with l := true, haltPend := true }) keyed)) (cmdFrame .mspi 0 0x19 5 [0x0040000000000000]).words = true ∧
    wellFormed (cmdFrame .mspi 0 0x19 5 [0x0040000000000000]).words = true ∧
    (let s : State := modCluster 1 (fun u => { u with lock := some { ctx := 0, n := 4, count := 2, pc := 0, saved := regs0 } }) (modCtx 64 (fun u => { u with l := true, haltPend := true }) keyed); let f := cmdFrame .mspi 0 0x19 5 [0x0040000000000000]; (s.released = true) ∧ (Reaches s f 0x19 = true) ∧ (Permits (taking s f) f 0x19 = true) ∧ ((ctx s (pCtx (cPayload f.words))).haltPend = true) ∧ ((ctx s (pCtx (cPayload f.words))).l = true) ∧ ((cluster s ((pCtx (cPayload f.words)) / 64)).lock.isSome = true)) ∧
    (let s : State := modCluster 1 (fun u => { u with lock := some { ctx := 0, n := 4, count := 2, pc := 0, saved := regs0 } }) (modCtx 64 (fun u => { u with l := true, haltPend := true }) keyed); let who := st0; let x := (64 : Nat); (s.released = true) ∧ (x < 2048) ∧ (outOfService s (x / 64) = false) ∧ (writerActive s who.tenant = true) ∧ (mayWrite s who.tenant (.ctxCtrl x) (at32 1 5) = true) ∧ ((ctx s x).haltPend = true) ∧ ((ctx s x).l = true) ∧ ((cluster s (x / 64)).lock.isSome = true)) := by
  apply And.intro (authentic_cmdFrame _ _ _ _ _ _ (by decide +kernel) (by decide +kernel) (by decide +kernel) (by decide +kernel))
  apply And.intro (wellFormed_cmdFrame _ _ _ _ _ (by decide +kernel) (by decide +kernel))
  iterate 2
    apply And.intro
    · decide +kernel
  apply And.intro (authentic_cmdFrame _ _ _ _ _ _ (by decide +kernel) (by decide +kernel) (by decide +kernel) (by decide +kernel))
  apply And.intro (wellFormed_cmdFrame _ _ _ _ _ (by decide +kernel) (by decide +kernel))
  iterate 2
    apply And.intro
    · decide +kernel
  apply And.intro (authentic_cmdFrame _ _ _ _ _ _ (by decide +kernel) (by decide +kernel) (by decide +kernel) (by decide +kernel))
  apply And.intro (wellFormed_cmdFrame _ _ _ _ _ (by decide +kernel) (by decide +kernel))
  iterate 2
    apply And.intro
    · decide +kernel
  apply And.intro (authentic_cmdFrame _ _ _ _ _ _ (by decide +kernel) (by decide +kernel) (by decide +kernel) (by decide +kernel))
  apply And.intro (wellFormed_cmdFrame _ _ _ _ _ (by decide +kernel) (by decide +kernel))
  iterate 2
    apply And.intro
    · decide +kernel
  apply And.intro (authentic_cmdFrame _ _ _ _ _ _ (by decide +kernel) (by decide +kernel) (by decide +kernel) (by decide +kernel))
  apply And.intro (wellFormed_cmdFrame _ _ _ _ _ (by decide +kernel) (by decide +kernel))
  iterate 2
    apply And.intro
    · decide +kernel
  apply And.intro (authentic_cmdFrame _ _ _ _ _ _ (by decide +kernel) (by decide +kernel) (by decide +kernel) (by decide +kernel))
  apply And.intro (wellFormed_cmdFrame _ _ _ _ _ (by decide +kernel) (by decide +kernel))
  iterate 1
    apply And.intro
    · decide +kernel
  decide +kernel

/-- The hypotheses of each clause of KeysAndZeroisation are met. -/
theorem witness_keysAndZeroisation :
    (let s : State := { up_keyless with st := { SelfTest.reset with lcState := 2 } }; let f := ({ path := .mspi, words := [0x0120000000000002, 0, 0, 7, 9] } : CmdFrame); (s.released = true) ∧ (f.path = .mspi) ∧ (canVerify s = true) ∧ (PathFree s .mspi = true) ∧ (wellFormed f.words = true) ∧ (cOp f.words = 0x20) ∧ (cTenant f.words = 0) ∧ (cCounter f.words = 0) ∧ (cSched f.words = false) ∧ (formOk 0x20 (cPayload f.words) = true) ∧ ((keyOf s 0).valid = false) ∧ ((1 ≤ s.st.lcState && s.st.lcState ≤ 3) = true) ∧ (s.tn.zeroising = false) ∧ (purging s = false)) ∧
    authentic (keyed) (cmdFrame .mspi 0 0x21 5 [1, 2, 3]).words = true ∧
    wellFormed (cmdFrame .mspi 0 0x21 5 [1, 2, 3]).words = true ∧
    (let s : State := keyed; let f := cmdFrame .mspi 0 0x21 5 [1, 2, 3]; (s.released = true) ∧ (Reaches s f 0x21 = true) ∧ (Permits (taking s f) f 0x21 = true) ∧ (pTenant (cPayload f.words) = 0 ∨ ((tenant s (pTenant (cPayload f.words))).state ≠ .absent ∧ (tenant s (pTenant (cPayload f.words))).leaving = none))) ∧
    authentic (modCtx 64 (fun u => { u with post := some { ticket := 7, message := 1, reply := none } }) keyed) (cmdFrame .mspi 0 0x26 5 [0x5A45524F]).words = true ∧
    wellFormed (cmdFrame .mspi 0 0x26 5 [0x5A45524F]).words = true ∧
    (let s : State := modCtx 64 (fun u => { u with post := some { ticket := 7, message := 1, reply := none } }) keyed; let f := cmdFrame .mspi 0 0x26 5 [0x5A45524F]; (s.released = true) ∧ (Reaches s f 0x26 = true) ∧ (Permits (taking s f) f 0x26 = true) ∧ (runOf s .p0 = none) ∧ (runOf s .p1 = none) ∧ (runOf s .mspi = none)) ∧
    (let s : State := { keyed with tn := { keyed.tn with zeroising := true } }; (s.released = true) ∧ (s.tn.zeroising = true)) ∧
    (let s : State := { { keyed with tn := { keyed.tn with jobs := [({ write := .init 7, due := 60, path := some .mspi } : KeyJob)] } } with mspi := { Mspi.reset with run := some { words := [0x0120000000000002, 0, 0, 7, 9], waits := [], keyWait := true, acted := true, status := 0, payload := [] } } }; let j := ({ write := .init 7, due := 60, path := some .mspi } : KeyJob); let rest := ([] : List KeyJob); let k := (7 : W128); let r := ({ words := [0x0120000000000002, 0, 0, 7, 9], waits := [], keyWait := true, acted := true, status := 0, payload := [] } : Running); (s.released = true) ∧ ((port s 0).buf = []) ∧ ((port s 1).buf = []) ∧ (s.mspi.cmd = none) ∧ (s.tn.jobs = j :: rest) ∧ (j.write = .init k) ∧ (j.path = some .mspi) ∧ (runOf s .mspi = some r) ∧ (r.keyWait = true) ∧ (r.acted = true) ∧ (r.waits = []) ∧ (cCounter r.words = 0)) ∧
    (let s : State := { keyed with tn := { keyed.tn with jobs := [({ write := .set 1 7, due := 60, path := none } : KeyJob)] } }; let j := ({ write := .set 1 7, due := 60, path := none } : KeyJob); let rest := ([] : List KeyJob); let u := (1 : Nat); let k := (7 : W128); (s.released = true) ∧ ((port s 0).buf = []) ∧ ((port s 1).buf = []) ∧ (s.mspi.cmd = none) ∧ (s.tn.jobs = j :: rest) ∧ (j.write = .set u k) ∧ (j.path = none)) ∧
    (let s : State := { keyed with tn := { keyed.tn with jobs := [({ write := .resv 1 70, due := 60, path := none } : KeyJob)] } }; let j := ({ write := .resv 1 70, due := 60, path := none } : KeyJob); let rest := ([] : List KeyJob); let u := (1 : Nat); let v := (70 : Nat); (s.released = true) ∧ ((port s 0).buf = []) ∧ ((port s 1).buf = []) ∧ (s.mspi.cmd = none) ∧ (s.tn.jobs = j :: rest) ∧ (j.write = .resv u v) ∧ (j.path = none)) ∧
    (let s : State := { keyed with tn := { keyed.tn with jobs := [({ write := .erase 1, due := 60, path := none } : KeyJob)] } }; let j := ({ write := .erase 1, due := 60, path := none } : KeyJob); let rest := ([] : List KeyJob); let u := (1 : Nat); (s.released = true) ∧ ((port s 0).buf = []) ∧ ((port s 1).buf = []) ∧ (s.mspi.cmd = none) ∧ (s.tn.jobs = j :: rest) ∧ (j.write = .erase u) ∧ (j.path = none)) ∧
    (let s : State := { up with tn := { TenUnit.reset with clearing := [({ owner := 1, cluster := 31, data := true, first := 0, count := 8, due := 9 } : Clearing)] } }; let k := ({ owner := 1, cluster := 31, data := true, first := 0, count := 8, due := 9 } : Clearing); (s.released = true) ∧ (k ∈ s.tn.clearing) ∧ ((s.tn.clearing.all fun q => decide (k.due ≤ q.due)) = true)) := by
  iterate 1
    apply And.intro
    · decide +kernel
  apply And.intro (authentic_cmdFrame _ _ _ _ _ _ (by decide +kernel) (by decide +kernel) (by decide +kernel) (by decide +kernel))
  apply And.intro (wellFormed_cmdFrame _ _ _ _ _ (by decide +kernel) (by decide +kernel))
  iterate 1
    apply And.intro
    · decide +kernel
  apply And.intro (authentic_cmdFrame _ _ _ _ _ _ (by decide +kernel) (by decide +kernel) (by decide +kernel) (by decide +kernel))
  apply And.intro (wellFormed_cmdFrame _ _ _ _ _ (by decide +kernel) (by decide +kernel))
  iterate 6
    apply And.intro
    · decide +kernel
  decide +kernel

/-- The hypotheses of each clause of JournalCommands are met. -/
theorem witness_journalCommands :
    authentic ({ keyed with jr := { keyed.jr with suspects := [({ seq := 9, start := 20, len := 6, cause := 1, known := true } : Suspect)], halfA := [(21, 0xA700230000000001), (23, 1)] } }) (cmdFrame .mspi 0 0x31 5 [0x0006000000000009]).words = true ∧
    wellFormed (cmdFrame .mspi 0 0x31 5 [0x0006000000000009]).words = true ∧
    (let s : State := { keyed with jr := { keyed.jr with suspects := [({ seq := 9, start := 20, len := 6, cause := 1, known := true } : Suspect)], halfA := [(21, 0xA700230000000001), (23, 1)] } }; let f := cmdFrame .mspi 0 0x31 5 [0x0006000000000009]; let x := ({ seq := 9, start := 20, len := 6, cause := 1, known := true } : Suspect); (s.released = true) ∧ (Reaches s f 0x31 = true) ∧ (Permits (taking s f) f 0x31 = true) ∧ ((s.jr.suspects.find? fun y => y.seq % 2 ^ 32 == fld (pw (cPayload f.words) 0) 0 32) = some x) ∧ (fld (pw (cPayload f.words) 0) 32 16 + fld (pw (cPayload f.words) 0) 48 16 ≤ x.len)) ∧
    authentic (keyed) (cmdFrame .mspi 0 0x31 5 [0x0006000000000009]).words = true ∧
    wellFormed (cmdFrame .mspi 0 0x31 5 [0x0006000000000009]).words = true ∧
    (let s : State := keyed; let f := cmdFrame .mspi 0 0x31 5 [0x0006000000000009]; (s.released = true) ∧ (Reaches s f 0x31 = true) ∧ (Permits (taking s f) f 0x31 = true) ∧ ((s.jr.suspects.find? fun y => y.seq % 2 ^ 32 == fld (pw (cPayload f.words) 0) 0 32) = none)) ∧
    authentic ({ keyed with jr := { keyed.jr with suspects := [({ seq := 9, start := 20, len := 6, cause := 1, known := true } : Suspect)], halfA := [(21, 0xA700230000000001), (23, 1)] } }) (cmdFrame .mspi 0 0x32 5 [9]).words = true ∧
    wellFormed (cmdFrame .mspi 0 0x32 5 [9]).words = true ∧
    (let s : State := { keyed with jr := { keyed.jr with suspects := [({ seq := 9, start := 20, len := 6, cause := 1, known := true } : Suspect)], halfA := [(21, 0xA700230000000001), (23, 1)] } }; let f := cmdFrame .mspi 0 0x32 5 [9]; let x := ({ seq := 9, start := 20, len := 6, cause := 1, known := true } : Suspect); (s.released = true) ∧ (Reaches s f 0x32 = true) ∧ (Permits (taking s f) f 0x32 = true) ∧ ((s.jr.suspects.find? fun y => y.seq == (pw (cPayload f.words) 0).toNat) = some x) ∧ (x.known = true) ∧ (recFormOk (fld (pw (rawWords (activeHalf s) x.start x.len) 1) 40 16) (((rawWords (activeHalf s) x.start x.len).drop 3).take (fld (pw (rawWords (activeHalf s) x.start x.len) 1) 0 16)) = true) ∧ (stepEight (fld (pw (rawWords (activeHalf s) x.start x.len) 1) 40 16) (fld (pw (rawWords (activeHalf s) x.start x.len) 1) 30 10) (((rawWords (activeHalf s) x.start x.len).drop 3).take (fld (pw (rawWords (activeHalf s) x.start x.len) 1) 0 16)) (taking s f) = none) ∧ (journalRefused (taking s f) 0 none ((((rawWords (activeHalf s) x.start x.len).drop 3).take (fld (pw (rawWords (activeHalf s) x.start x.len) 1) 0 16)).length + 2) = none)) ∧
    authentic ({ keyed with jr := { keyed.jr with suspects := [({ seq := 9, start := 20, len := 6, cause := 1, known := true } : Suspect)], halfA := [(21, 0xA700230000000001), (23, 1)] } }) (cmdFrame .mspi 0 0x33 5 [9]).words = true ∧
    wellFormed (cmdFrame .mspi 0 0x33 5 [9]).words = true ∧
    (let s : State := { keyed with jr := { keyed.jr with suspects := [({ seq := 9, start := 20, len := 6, cause := 1, known := true } : Suspect)], halfA := [(21, 0xA700230000000001), (23, 1)] } }; let f := cmdFrame .mspi 0 0x33 5 [9]; (s.released = true) ∧ (Reaches s f 0x33 = true) ∧ (Permits (taking s f) f 0x33 = true) ∧ ((s.jr.suspects.any fun y => y.seq == (pw (cPayload f.words) 0).toNat) = true) ∧ (journalRefused (taking s f) 0 none (cPayload f.words).length = none)) ∧
    authentic ({ keyed with jr := { keyed.jr with sched := [{ seq := 4, r := plainRec 6 [320], lc := 0 }] } }) (cmdFrame .mspi 0 0x35 5 [4]).words = true ∧
    wellFormed (cmdFrame .mspi 0 0x35 5 [4]).words = true ∧
    (let s : State := { keyed with jr := { keyed.jr with sched := [{ seq := 4, r := plainRec 6 [320], lc := 0 }] } }; let f := cmdFrame .mspi 0 0x35 5 [4]; (s.released = true) ∧ (Reaches s f 0x35 = true) ∧ (Permits (taking s f) f 0x35 = true) ∧ ((s.jr.sched.any fun d => d.seq == (pw (cPayload f.words) 0).toNat && (cTenant f.words == 0 || d.r.tenant == cTenant f.words)) = true) ∧ (journalRefused (taking s f) (cTenant f.words) none (cPayload f.words).length = none)) ∧
    authentic (keyed) (cmdFrame .mspi 0 0x34 5 []).words = true ∧
    wellFormed (cmdFrame .mspi 0 0x34 5 []).words = true ∧
    (let s : State := keyed; let f := cmdFrame .mspi 0 0x34 5 []; (s.released = true) ∧ (Reaches s f 0x34 = true) ∧ (Permits (taking s f) f 0x34 = true)) ∧
    (let s : State := keyed; let who := st0; (s.released = true) ∧ (who.tenant = 0)) ∧
    (let s : State := { keyed with jr := { keyed.jr with fill := 390144 } }; (s.released = true) ∧ (390144 ≤ s.jr.fill)) ∧
    authentic ({ keyed with jr := { keyed.jr with halfA := [(0, 7), (9, 9)], fill := 20 } }) (cmdFrame .mspi 0 0x36 5 [0x0000004552415345]).words = true ∧
    wellFormed (cmdFrame .mspi 0 0x36 5 [0x0000004552415345]).words = true ∧
    (let s : State := { keyed with jr := { keyed.jr with halfA := [(0, 7), (9, 9)], fill := 20 } }; let f := cmdFrame .mspi 0 0x36 5 [0x0000004552415345]; (s.released = true) ∧ (Reaches s f 0x36 = true) ∧ (Permits (taking s f) f 0x36 = true) ∧ (s.st.lcState = 1 ∨ s.st.lcState = 2)) := by
  apply And.intro (authentic_cmdFrame _ _ _ _ _ _ (by decide +kernel) (by decide +kernel) (by decide +kernel) (by decide +kernel))
  apply And.intro (wellFormed_cmdFrame _ _ _ _ _ (by decide +kernel) (by decide +kernel))
  iterate 1
    apply And.intro
    · decide +kernel
  apply And.intro (authentic_cmdFrame _ _ _ _ _ _ (by decide +kernel) (by decide +kernel) (by decide +kernel) (by decide +kernel))
  apply And.intro (wellFormed_cmdFrame _ _ _ _ _ (by decide +kernel) (by decide +kernel))
  iterate 1
    apply And.intro
    · decide +kernel
  apply And.intro (authentic_cmdFrame _ _ _ _ _ _ (by decide +kernel) (by decide +kernel) (by decide +kernel) (by decide +kernel))
  apply And.intro (wellFormed_cmdFrame _ _ _ _ _ (by decide +kernel) (by decide +kernel))
  iterate 1
    apply And.intro
    · decide +kernel
  apply And.intro (authentic_cmdFrame _ _ _ _ _ _ (by decide +kernel) (by decide +kernel) (by decide +kernel) (by decide +kernel))
  apply And.intro (wellFormed_cmdFrame _ _ _ _ _ (by decide +kernel) (by decide +kernel))
  iterate 1
    apply And.intro
    · decide +kernel
  apply And.intro (authentic_cmdFrame _ _ _ _ _ _ (by decide +kernel) (by decide +kernel) (by decide +kernel) (by decide +kernel))
  apply And.intro (wellFormed_cmdFrame _ _ _ _ _ (by decide +kernel) (by decide +kernel))
  iterate 1
    apply And.intro
    · decide +kernel
  apply And.intro (authentic_cmdFrame _ _ _ _ _ _ (by decide +kernel) (by decide +kernel) (by decide +kernel) (by decide +kernel))
  apply And.intro (wellFormed_cmdFrame _ _ _ _ _ (by decide +kernel) (by decide +kernel))
  iterate 3
    apply And.intro
    · decide +kernel
  apply And.intro (authentic_cmdFrame _ _ _ _ _ _ (by decide +kernel) (by decide +kernel) (by decide +kernel) (by decide +kernel))
  apply And.intro (wellFormed_cmdFrame _ _ _ _ _ (by decide +kernel) (by decide +kernel))
  decide +kernel

/-- The hypotheses of each clause of TestCommands are met. -/
theorem witness_testCommands :
    authentic (keyed) (cmdFrame .mspi 0 0x40 5 [0x3F]).words = true ∧
    wellFormed (cmdFrame .mspi 0 0x40 5 [0x3F]).words = true ∧
    (let s : State := keyed; let f := cmdFrame .mspi 0 0x40 5 [0x3F]; (s.released = true) ∧ (Reaches s f 0x40 = true) ∧ (Permits (taking s f) f 0x40 = true) ∧ (s.st.lbPend = 0) ∧ (s.st.astTodo = []) ∧ ((fld (pw (cPayload f.words) 0) 0 6) ≠ 0) ∧ (rbit s .asCtrl 0 = false) ∧ (ckoRunning s = false)) ∧
    authentic ({ keyed with st := { SelfTest.reset with lbPend := 2 } }) (cmdFrame .mspi 0 0x40 5 [0x3F]).words = true ∧
    wellFormed (cmdFrame .mspi 0 0x40 5 [0x3F]).words = true ∧
    (let s : State := { keyed with st := { SelfTest.reset with lbPend := 2 } }; let f := cmdFrame .mspi 0 0x40 5 [0x3F]; (s.released = true) ∧ (Reaches s f 0x40 = true) ∧ (Permits (taking s f) f 0x40 = true) ∧ (s.st.lbPend ≠ 0 ∨ s.st.astTodo ≠ [])) ∧
    authentic ({ keyed with st := { SelfTest.reset with lcState := 2 } }) (cmdFrame .mspi 0 0x41 5 [0x80000001]).words = true ∧
    wellFormed (cmdFrame .mspi 0 0x41 5 [0x80000001]).words = true ∧
    (let s : State := { keyed with st := { SelfTest.reset with lcState := 2 } }; let f := cmdFrame .mspi 0 0x41 5 [0x80000001]; (s.released = true) ∧ (Reaches s f 0x41 = true) ∧ (Permits (taking s f) f 0x41 = true) ∧ (lbistCode (lo32 (pw (cPayload f.words) 0)) (taking s f) = 0)) ∧
    authentic ({ keyed with st := { SelfTest.reset with lbPend := 2 } }) (cmdFrame .mspi 0 0x41 5 [0x80000002]).words = true ∧
    wellFormed (cmdFrame .mspi 0 0x41 5 [0x80000002]).words = true ∧
    (let s : State := { keyed with st := { SelfTest.reset with lbPend := 2 } }; let f := cmdFrame .mspi 0 0x41 5 [0x80000002]; (s.released = true) ∧ (Reaches s f 0x41 = true) ∧ (Permits (taking s f) f 0x41 = true) ∧ (lbistCode (lo32 (pw (cPayload f.words) 0)) (taking s f) ≠ 0)) ∧
    authentic ((fun (s : State) => { s with byre := { s.byre with quar := 0x60 } }) ({ keyed with st := { SelfTest.reset with lbOk := 0x20 } })) (cmdFrame .mspi 0 0x42 5 [5]).words = true ∧
    wellFormed (cmdFrame .mspi 0 0x42 5 [5]).words = true ∧
    (let s : State := (fun (s : State) => { s with byre := { s.byre with quar := 0x60 } }) ({ keyed with st := { SelfTest.reset with lbOk := 0x20 } }); let f := cmdFrame .mspi 0 0x42 5 [5]; (s.released = true) ∧ (Reaches s f 0x42 = true) ∧ (Permits (taking s f) f 0x42 = true) ∧ (fld s.st.lbOk (fld (pw (cPayload f.words) 0) 0 5) 1 = 1)) ∧
    authentic (keyed) (cmdFrame .mspi 0 0x42 5 [5]).words = true ∧
    wellFormed (cmdFrame .mspi 0 0x42 5 [5]).words = true ∧
    (let s : State := keyed; let f := cmdFrame .mspi 0 0x42 5 [5]; (s.released = true) ∧ (Reaches s f 0x42 = true) ∧ (Permits (taking s f) f 0x42 = true) ∧ (fld s.st.lbOk (fld (pw (cPayload f.words) 0) 0 5) 1 = 0)) ∧
    authentic ({ keyed with st := { SelfTest.reset with lcState := 3 } }) (cmdFrame .mspi 0 0x43 5 []).words = true ∧
    wellFormed (cmdFrame .mspi 0 0x43 5 []).words = true ∧
    (let s : State := { keyed with st := { SelfTest.reset with lcState := 3 } }; let f := cmdFrame .mspi 0 0x43 5 []; (s.released = true) ∧ (Reaches s f 0x43 = true) ∧ (Permits (taking s f) f 0x43 = true) ∧ (compatScanCode s = 0) ∧ (runOf s .p0 = none) ∧ (runOf s .p1 = none) ∧ (runOf s .mspi = none)) ∧
    authentic (keyed) (cmdFrame .mspi 0 0x44 5 [0x000000434F4D5044]).words = true ∧
    wellFormed (cmdFrame .mspi 0 0x44 5 [0x000000434F4D5044]).words = true ∧
    (let s : State := keyed; let f := cmdFrame .mspi 0 0x44 5 [0x000000434F4D5044]; (s.released = true) ∧ (Reaches s f 0x44 = true) ∧ (Permits (taking s f) f 0x44 = true) ∧ (s.st.lcState = 2 ∨ s.st.lcState = 3)) ∧
    authentic (keyed) (cmdFrame .mspi 0 0x45 5 [3]).words = true ∧
    wellFormed (cmdFrame .mspi 0 0x45 5 [3]).words = true ∧
    (let s : State := keyed; let f := cmdFrame .mspi 0 0x45 5 [3]; (s.released = true) ∧ (Reaches s f 0x45 = true) ∧ (Permits (taking s f) f 0x45 = true) ∧ ((fld (pw (cPayload f.words) 0) 0 3) = 3) ∧ (advanceListed s.st.lcState 3 = true) ∧ (noTransition s = true)) ∧
    authentic (keyed) (cmdFrame .mspi 0 0x45 5 [4]).words = true ∧
    wellFormed (cmdFrame .mspi 0 0x45 5 [4]).words = true ∧
    (let s : State := keyed; let f := cmdFrame .mspi 0 0x45 5 [4]; (s.released = true) ∧ (Reaches s f 0x45 = true) ∧ (Permits (taking s f) f 0x45 = true) ∧ ((fld (pw (cPayload f.words) 0) 0 3) ≠ 3) ∧ (advanceListed s.st.lcState (fld (pw (cPayload f.words) 0) 0 3) = true) ∧ (noTransition s = true) ∧ (runOf s .p0 = none) ∧ (runOf s .p1 = none) ∧ (runOf s .mspi = none)) ∧
    authentic (keyed) (cmdFrame .mspi 0 0x45 5 [2]).words = true ∧
    wellFormed (cmdFrame .mspi 0 0x45 5 [2]).words = true ∧
    (let s : State := keyed; let f := cmdFrame .mspi 0 0x45 5 [2]; (s.released = true) ∧ (Reaches s f 0x45 = true) ∧ (Permits (taking s f) f 0x45 = true) ∧ (advanceListed s.st.lcState (fld (pw (cPayload f.words) 0) 0 3) = false ∨ noTransition s = false)) ∧
    authentic ({ keyed with st := { SelfTest.reset with lbOk := 7 } }) (cmdFrame .mspi 0 0x46 5 []).words = true ∧
    wellFormed (cmdFrame .mspi 0 0x46 5 []).words = true ∧
    (let s : State := { keyed with st := { SelfTest.reset with lbOk := 7 } }; let f := cmdFrame .mspi 0 0x46 5 []; (s.released = true) ∧ (Reaches s f 0x46 = true) ∧ (Permits (taking s f) f 0x46 = true)) := by
  apply And.intro (authentic_cmdFrame _ _ _ _ _ _ (by decide +kernel) (by decide +kernel) (by decide +kernel) (by decide +kernel))
  apply And.intro (wellFormed_cmdFrame _ _ _ _ _ (by decide +kernel) (by decide +kernel))
  iterate 1
    apply And.intro
    · decide +kernel
  apply And.intro (authentic_cmdFrame _ _ _ _ _ _ (by decide +kernel) (by decide +kernel) (by decide +kernel) (by decide +kernel))
  apply And.intro (wellFormed_cmdFrame _ _ _ _ _ (by decide +kernel) (by decide +kernel))
  iterate 1
    apply And.intro
    · decide +kernel
  apply And.intro (authentic_cmdFrame _ _ _ _ _ _ (by decide +kernel) (by decide +kernel) (by decide +kernel) (by decide +kernel))
  apply And.intro (wellFormed_cmdFrame _ _ _ _ _ (by decide +kernel) (by decide +kernel))
  iterate 1
    apply And.intro
    · decide +kernel
  apply And.intro (authentic_cmdFrame _ _ _ _ _ _ (by decide +kernel) (by decide +kernel) (by decide +kernel) (by decide +kernel))
  apply And.intro (wellFormed_cmdFrame _ _ _ _ _ (by decide +kernel) (by decide +kernel))
  iterate 1
    apply And.intro
    · decide +kernel
  apply And.intro (authentic_cmdFrame _ _ _ _ _ _ (by decide +kernel) (by decide +kernel) (by decide +kernel) (by decide +kernel))
  apply And.intro (wellFormed_cmdFrame _ _ _ _ _ (by decide +kernel) (by decide +kernel))
  iterate 1
    apply And.intro
    · decide +kernel
  apply And.intro (authentic_cmdFrame _ _ _ _ _ _ (by decide +kernel) (by decide +kernel) (by decide +kernel) (by decide +kernel))
  apply And.intro (wellFormed_cmdFrame _ _ _ _ _ (by decide +kernel) (by decide +kernel))
  iterate 1
    apply And.intro
    · decide +kernel
  apply And.intro (authentic_cmdFrame _ _ _ _ _ _ (by decide +kernel) (by decide +kernel) (by decide +kernel) (by decide +kernel))
  apply And.intro (wellFormed_cmdFrame _ _ _ _ _ (by decide +kernel) (by decide +kernel))
  iterate 1
    apply And.intro
    · decide +kernel
  apply And.intro (authentic_cmdFrame _ _ _ _ _ _ (by decide +kernel) (by decide +kernel) (by decide +kernel) (by decide +kernel))
  apply And.intro (wellFormed_cmdFrame _ _ _ _ _ (by decide +kernel) (by decide +kernel))
  iterate 1
    apply And.intro
    · decide +kernel
  apply And.intro (authentic_cmdFrame _ _ _ _ _ _ (by decide +kernel) (by decide +kernel) (by decide +kernel) (by decide +kernel))
  apply And.intro (wellFormed_cmdFrame _ _ _ _ _ (by decide +kernel) (by decide +kernel))
  iterate 1
    apply And.intro
    · decide +kernel
  apply And.intro (authentic_cmdFrame _ _ _ _ _ _ (by decide +kernel) (by decide +kernel) (by decide +kernel) (by decide +kernel))
  apply And.intro (wellFormed_cmdFrame _ _ _ _ _ (by decide +kernel) (by decide +kernel))
  iterate 1
    apply And.intro
    · decide +kernel
  apply And.intro (authentic_cmdFrame _ _ _ _ _ _ (by decide +kernel) (by decide +kernel) (by decide +kernel) (by decide +kernel))
  apply And.intro (wellFormed_cmdFrame _ _ _ _ _ (by decide +kernel) (by decide +kernel))
  iterate 1
    apply And.intro
    · decide +kernel
  apply And.intro (authentic_cmdFrame _ _ _ _ _ _ (by decide +kernel) (by decide +kernel) (by decide +kernel) (by decide +kernel))
  apply And.intro (wellFormed_cmdFrame _ _ _ _ _ (by decide +kernel) (by decide +kernel))
  decide +kernel

/-- The hypotheses of each clause of SelfTestEvents are met. -/
theorem witness_selfTestEvents :
    (let s : State := { up with regs := [(regAddr .frBudLb, 0x1402)], st := { SelfTest.reset with lbPend := 0x80000000 } }; let n := (0 : Nat); let c := (31 : Nat); (s.released = true) ∧ (nextSlice s = some (n, c)) ∧ (s.st.slices.length < rfld s .frBudLb 0 3)) ∧
    (let s : State := { up with otp := [(regAddr .lcRev, 0x100)], st := { SelfTest.reset with lbPend := 0x80000000, lbRun := 0x80000000, slices := [{ cluster := 31, start := 0, blocks := 20, restored := false, failCause := 0 }] } }; let c := (31 : Nat); let k := ({ cluster := 31, start := 0, blocks := 20, restored := false, failCause := 0 } : Slice); let v := BistVerdict.pass; (s.released = true) ∧ (c < 32) ∧ (sliceOf s c = some k) ∧ (goldOk s = true) ∧ (k.restored = false) ∧ (v ≠ .restore) ∧ (verdictOf s k v = true)) ∧
    (let s : State := { up with otp := [(regAddr .lcRev, 0x100)], st := { SelfTest.reset with lbPend := 0x80000000, lbRun := 0x80000000, slices := [{ cluster := 31, start := 0, blocks := 20, restored := false, failCause := 0 }] } }; let c := (31 : Nat); let k := ({ cluster := 31, start := 0, blocks := 20, restored := false, failCause := 0 } : Slice); let v := BistVerdict.restore; (s.released = true) ∧ (c < 32) ∧ (sliceOf s c = some k) ∧ (goldOk s = true) ∧ (k.restored = false) ∧ (v = .restore)) ∧
    (let s : State := { up with otp := [(regAddr .lcRev, 0x100)], st := { SelfTest.reset with lbPend := 0x80000000, lbRun := 0x80000000, slices := [{ cluster := 31, start := 0, blocks := 20, restored := true, failCause := 0 }] } }; let c := (31 : Nat); let k := ({ cluster := 31, start := 0, blocks := 20, restored := true, failCause := 0 } : Slice); (s.released = true) ∧ (c < 32) ∧ (sliceOf s c = some k) ∧ (k.restored = true) ∧ (k.failCause = 0) ∧ ((s.st.heldW.all fun p => clusterAt p.1 != some c) = true)) ∧
    (let s : State := { up with otp := [(regAddr .lcRev, 0x100)], st := { SelfTest.reset with lbPend := 0x80000000, lbRun := 0x80000000, slices := [{ cluster := 31, start := 0, blocks := 20, restored := true, failCause := 2 }] } }; let c := (31 : Nat); let k := ({ cluster := 31, start := 0, blocks := 20, restored := true, failCause := 2 } : Slice); (s.released = true) ∧ (c < 32) ∧ (sliceOf s c = some k) ∧ (k.restored = true) ∧ (k.failCause ≠ 0) ∧ ((s.st.heldW.all fun p => clusterAt p.1 != some c) = true)) ∧
    (let s : State := { up with byre := { Byre.reset with checks := true }, st := { SelfTest.reset with astTodo := [5], astSrc := 3 } }; let item := (5 : Nat); let r := ({ values := [(255, 8)], locked := false } : AstResult); (s.released = true) ∧ (s.st.astTodo = [item]) ∧ (item < 6) ∧ (astMay s item = true) ∧ (s.byre.checks = true) ∧ (s.st.astPath = none) ∧ (((judged s item r.values).filter fun p => outOfWindow s item p.1 p.2) = []) ∧ (item = 1 → r.locked = true)) ∧
    (let s : State := { up with byre := { Byre.reset with checks := true }, st := { SelfTest.reset with astTodo := [5], astSrc := 3 } }; let item := (5 : Nat); let r := ({ values := [(255, 9)], locked := false } : AstResult); (s.released = true) ∧ (s.st.astTodo = [item]) ∧ (item < 6) ∧ (astMay s item = true) ∧ (s.byre.checks = true) ∧ (s.st.astPath = none) ∧ (((judged s item r.values).filter fun p => outOfWindow s item p.1 p.2) ≠ []) ∧ (s.st.astLog.length ≤ 16)) ∧
    (let s : State := { keyed with st := { SelfTest.reset with trans := .toPurge 4 9 } }; let target := (4 : Nat); let n := (9 : Nat); (s.released = true) ∧ (s.st.trans = .toPurge target n)) ∧
    (let s : State := { keyed with st := { SelfTest.reset with trans := .purging 4 9, purgeMark := true } }; let target := (4 : Nat); let n := (9 : Nat); (s.released = true) ∧ (s.st.trans = .purging target n)) ∧
    (let s : State := { keyed with st := { SelfTest.reset with trans := .blowing 3 9 false } }; let n := (9 : Nat); (s.released = true) ∧ (s.st.trans = .blowing 3 n false) ∧ ((port s 0).buf = []) ∧ ((port s 1).buf = []) ∧ (s.mspi.cmd = none)) ∧
    (let s : State := { keyed with st := { SelfTest.reset with trans := .blowing 4 9 true } }; let target := (4 : Nat); let n := (9 : Nat); (s.released = true) ∧ (s.st.trans = .blowing target n true)) := by
  iterate 10
    apply And.intro
    · decide +kernel
  decide +kernel

/-- The hypotheses of each clause of PortLinks are met. -/
theorem witness_portLinks :
    (let s : State := { setPort 1 { Port.reset with up := true, lock := true, helloOk := true, resps := [[1]] } up with regs := [(regAddr (.ptCfg 1), 1)] }; let p := (1 : Nat); (s.released = true) ∧ (p = 0 ∨ p = 1 ∨ p = 3) ∧ (p ≠ 3 ∨ chainPos s ≠ 0) ∧ ((port s p).up = true)) ∧
    (let s : State := { setPort 1 { Port.reset with lock := true } up with regs := [(regAddr (.ptCfg 1), 1)] }; let p := (1 : Nat); (s.released = true) ∧ (p = 0 ∨ p = 1 ∨ p = 3) ∧ (p ≠ 3 ∨ chainPos s ≠ 0) ∧ ((port s p).up = false)) ∧
    (let s : State := { setPort 1 { Port.reset with hiber := true } up with regs := [(regAddr (.ptCfg 1), 1)] }; let p := (1 : Nat); (s.released = true) ∧ (p = 0 ∨ p = 1 ∨ p = 3) ∧ (p ≠ 3 ∨ chainPos s ≠ 0) ∧ ((port s p).lock = false) ∧ ((port s p).up = false)) ∧
    (let s : State := { setPort 1 { Port.reset with hiber := true, lock := true, helloOk := true } up with regs := [(regAddr (.ptCfg 1), 1)] }; let p := (1 : Nat); (s.released = true) ∧ (p = 0 ∨ p = 1 ∨ p = 3) ∧ (p ≠ 3 ∨ chainPos s ≠ 0) ∧ ((port s p).hiber = true) ∧ ((port s p).up = false)) ∧
    (let s : State := { setPort 1 { Port.reset with lf := true, lock := true, helloOk := true } up with regs := [(regAddr (.ptCfg 1), 1)] }; let p := (1 : Nat); (s.released = true) ∧ (p = 0 ∨ p = 1 ∨ p = 3) ∧ (p ≠ 3 ∨ chainPos s ≠ 0) ∧ (((port s p).lf || (port s p).rf) = true) ∧ ((port s p).up = false)) ∧
    (let s : State := { setPort 1 { Port.reset with lock := true } up with regs := [(regAddr (.ptCfg 1), 1)] }; let p := (1 : Nat); let f := ({ kind := 5, flags := 0, nwords := 1, lseq := 0, body := [0x0000000700000000], fcs := fcsOf 5 0 1 0 [0x0000000700000000], clean := true } : LinkFrame); (s.released = true) ∧ (p = 0 ∨ p = 1 ∨ p = 3) ∧ (p ≠ 3 ∨ chainPos s ≠ 0) ∧ ((port s p).lock = true) ∧ (portEn s p = true) ∧ (linkOk p f = true) ∧ (f.kind = 5) ∧ ((port s p).up = false)) ∧
    (let s : State := { setPort 1 { Port.reset with lock := true, up := true, helloOk := true } up with regs := [(regAddr (.ptCfg 1), 1)] }; let p := (1 : Nat); let f := ({ kind := 5, flags := 0, nwords := 1, lseq := 0, body := [0x0000000700000000], fcs := fcsOf 5 0 1 0 [0x0000000700000000], clean := true } : LinkFrame); (s.released = true) ∧ (p = 0 ∨ p = 1 ∨ p = 3) ∧ (p ≠ 3 ∨ chainPos s ≠ 0) ∧ ((port s p).lock = true) ∧ (portEn s p = true) ∧ (linkOk p f = true) ∧ (f.kind = 5) ∧ (hi32 (f.body.headD 0) ≠ reg s (.ptPsess p))) ∧
    (let s : State := { setPort 1 { Port.reset with up := true, lock := true, helloOk := true } up with regs := [(regAddr (.ptCfg 1), 1)] }; let p := (1 : Nat); (s.released = true) ∧ (p = 0 ∨ p = 1 ∨ p = 3) ∧ (p ≠ 3 ∨ chainPos s ≠ 0) ∧ ((port s p).helloOk = true)) ∧
    (let s : State := { setPort 1 { Port.reset with lock := true } up with regs := [(regAddr (.ptCfg 1), 1)] }; let p := (1 : Nat); (s.released = true) ∧ (p = 0 ∨ p = 1 ∨ p = 3) ∧ (s.st.lcState ≠ 5) ∧ (portEn s p = true) ∧ (p = 3 ∨ (port s p).lock = true)) ∧
    (let s : State := { setPort 3 { Port.reset with lock := true, hiber := true, lf := true, helloOk := true } up with regs := [(regAddr (.ptCfg 3), 1)] }; (s.released = true) ∧ (chainPos s = 0)) ∧
    (let s : State := { setPort 3 { Port.reset with lock := true, hiber := true, lf := true, helloOk := true } up with regs := [(regAddr (.ptCfg 3), 1)] }; (s.released = true) ∧ (chainPos s = 0)) ∧
    (let s : State := { setPort 3 { Port.reset with lock := true, hiber := true, lf := true, helloOk := true } up with regs := [(regAddr (.ptCfg 3), 1)] }; (s.released = true) ∧ (chainPos s = 0)) ∧
    (let s : State := { setPort 3 { Port.reset with lock := true, hiber := true, lf := true, helloOk := true } up with regs := [(regAddr (.ptCfg 3), 1)] }; (s.released = true) ∧ (chainPos s = 0)) ∧
    (let s : State := { setPort 3 { Port.reset with lock := true, hiber := true, lf := true, helloOk := true } up with regs := [(regAddr (.ptCfg 3), 1)] }; (s.released = true) ∧ (chainPos s = 0)) ∧
    (let s : State := { setPort 3 { Port.reset with lock := true, hiber := true, lf := true, helloOk := true } up with regs := [(regAddr (.ptCfg 3), 1)] }; (s.released = true) ∧ (chainPos s = 0)) ∧
    (let s : State := { { setPort 1 { Port.reset with lock := true } up with regs := [(regAddr (.ptCfg 1), 1)] } with st := { SelfTest.reset with lcState := 5 } }; let p := (1 : Nat); (s.released = true) ∧ (p = 0 ∨ p = 1 ∨ p = 3) ∧ (s.st.lcState = 5)) := by
  iterate 15
    apply And.intro
    · decide +kernel
  decide +kernel

/-- The hypotheses of each clause of PortFlow are met. -/
theorem witness_portFlow :
    (let s : State := { setPort 1 { Port.reset with up := true } up with regs := [(regAddr (.ptCfg 1), 1)] }; let p := (1 : Nat); let q := (65535 : Nat); (s.released = true) ∧ (p < 2) ∧ (q < 65536) ∧ ((port s p).up = true)) ∧
    (let s : State := { setPort 1 { Port.reset with up := true, pausedTo := some 9 } up with regs := [(regAddr (.ptCfg 1), 1)] }; let p := (1 : Nat); let n := (9 : Nat); (s.released = true) ∧ (p < 2) ∧ ((port s p).pausedTo = some n)) ∧
    (let s : State := { setPort 1 { Port.reset with lock := true, buf := List.replicate 3 (List.replicate 1800 0) } up with regs := [(regAddr (.ptCfg 1), 1)] }; let p := (1 : Nat); (s.released = true) ∧ (p < 2) ∧ (s.st.lcState ≠ 5) ∧ (portEn s p = true) ∧ ((port s p).lock = true) ∧ ((port s p).xoff = false) ∧ (bufFree s p < 24576)) ∧
    (let s : State := { setPort 1 { Port.reset with lock := true, xoff := true } up with regs := [(regAddr (.ptCfg 1), 1)] }; let p := (1 : Nat); (s.released = true) ∧ (p < 2) ∧ (s.st.lcState ≠ 5) ∧ (portEn s p = true) ∧ ((port s p).lock = true) ∧ ((port s p).xoff = true) ∧ (40960 ≤ bufFree s p)) ∧
    (let s : State := { setPort 1 { Port.reset with lock := true, xoff := true, buf := List.replicate 3 (List.replicate 1800 0) } up with regs := [(regAddr (.ptCfg 1), 1)] }; let p := (1 : Nat); (s.released = true) ∧ (p < 2) ∧ (s.st.lcState ≠ 5) ∧ (portEn s p = true) ∧ ((port s p).lock = true) ∧ ((port s p).xoff = true) ∧ (bufFree s p < 40960)) ∧
    (let s : State := { setPort 1 { Port.reset with lock := true } up with regs := [(regAddr (.ptCfg 1), 1)] }; let p := (1 : Nat); (s.released = true) ∧ (p < 2) ∧ (s.st.lcState ≠ 5) ∧ (portEn s p = true) ∧ ((port s p).lock = true) ∧ ((port s p).xoff = false) ∧ (24576 ≤ bufFree s p)) ∧
    (let s : State := { setPort 1 { Port.reset with up := true, resps := [[1, 2]] } up with regs := [(regAddr (.ptCfg 1), 1)] }; let path := Path.p1; let p := (1 : Nat); let ws := ([1, 2] : List W64); let rest := ([] : List (List W64)); (s.released = true) ∧ (portNo path = some p) ∧ (mayRespond s p = true) ∧ ((port s p).resps = ws :: rest)) := by
  decide +kernel

/-- The hypotheses of each clause of TtcStream are met. -/
theorem witness_ttcStream :
    (let s : State := { ticking with regs := [(regAddr .ptTtcCfg, 0x11)] }; let ph := (63 : Nat); (s.released = true) ∧ (ph < 64) ∧ (ttcEn s = true) ∧ (s.ttc.lock = false)) ∧
    (let s : State := { ticking with regs := [(regAddr .ptTtcCfg, 0x11)], ttc := { Ttc.reset with lock := true } }; (s.released = true) ∧ (s.ttc.lock = true)) ∧
    (let s : State := { ticking with regs := [(regAddr .ptTtcCfg, 0x11)], ttc := { Ttc.reset with lock := true } }; let code := (5 : BitVec 16); let time := (77 : W64); let ck := crc16 (bytesOf 2 code.toNat ++ bytesOf 8 time.toNat); (s.released = true) ∧ (ttcTakes s = true) ∧ (crc16 (bytesOf 2 code.toNat ++ bytesOf 8 time.toNat) = ck)) ∧
    (let s : State := { ticking with regs := [(regAddr .ptTtcCfg, 0x11)], ttc := { Ttc.reset with lock := true } }; let code := (5 : BitVec 16); let time := (77 : W64); let ck := (crc16 (bytesOf 2 code.toNat ++ bytesOf 8 time.toNat) ^^^ 1); (s.released = true) ∧ (ttcTakes s = true) ∧ (crc16 (bytesOf 2 code.toNat ++ bytesOf 8 time.toNat) ≠ ck)) ∧
    (let s : State := { ticking with regs := [(regAddr .ptTtcCfg, 0x11)], ttc := { Ttc.reset with lock := true, release := [(9, 77, 5)] } }; let code := (5 : BitVec 16); let time := (77 : W64); let n := (9 : Nat); let rest := ([] : List (Nat × W64 × BitVec 16)); (s.released = true) ∧ (s.ttc.release = (n, time, code) :: rest)) ∧
    (let s : State := { ticking with regs := [(regAddr .ptTtcCfg, 0x11)], ttc := { Ttc.reset with lock := true } }; let fm := (0 : BitVec 48); let ck := crc16 (bytesOf 6 fm.toNat); (s.released = true) ∧ (ttcTakes s = true) ∧ (crc16 (bytesOf 6 fm.toNat) = ck) ∧ (s.fr.running = true) ∧ (markMatched s fm.toNat = true)) ∧
    (let s : State := { ticking with regs := [(regAddr .ptTtcCfg, 0x11)], ttc := { Ttc.reset with lock := true, matched := true } }; let fm := (5 : BitVec 48); let ck := crc16 (bytesOf 6 fm.toNat); (s.released = true) ∧ (ttcTakes s = true) ∧ (crc16 (bytesOf 6 fm.toNat) = ck) ∧ (s.fr.running = true) ∧ (markMatched s fm.toNat = false)) ∧
    (let s : State := { ticking with regs := [(regAddr .ptTtcCfg, 0x11)], ttc := { Ttc.reset with lock := true } }; let fm := (5 : BitVec 48); let ck := (crc16 (bytesOf 6 fm.toNat) ^^^ 1); (s.released = true) ∧ (ttcTakes s = true) ∧ (crc16 (bytesOf 6 fm.toNat) ≠ ck)) ∧
    (let s : State := { ticking with regs := [(regAddr .ptTtcCfg, 0x11)], ttc := { Ttc.reset with lock := true } }; let code := (5 : W8); let arg := (77 : BitVec 16); let ck := crc16 (bytesOf 1 code.toNat ++ bytesOf 2 arg.toNat); (s.released = true) ∧ (ttcTakes s = true) ∧ (crc16 (bytesOf 1 code.toNat ++ bytesOf 2 arg.toNat) = ck) ∧ (s.ttc.bc.length < 16)) ∧
    (let s : State := { ticking with regs := [(regAddr .ptTtcCfg, 0x11)], ttc := { Ttc.reset with lock := true, bc := List.replicate 16 1 } }; let code := (5 : W8); let arg := (77 : BitVec 16); let ck := crc16 (bytesOf 1 code.toNat ++ bytesOf 2 arg.toNat); (s.released = true) ∧ (ttcTakes s = true) ∧ (crc16 (bytesOf 1 code.toNat ++ bytesOf 2 arg.toNat) = ck) ∧ (16 ≤ s.ttc.bc.length)) ∧
    (let s : State := { ticking with regs := [(regAddr .ptTtcCfg, 0x11)], ttc := { Ttc.reset with lock := true } }; let code := (5 : W8); let arg := (77 : BitVec 16); let ck := (crc16 (bytesOf 1 code.toNat ++ bytesOf 2 arg.toNat) ^^^ 1); (s.released = true) ∧ (ttcTakes s = true) ∧ (crc16 (bytesOf 1 code.toNat ++ bytesOf 2 arg.toNat) ≠ ck)) := by
  iterate 10
    apply And.intro
    · decide +kernel
  decide +kernel

/-- The hypotheses of each clause of ReadsThatAct are met. -/
theorem witness_readsThatAct :
    (let s : State := { up with regs := [(regAddr (.clBudSysMin 31), 5)] }; let u := upToNow s; let who := st0; let c := (31 : Nat); (s.released = true) ∧ (u = upToNow s) ∧ (c < 32) ∧ (outOfService u c = false) ∧ (mayRead u who.tenant (.clBudSysMin c) = true)) ∧
    (let s : State := { up with regs := [(regAddr .tbPherrMax, 5)] }; let u := upToNow s; (s.released = true) ∧ (u = upToNow s)) ∧
    (let s : State := lane 255 { PulseLane.reset with dropLog := [0x80000005] }; let u := upToNow s; let who := st0; let k := (255 : Nat); (s.released = true) ∧ (u = upToNow s) ∧ (k < 256) ∧ (outOfService u (pulseCl k) = false) ∧ (mayRead u who.tenant (.lnDropLog k) = true)) ∧
    (let s : State := lane 255 { PulseLane.reset with dropLog := [0x80000005] }; let u := upToNow s; let who := ({ path := .p0, tenant := 9 } : Who); let k := (255 : Nat); (s.released = true) ∧ (u = upToNow s) ∧ (k < 256) ∧ (outOfService u (pulseCl k) = false) ∧ (mayRead u who.tenant (.lnDropLog k) = false)) ∧
    (let s : State := setMeas 255 { Measure.reset with words := [1, 2, 3, 4, 5], seq := 3 } up; let u := upToNow s; let who := st0; let k := (255 : Nat); (s.released = true) ∧ (u = upToNow s) ∧ (k < 256) ∧ (outOfService u (stampCl k) = false) ∧ (mayRead u who.tenant (.rgRes k 0) = true)) ∧
    (let s : State := { up with tn := { TenUnit.reset with failLog := [5, 6] } }; let u := upToNow s; let who := st0; (s.released = true) ∧ (u = upToNow s) ∧ (who.tenant = 0)) ∧
    (let s : State := { up with ttc := { Ttc.reset with bc := [5, 6] } }; let u := upToNow s; let who := st0; (s.released = true) ∧ (u = upToNow s) ∧ (who.tenant = 0)) ∧
    (let s : State := { up with st := { SelfTest.reset with astLog := [5, 6] } }; let u := upToNow s; let who := st0; (s.released = true) ∧ (u = upToNow s) ∧ (who.tenant = 0)) ∧
    (let s : State := { up with fl := { FaultUnit.reset with ovfLog := [5, 6] } }; let u := upToNow s; let who := st0; (s.released = true) ∧ (u = upToNow s) ∧ (who.tenant = 0)) ∧
    (let s : State := up; let u := upToNow s; let who := st0; (s.released = true) ∧ (u = upToNow s) ∧ (who.tenant = 0)) ∧
    (let s : State := { ticking with now := 10 }; let u := upToNow s; let who := st0; let a := regAddr .tbTimeLo; let r := (.tbTimeLo : Reg); let h := (.tbTimeHi : Reg); let v := (81920 : W64); (s.released = true) ∧ (u = upToNow s) ∧ (a < 2 ^ 31) ∧ ((clusterAt a).any (outOfService u) = false) ∧ (memAt a = none) ∧ (regOfAddr a = some r) ∧ (mayRead u who.tenant (r) = true) ∧ (readsShadow r = false) ∧ (highOf r = some h) ∧ (wide u who.tenant r = some v)) ∧
    (let s : State := setCluster 31 { Cluster.reset with dmem := [(1, 0x500000007)] } up; let u := upToNow s; let who := st0; let a := (0x2F60008 : Nat); let c := (31 : Nat); let i := (1 : Nat); (s.released = true) ∧ (u = upToNow s) ∧ (a < 2 ^ 31) ∧ (outOfService u c = false) ∧ (memAt a = some (c, true, i, false)) ∧ (memReads u who.tenant c true i = true) ∧ ((cluster u c).dmemBad.contains i = false)) ∧
    (let s : State := up; let u := upToNow s; let a := (regAddr .tbPherrMax); (s.released = true) ∧ (u = upToNow s) ∧ (a < 2 ^ 31)) ∧
    (let s : State := { setPlayback 3 Playback.reset up with regs := [(regAddr .flTmrCnt, 8)], acc := { SameCycle.reset with lc := lc up, olds := [(regAddr .flTmrCnt, 7)] } }; let u := upToNow s; let who := st0; let r := (.flTmrCnt : Reg); (s.released = true) ∧ (u = upToNow s) ∧ ((clusterAt (regAddr r)).any (outOfService u) = false) ∧ (memAt (regAddr r) = none) ∧ (regAddr r < 2 ^ 31) ∧ (regOfAddr (regAddr r) = some r) ∧ (isCounter r = true) ∧ (highOf r = none) ∧ (mayRead u who.tenant (r) = true)) := by
  iterate 13
    apply And.intro
    · decide +kernel
  decide +kernel

/-- The hypotheses of each clause of PeekReads are met. -/
theorem witness_peekReads :
    (let s : State := up; let a := (regAddr .tbPherrMax); let r := Reg.tbPherrMax; (s.released = true) ∧ (a < 2 ^ 31) ∧ (regOfAddr a = some r)) := by
  decide +kernel

/-- The hypotheses of each clause of MspiTransfers are met. -/
theorem witness_mspiTransfers :
    (let o := (0x10 : Nat); (o < 65536)) ∧
    (let s : State := up; let o := (0x10 : Nat); let l := ([5, 6] : List W32); (o < 65536) ∧ (s.mspi.wbuf = []) ∧ (1 ≤ l.length) ∧ (l.length ≤ 16)) ∧
    (let s : State := up; let o := (0x10 : Nat); let l := ([] : List W32); (o < 65536) ∧ (s.mspi.wbuf ≠ [] ∨ l = [] ∨ 16 < l.length)) ∧
    (let s : State := { up with mspi := { Mspi.reset with wbuf := [(0xFFFC, 5), (8, 6)], applyAt := 9 } }; let o := (0xFFFC : Nat); let v := (5 : W32); let l := ([(8, 6)] : List (Nat × W32)); (s.mspi.wbuf = (o, v) :: l) ∧ (s.byre.mirror = []) ∧ ((match regOfAddr (0x700000 + o) with | some r => mspiMay s r | none => false) = false)) ∧
    (let s : State := { up with mspi := { Mspi.reset with wbuf := [(regAddr .byKtReload - 0x700000, 5), (8, 6)], applyAt := 9 } }; let o := (regAddr .byKtReload - 0x700000 : Nat); let v := (5 : W32); let l := ([(8, 6)] : List (Nat × W32)); (s.mspi.wbuf = (o, v) :: l) ∧ (s.byre.mirror = []) ∧ (0x700000 + o = regAddr .byKtReload) ∧ (rbit s .byCfg 31 = false)) ∧
    (let s : State := { up with byre := { Byre.reset with ready := true } }; let n := (40 : Nat); let l := ([0x0120000000000002, 0, 0, 7, 9] : List W64); (s.released = true) ∧ (n = 8 * l.length) ∧ (s.byre.ready = true) ∧ (s.mspi.cmdBusy = false) ∧ (wellFormed l = true) ∧ (canVerify s = false)) ∧
    (let s : State := up; let n := (41 : Nat); let l := ([0x0120000000000002, 0, 0, 7, 9] : List W64); (n ≠ 8 * l.length ∨ s.mspi.cmdBusy = true ∨ wellFormed l = false ∨ s.byre.ready = false)) := by
  decide +kernel

/-- The hypotheses of each clause of JtagInstructions are met. -/
theorem witness_jtagInstructions :
    (let s : State := { up with byre := { Byre.reset with state := .run, ready := true }, st := { SelfTest.reset with lcState := 1 } }; (tapOn s = true) ∧ (boundaryOn s = true)) ∧
    (let s : State := { up with byre := { Byre.reset with state := .run, ready := true }, st := { SelfTest.reset with lcState := 1 } }; (tapOn s = true) ∧ (s.st.lcState ≠ 5)) ∧
    (let s : State := { up with byre := { Byre.reset with state := .run, ready := true }, st := { SelfTest.reset with lcState := 5 } }; (tapOn s = true) ∧ (boundaryOn s = false)) ∧
    (let s : State := { up with byre := { Byre.reset with state := .run, ready := true }, st := { SelfTest.reset with lcState := 1 } }; (tapOn s = true)) ∧
    (let s : State := { up with byre := { Byre.reset with state := .run, ready := true }, st := { SelfTest.reset with lcState := 1 } }; (tapOn s = true) ∧ (boundaryOn s = true)) ∧
    (let s : State := { up with byre := { Byre.reset with state := .run, ready := true }, st := { SelfTest.reset with lcState := 1 } }; (tapOn s = true) ∧ (boundaryOn s = true)) ∧
    (let s : State := { up with byre := { Byre.reset with state := .run, ready := true }, st := { SelfTest.reset with lcState := 1 } }; (tapOn s = true)) ∧
    (let s : State := { up with byre := { Byre.reset with state := .run, ready := true }, st := { SelfTest.reset with lcState := 1 }, fr := { Frames.reset with running := true } }; let n := (63 : Nat); (n < 64) ∧ (tapOn s = true) ∧ (scanOn s = true) ∧ (s.released = true) ∧ (s.jtag.scanMode = false)) ∧
    (let s : State := { up with byre := { Byre.reset with state := .run, ready := true }, st := { SelfTest.reset with lcState := 2 } }; let n := (63 : Nat); (n < 64) ∧ (tapOn s = true) ∧ (scanOn s = false)) ∧
    (let s : State := { up with byre := { Byre.reset with state := .run, ready := true }, st := { SelfTest.reset with lcState := 1 }, jtag := { Jtag.reset with scanMode := true, chain := 7, chains := [(5, 1)] } }; (scanOn s = true) ∧ (s.jtag.scanMode = true)) ∧
    (let s : State := { up with byre := { Byre.reset with state := .run, ready := true }, st := { SelfTest.reset with lcState := 1 }, jtag := { Jtag.reset with scanMode := true, chain := 7, chains := [(5, 1)] } }; (tapOn s = true) ∧ (scanOn s = true) ∧ (s.jtag.scanMode = true)) ∧
    (let s : State := { up with byre := { Byre.reset with state := .run, ready := true }, st := { SelfTest.reset with lcState := 1 } }; let m := (0x3F : Nat); (m < 256) ∧ (m % 64 ≠ 0) ∧ (tapOn s = true) ∧ (astOn s = true) ∧ (s.released = true) ∧ (s.st.astTodo = [])) ∧
    (let s : State := { up with byre := { Byre.reset with state := .run, ready := true }, st := { SelfTest.reset with lcState := 1 } }; (tapOn s = true) ∧ (astOn s = true)) ∧
    (let s : State := { up with byre := { Byre.reset with state := .run, ready := true }, st := { SelfTest.reset with lcState := 2 } }; let a := (65535 : Nat); (a < 65536) ∧ (tapOn s = true) ∧ (s.st.lcState ≠ 5)) ∧
    (let s : State := { up with byre := { Byre.reset with state := .run, ready := true }, st := { SelfTest.reset with lcState := 1 }, otp := [(2 ^ 40 + 65535, 8)] }; let a := (65535 : Nat); (a < 65536) ∧ (tapOn s = true) ∧ (s.st.lcState = 0 ∨ s.st.lcState = 1)) ∧
    (let s : State := { up with byre := { Byre.reset with state := .run, ready := true }, st := { SelfTest.reset with lcState := 1 } }; let g := (5 : Nat); (g < 8) ∧ (tapOn s = true) ∧ (s.st.lcState ≠ 5) ∧ (s.released = true) ∧ (lcadvListed s g = true) ∧ (noTransition s = true)) ∧
    (let s : State := { up with byre := { Byre.reset with state := .run, ready := true }, st := { SelfTest.reset with lcState := 1 } }; let g := (7 : Nat); (g < 8) ∧ (tapOn s = true) ∧ (lcadvListed s g = false ∨ noTransition s = false)) := by
  iterate 16
    apply And.intro
    · decide +kernel
  decide +kernel

/-- The hypotheses of each clause of PowerSequence are met. -/
theorem witness_powerSequence :
    (let s : State := { up with byre := { Byre.reset with state := .powerup, pwren := 0, stepAt := 7 }, regs := [] }; (s.byre.state = .powerup) ∧ (s.byre.pwren = 0)) ∧
    (let s : State := { up with byre := { Byre.reset with state := .powerup, pwren := 1, stepAt := 7 }, regs := [] }; (s.byre.state = .powerup) ∧ (s.byre.pwren = 1)) ∧
    (let s : State := { up with byre := { Byre.reset with state := .powerup, pwren := 3, stepAt := 7 }, regs := [] }; (s.byre.state = .powerup) ∧ (s.byre.pwren = 3)) ∧
    (let s : State := { up with byre := { Byre.reset with state := .powerup, pwren := 7, stepAt := 7 }, regs := [] }; (s.byre.state = .powerup) ∧ (s.byre.pwren = 7)) ∧
    (let s : State := { up with byre := { Byre.reset with state := .powerup, pwren := 15, rails := 0x3B, cause := 6, rram := [(0, 0x80000000)] }, regs := [(regAddr .byCfg, 0x10)] }; (s.byre.state = .powerup) ∧ (s.byre.pwren = 15)) ∧
    (let s : State := { up with byre := { Byre.reset with state := .powerup, pwren := 7 }, regs := [] }; (s.byre.state = .powerup) ∧ (s.byre.pwren >>> 1 ≠ (0 : BitVec 4))) ∧
    (let s : State := { up with byre := { Byre.reset with state := .powerdown, pwren := 1 }, regs := [] }; (s.byre.state = .powerdown) ∧ (s.byre.wpend = none)) ∧
    (let s : State := { up with byre := { Byre.reset with state := .powerdown, pwren := 1, wpend := some { cause := 6, mask := 4, edge := 2 } }, regs := [] }; let w := ({ cause := 6, mask := 4, edge := 2 } : WakeHeld); (s.byre.state = .powerdown) ∧ (s.byre.pwren >>> 1 = (0 : BitVec 4)) ∧ (s.byre.wpend = some w)) ∧
    (let s : State := { up with byre := { Byre.reset with state := .run, pwren := 15, rails := 0x3F }, regs := [] }; let lost := (1 : BitVec 6); (lost ≠ 0) ∧ (s.released = true) ∧ (s.byre.pwren >>> 1 ≠ (0 : BitVec 4))) ∧
    (let s : State := { up with byre := { Byre.reset with state := .sleep, restartAt := some 32 }, regs := [] }; let n := (32 : Nat); (s.byre.state = .sleep) ∧ (s.byre.restartAt = some n)) ∧
    (let s : State := { up with byre := { Byre.reset with state := .drain, pwren := 15, drainSave := [1, 2, 3, 4, 5, 6] }, regs := [] }; (s.byre.state = .drain) ∧ (writerWorks s = false) ∧ (s.byre.pwren >>> 1 ≠ (0 : BitVec 4))) ∧
    (let s : State := { up with byre := { Byre.reset with state := .drain, pwren := 15, drainSave := [1, 2, 3, 4, 5, 6] }, regs := [] }; (s.byre.state = .drain) ∧ (s.byre.pwren >>> 1 ≠ (0 : BitVec 4))) := by
  iterate 11
    apply And.intro
    · decide +kernel
  decide +kernel

/-- The hypotheses of each clause of ResetsAndStarts are met. -/
theorem witness_resetsAndStarts :
    (let s : State := { up with byre := { Byre.reset with state := .run, pwren := 15, rails := 0x3F, ready := true }, regs := [] }; let src := ByPath.mspi; (ByMay s src = true) ∧ (s.byre.mirror = []) ∧ (outranked (toKc (s.byre.kc + 2) s) 5 = false) ∧ (s.byre.state = .run)) ∧
    (let s : State := { up with byre := { Byre.reset with state := .run, pwren := 15, rails := 0x3F, ready := true }, regs := [] }; let src := ByPath.mspi; (ByMay s src = true) ∧ (s.byre.mirror = []) ∧ (outranked (toKc (s.byre.kc + 2) s) 4 = false) ∧ (s.byre.state ≠ .sleep) ∧ (s.byre.state ≠ .powerdown) ∧ (s.byre.pwren >>> 1 ≠ (0 : BitVec 4))) ∧
    (let s : State := { up with byre := { Byre.reset with state := .run, pwren := 15, rails := 0x3F, ready := true }, regs := [] }; let src := ByPath.mspi; let k := (0x5A : W8); (ByMay s src = true) ∧ (s.byre.mirror = []) ∧ (k ≠ 0xA5)) ∧
    (let s : State := { up with byre := { Byre.reset with state := .run, pwren := 15, rails := 0x3F, ready := true }, regs := [] }; let src := ByPath.mspi; let k := (0x5A : W8); (ByMay s src = true) ∧ (s.byre.mirror = []) ∧ (k ≠ 0xA5)) ∧
    (let s : State := { up with byre := { Byre.reset with state := .run, pwren := 15, rails := 0x3F, ready := true }, regs := [] }; let src := ByPath.mspi; let k := (0x5A : W8); (ByMay s src = true) ∧ (s.byre.mirror = []) ∧ (k ≠ 0xA5)) ∧
    (let s : State := { up with byre := { Byre.reset with state := .run, pwren := 15, rails := 0x3F, ready := true }, regs := [] }; let src := ByPath.mspi; (ByMay s src = true) ∧ (s.byre.mirror = []) ∧ (outranked (toKc (s.byre.kc + 2) s) 3 = false) ∧ (s.byre.state ≠ .sleep) ∧ (s.byre.state ≠ .powerdown)) ∧
    (let s : State := { up with byre := { Byre.reset with state := .run, pwren := 15, rails := 0x3F, ready := true, kc := 4, decided := (6, 2) }, regs := [] }; let src := ByPath.mspi; (ByMay s src = true) ∧ (s.byre.mirror = []) ∧ (outranked (toKc (s.byre.kc + 2) s) 5 = true)) ∧
    (let s : State := { up with byre := { Byre.reset with state := .run, pwren := 15, rails := 0x3F, ready := true, kc := 4, decided := (6, 2) }, regs := [] }; let src := ByPath.mspi; (ByMay s src = true) ∧ (s.byre.mirror = []) ∧ (outranked (toKc (s.byre.kc + 2) s) 4 = true)) ∧
    (let s : State := { up with byre := { Byre.reset with state := .run, pwren := 15, rails := 0x3F, ready := true, kc := 4, decided := (6, 2) }, regs := [] }; let src := ByPath.mspi; (ByMay s src = true) ∧ (s.byre.mirror = []) ∧ (outranked (toKc (s.byre.kc + 2) s) 3 = true)) ∧
    (let s : State := { up with byre := { Byre.reset with state := .sleep }, regs := [] }; let src := ByPath.mspi; (ByMay s src = true) ∧ (s.byre.mirror = []) ∧ (s.byre.decided.1 ≠ s.byre.kc + 2) ∧ (s.byre.passed.1 ≠ s.byre.kc + 2) ∧ (s.byre.state = .sleep)) ∧
    (let s : State := { up with byre := { Byre.reset with state := .drain }, regs := [] }; let src := ByPath.mspi; (ByMay s src = true) ∧ (s.byre.mirror = []) ∧ (s.byre.decided.1 ≠ s.byre.kc + 2) ∧ (s.byre.passed.1 ≠ s.byre.kc + 2) ∧ (s.byre.wpend.map (·.edge) ≠ some (s.byre.kc + 2)) ∧ (s.byre.state = .drain ∨ s.byre.state = .powerdown)) ∧
    (let s : State := { up with byre := { Byre.reset with state := .run, pwren := 15, rails := 0x3F, ready := true }, regs := [] }; let src := ByPath.mspi; (ByMay s src = true) ∧ (s.byre.mirror = [])) ∧
    (let s : State := { up with byre := { Byre.reset with state := .run, pwren := 15, rails := 0x3F, ready := true }, regs := [] }; (outranked (toKc (s.byre.kc + 1) s) 3 = false) ∧ (s.byre.state ≠ .sleep) ∧ (s.byre.state ≠ .powerdown)) ∧
    (let s : State := { up with byre := { Byre.reset with state := .sleep }, regs := [] }; (outranked (toKc (s.byre.kc + 1) s) 3 = false) ∧ (s.byre.state = .sleep)) ∧
    (let s : State := { up with byre := { Byre.reset with state := .powerdown, kc := 4, decided := (5, 2) }, regs := [] }; (outranked (toKc (s.byre.kc + 1) s) 3 = true)) ∧
    (let s : State := { up with byre := { Byre.reset with state := .reset, pwren := 15, rails := 0x3F, resetEnd := some 9 }, regs := [] }; (s.byre.state = .reset)) ∧
    (let s : State := { ticking with byre := { Byre.reset with state := .start, steps := 0x3F, checks := true } }; (s.released = true) ∧ (s.byre.state = .start) ∧ (stepsComplete (checkSteps s) = true) ∧ (tsLocked s = true) ∧ (s.byre.sleepHeld = false)) ∧
    (let s : State := { ticking with byre := { Byre.reset with state := .start } }; (s.released = true) ∧ (s.byre.state = .start) ∧ (stepsComplete (checkSteps s) = false ∨ tsLocked s = false)) ∧
    (let s : State := { up with byre := { Byre.reset with state := .start }, jr := { Journal.reset with replayed := true } }; (s.released = true) ∧ (s.byre.state = .start) ∧ (s.jr.replayed = true) ∧ (tsLocked s = false) ∧ (s.byre.sleepHeld = false)) := by
  iterate 18
    apply And.intro
    · decide +kernel
  decide +kernel

/-- The hypotheses of each clause of KeeperUnits are met. -/
theorem witness_keeperUnits :
    (let s : State := { up with byre := { Byre.reset with state := .run, comps := [(2, { KComp.reset with blankFrom := 5, blankTo := 20 })] }, regs := [(regAddr (.byKcCfg 2), 0x80000000)] }; let i := (2 : Nat); let n := (9 : Nat); let b := false; let level := true; (edgeBegins (sampleEdge s (max n s.byre.kc)) s = s) ∧ (i < 8) ∧ (rbit s (.byKcCfg i) 31 = true) ∧ (kcState (kcomp s i) b ≠ level) ∧ (kcHidden (kcomp s i) (sampleEdge s (max n s.byre.kc)) = true)) ∧
    (let s : State := { up with byre := { Byre.reset with state := .run, kc := 3 }, regs := [(regAddr (.byKcCfg 2), 0x80000000)] }; let i := (2 : Nat); let n := (9 : Nat); let b := false; let level := true; (edgeBegins (sampleEdge s (max n s.byre.kc)) s = s) ∧ (i < 8) ∧ (rbit s (.byKcCfg i) 31 = true) ∧ (kcState (kcomp s i) b ≠ level) ∧ (kcHidden (kcomp s i) (sampleEdge s (max n s.byre.kc)) = false) ∧ (rbit s (.byKcCfg i) ((if b then 2 else 0) + (if level then 0 else 1)) = false)) ∧
    (let s : State := { up with byre := { Byre.reset with state := .run, kc := 3 }, regs := [(regAddr (.byKcCfg 2), 0x80000001), (regAddr (.byKcBlnk 2), 0x00050000)] }; let i := (2 : Nat); let n := (9 : Nat); let b := false; let level := true; (edgeBegins (sampleEdge s (max n s.byre.kc)) s = s) ∧ (i < 8) ∧ (rbit s (.byKcCfg i) 31 = true) ∧ (kcState (kcomp s i) b ≠ level) ∧ (kcHidden (kcomp s i) (sampleEdge s (max n s.byre.kc)) = false) ∧ (rbit s (.byKcCfg i) ((if b then 2 else 0) + (if level then 0 else 1)) = true) ∧ (channelsOf s (0x900 + i) = [])) ∧
    (let s : State := { up with byre := { Byre.reset with state := .run, mirror := [({ due := 4, addr := regAddr .byWake, mask := 0xF0FF, value := 0x1234 } : ByWrite)], comps := [(2, { KComp.reset with blankFrom := 5, blankTo := 20 })] }, regs := [(regAddr (.byKcCfg 2), 0x80000000)] }; let i := (2 : Nat); let n := (9 : Nat); let b := false; let level := true; let m := ({ due := 4, addr := regAddr .byWake, mask := 0xF0FF, value := 0x1234 } : ByWrite); (i < 8) ∧ (rbit s (.byKcCfg i) 31 = true) ∧ (kcState (kcomp s i) b ≠ level) ∧ (s.byre.mirror = [m]) ∧ (m.addr = regAddr .byWake) ∧ (m.due ≤ (sampleEdge s (max n s.byre.kc))) ∧ (s.mspi.wbuf = []) ∧ (kcHidden (kcomp s i) (sampleEdge s (max n s.byre.kc)) = true)) ∧
    (let s : State := { up with byre := { Byre.reset with state := .sleep, sleptAt := 2 }, regs := [(regAddr (.evMcCtl 250), 0x80000000), (regAddr (.evMcProd 250 0), 0x00000902), (regAddr .byWake, 4), (regAddr (.byKcCfg 2), 0x80000001)], released := false }; let i := (2 : Nat); let n := (9 : Nat); let b := false; let level := true; let ch := (250 : Nat); (edgeBegins (sampleEdge s (max n s.byre.kc)) s = s) ∧ (i < 8) ∧ (rbit s (.byKcCfg i) 31 = true) ∧ (kcState (kcomp s i) b ≠ level) ∧ (kcHidden (kcomp s i) (sampleEdge s (max n s.byre.kc)) = false) ∧ (rbit s (.byKcCfg i) ((if b then 2 else 0) + (if level then 0 else 1)) = true) ∧ (s.byre.wokeAt ≠ some (sampleEdge s (max n s.byre.kc))) ∧ (s.byre.decided.1 ≠ (sampleEdge s (max n s.byre.kc))) ∧ (s.byre.passed.1 ≠ (sampleEdge s (max n s.byre.kc))) ∧ (channelsOf s (0x900 + i) = [ch]) ∧ (tget 0 ch s.ev.lastEv ≠ (sampleEdge s (max n s.byre.kc)) + 1) ∧ (248 ≤ ch) ∧ (ch < 256) ∧ (passes s ch = true) ∧ (bitAt (reg s .byWake) (ch - 248) = true) ∧ (s.byre.state = .sleep) ∧ (s.released = false) ∧ (clearingNow s (regAddr (passReg ch)) (reg s (passReg ch)).toNat = none)) ∧
    (let s : State := up; let i := (7 : Nat); (i < 8) ∧ (rbit s .byCfg 31 = false) ∧ (s.byre.mirror = [])) ∧
    (let s : State := { up with byre := { Byre.reset with comps := [(7, { KComp.reset with pend := true })] }, regs := [(regAddr (.byKcThr 7), 0x028E00A0)] }; let i := (7 : Nat); (i < 8) ∧ ((kcomp s i).pend = true) ∧ ((kcBlanked (kcomp s i) (sampleEdge s (s.byre.kc + 1)) || kcThrClear (kcomp s i) (reg s (.byKcThr i))) = true)) ∧
    (let s : State := { up with byre := { Byre.reset with comps := [(7, { KComp.reset with pend := true, sA := true })] }, regs := [(regAddr (.byKcThr 7), 0x028E00A0)] }; let i := (7 : Nat); (i < 8) ∧ ((kcomp s i).pend = false ∨ (kcBlanked (kcomp s i) (sampleEdge s (s.byre.kc + 1)) || kcThrClear (kcomp s i) (reg s (.byKcThr i))) = false)) ∧
    (let s : State := { up with byre := { Byre.reset with kc := 3 }, regs := [(regAddr .byWake, 0x800)] }; let n := (3 : Nat); let level := true; (n < 4) ∧ (edgeBegins (s.byre.kc + 1) s = s) ∧ (fld s.byre.win n 1 ≠ b2n level) ∧ (level = rbit s .byWake (8 + n))) ∧
    (let s : State := up; let n := (3 : Nat); let level := true; (s.byre.wokeAt ≠ some (s.byre.kc + 1)) ∧ (s.byre.decided.1 ≠ (s.byre.kc + 1)) ∧ (s.byre.passed.1 ≠ (s.byre.kc + 1)) ∧ (n < 4) ∧ (edgeBegins (s.byre.kc + 1) s = s) ∧ (fld s.byre.win n 1 ≠ b2n level) ∧ (level ≠ rbit s .byWake (8 + n)) ∧ (channelsOf s (0xB00 + n) = [])) ∧
    (let s : State := { up with byre := { Byre.reset with state := .sleep, sleptAt := 2 }, regs := [(regAddr (.evMcCtl 250), 0x80000000), (regAddr (.evMcProd 250 0), 0x00000B03), (regAddr .byWake, 4)], released := false }; let n := (3 : Nat); let level := true; let ch := (250 : Nat); (s.byre.wokeAt ≠ some (s.byre.kc + 1)) ∧ (s.byre.decided.1 ≠ (s.byre.kc + 1)) ∧ (s.byre.passed.1 ≠ (s.byre.kc + 1)) ∧ (n < 4) ∧ (edgeBegins (s.byre.kc + 1) s = s) ∧ (fld s.byre.win n 1 ≠ b2n level) ∧ (level ≠ rbit s .byWake (8 + n)) ∧ (channelsOf s (0xB00 + n) = [ch]) ∧ (tget 0 ch s.ev.lastEv ≠ s.byre.kc + 2) ∧ (248 ≤ ch) ∧ (ch < 256) ∧ (passes s ch = true) ∧ (bitAt (reg s .byWake) (ch - 248) = true) ∧ (s.byre.state = .sleep) ∧ (s.released = false) ∧ (clearingNow s (regAddr (passReg ch)) (reg s (passReg ch)).toNat = none)) ∧
    (let s : State := { up with byre := { Byre.reset with state := .powerup, cause := 6, wokeAt := some 4, kc := 3, passed := (4, 1), rram := [(1, 0x60000100)] }, regs := [(regAddr (.evMcCtl 250), 0x80000000), (regAddr (.evMcProd 250 0), 0x00000B03), (regAddr .byWake, 4)], released := false }; let n := (3 : Nat); let level := true; let ch := (250 : Nat); (n < 4) ∧ (edgeBegins (s.byre.kc + 1) s = s) ∧ (fld s.byre.win n 1 ≠ b2n level) ∧ (level ≠ rbit s .byWake (8 + n)) ∧ (channelsOf s (0xB00 + n) = [ch]) ∧ (tget 0 ch s.ev.lastEv ≠ s.byre.kc + 2) ∧ (248 ≤ ch) ∧ (ch < 256) ∧ (passes s ch = true) ∧ (s.byre.state = .powerup) ∧ (s.released = false) ∧ (s.byre.wokeAt = some (s.byre.kc + 1)) ∧ (s.byre.cause = 6)) ∧
    (let s : State := { up with byre := { Byre.reset with state := .sleep, kc := 3, decided := (4, 3) }, regs := [(regAddr (.evMcCtl 250), 0x80000000), (regAddr (.evMcProd 250 0), 0x00000B03), (regAddr .byWake, 4)], released := false }; let n := (3 : Nat); let level := true; let ch := (250 : Nat); (n < 4) ∧ (edgeBegins (s.byre.kc + 1) s = s) ∧ (fld s.byre.win n 1 ≠ b2n level) ∧ (level ≠ rbit s .byWake (8 + n)) ∧ (channelsOf s (0xB00 + n) = [ch]) ∧ (s.byre.state = .sleep) ∧ (s.released = false) ∧ (s.byre.wokeAt ≠ some (s.byre.kc + 1)) ∧ (outranked (toKc (s.byre.kc + 1) s) 6 = true)) ∧
    (let s : State := { up with byre := { Byre.reset with ktLoad := 5 }, regs := [(regAddr .byKtCfg, 0xC0000002)] }; (rbit s .byKtCfg 31 = true) ∧ (edgeBegins (expiryKc s) s = s) ∧ (channelsOf s 0xA00 = [])) ∧
    (let s : State := up; (rbit s .byCfg 31 = false) ∧ (s.byre.mirror = [])) ∧
    (let s : State := up; (rbit s .byCfg 31 = false) ∧ (s.byre.mirror = [])) ∧
    (let s : State := { up with byre := { Byre.reset with kc := 3 }, regs := [(regAddr .byCfg, 0x80000000)] }; (rbit s .byCfg 31 = true) ∧ (s.byre.mirror = [])) ∧
    (let s : State := { up with byre := { Byre.reset with kc := 3 }, regs := [(regAddr .byCfg, 0x80000000)] }; let i := (7 : Nat); (i < 8) ∧ (rbit s .byCfg 31 = true) ∧ (s.byre.mirror = [])) ∧
    (let s : State := { up with byre := { Byre.reset with kc := 3 }, regs := [(regAddr .byCfg, 0x80000000)] }; (rbit s .byCfg 31 = true) ∧ (s.byre.mirror = [])) ∧
    (let s : State := up; let who := st0; (who.tenant = 0) ∧ (s.released = true) ∧ (s.byre.mirror = []) ∧ (journalRefused s 0 none 1 = none)) ∧
    (let s : State := up; let who := st0; let i := (7 : Nat); (i < 8) ∧ (who.tenant = 0) ∧ (s.released = true) ∧ (s.byre.mirror = []) ∧ (journalRefused s 0 none 1 = none)) ∧
    (let s : State := up; let who := st0; (who.tenant = 0) ∧ (s.released = true) ∧ (s.byre.mirror = []) ∧ (journalRefused s 0 none 1 = none)) ∧
    (let s : State := { up with byre := { Byre.reset with kc := 3 }, regs := [(regAddr .byRramAddr, 0x7FC)] }; let src := ByPath.mspi; (ByMay s src = true) ∧ (s.byre.mirror = []) ∧ (0x10 ≤ rramIdx s) ∧ (rramIdx s < 0x200)) ∧
    (let s : State := { up with byre := { Byre.reset with kc := 3 }, regs := [(regAddr .byRramAddr, 0xFFC)] }; let src := ByPath.mspi; (ByMay s src = true) ∧ (s.byre.mirror = []) ∧ (rramIdx s < 0x10 ∨ 0x200 ≤ rramIdx s)) ∧
    (let s : State := { up with byre := { Byre.reset with xtry := true }, regs := [], otp := [(regAddr .idPart, 2)] }; (kPart s = true) ∧ (s.byre.xtry = true)) ∧
    (let s : State := { up with byre := { Byre.reset with xk := true, xok := true }, regs := [] }; (s.byre.xk = true)) ∧
    (let s : State := { up with byre := { Byre.reset with retryAt := 50 }, regs := [(regAddr .byClk, 1)] }; (rbit s .byClk 0 = true) ∧ (s.byre.xk = false) ∧ (s.byre.xtry = false)) ∧
    (let s : State := ticking; let n := (9765625 : Nat); (n < 2 ^ 24) ∧ (s.released = true) ∧ (s.tb.ts = .locked)) ∧
    (let s : State := { up with byre := { Byre.reset with mirror := [({ due := 9, addr := regAddr .byWake, mask := 0xF0FF, value := 0x1234 } : ByWrite)] } }; let m := ({ due := 9, addr := regAddr .byWake, mask := 0xF0FF, value := 0x1234 } : ByWrite); (s.byre.mirror = [m]) ∧ (m.addr = regAddr .byWake)) := by
  iterate 28
    apply And.intro
    · decide +kernel
  decide +kernel

/-- The hypotheses of each clause of JournalWriter are met. -/
theorem witness_journalWriter :
    (let s : State := { up with jr := { Journal.reset with cur := some ({ start := 11, seq := 3, r := ({ id := 7, type := 0x25, tenant := 0, sched := none, payload := [1, 2], replay := false } : JRec), words := jrWords 3 ({ id := 7, type := 0x25, tenant := 0, sched := none, payload := [1, 2], replay := false } : JRec) false, written := 2 } : JWrite), fill := 13, seq := 3 } }; let w := ({ start := 11, seq := 3, r := ({ id := 7, type := 0x25, tenant := 0, sched := none, payload := [1, 2], replay := false } : JRec), words := jrWords 3 ({ id := 7, type := 0x25, tenant := 0, sched := none, payload := [1, 2], replay := false } : JRec) false, written := 2 } : JWrite); (s.released = true) ∧ (s.jr.compact = none) ∧ (s.jr.cur = some w) ∧ (w.written + 1 < w.words.length)) ∧
    (let s : State := { up with jr := { Journal.reset with cmdQ := [({ id := 7, type := 0x25, tenant := 0, sched := none, payload := [1, 2], replay := false } : JRec)], fill := 11, seq := 2 } }; let r := ({ id := 7, type := 0x25, tenant := 0, sched := none, payload := [1, 2], replay := false } : JRec); let l := ([] : List JRec); (s.released = true) ∧ (s.jr.compact = none) ∧ (s.jr.cur = none) ∧ (s.jr.fill ≠ 0) ∧ (s.jr.cmdQ = r :: l)) ∧
    (let s : State := { up with jr := { Journal.reset with resQ := [({ id := 7, type := 0x25, tenant := 0, sched := none, payload := [1, 2], replay := false } : JRec)], fill := 11, seq := 2 } }; let r := ({ id := 7, type := 0x25, tenant := 0, sched := none, payload := [1, 2], replay := false } : JRec); let l := ([] : List JRec); (s.released = true) ∧ (s.jr.compact = none) ∧ (s.jr.cur = none) ∧ (s.jr.fill ≠ 0) ∧ (s.jr.resQ = r :: l) ∧ (s.jr.cmdQ = [])) ∧
    (let s : State := { up with jr := { Journal.reset with sysQ := [({ id := 7, type := 0x25, tenant := 0, sched := none, payload := [1, 2], replay := false } : JRec)], fill := 11, seq := 2 } }; let r := ({ id := 7, type := 0x25, tenant := 0, sched := none, payload := [1, 2], replay := false } : JRec); let l := ([] : List JRec); (s.released = true) ∧ (s.jr.compact = none) ∧ (s.jr.cur = none) ∧ (s.jr.fill ≠ 0) ∧ (s.jr.sysQ = r :: l) ∧ (s.jr.cmdQ = []) ∧ (s.jr.resQ = [])) ∧
    (let s : State := { up with jr := { Journal.reset with cur := some ({ start := 11, seq := 3, r := ({ id := 7, type := 0x25, tenant := 0, sched := none, payload := [1, 2], replay := false } : JRec), words := jrWords 3 ({ id := 7, type := 0x25, tenant := 0, sched := none, payload := [1, 2], replay := false } : JRec) false, written := 6 } : JWrite), fill := 17, seq := 3 } }; let w := ({ start := 11, seq := 3, r := ({ id := 7, type := 0x25, tenant := 0, sched := none, payload := [1, 2], replay := false } : JRec), words := jrWords 3 ({ id := 7, type := 0x25, tenant := 0, sched := none, payload := [1, 2], replay := false } : JRec) false, written := 6 } : JWrite); (s.released = true) ∧ (s.jr.compact = none) ∧ (s.jr.cur = some w) ∧ (w.r.sched = none) ∧ (w.written + 1 = w.words.length) ∧ (w.words.getLastD 0 = recK endCommit w.seq) ∧ (w.seq ≠ 0) ∧ (w.r.type < 0x30) ∧ (isLocal w.r = false) ∧ (w.r.replay = false) ∧ ((port s 0).run = none) ∧ ((port s 0).buf = []) ∧ ((port s 1).run = none) ∧ ((port s 1).buf = []) ∧ (s.mspi.run = none) ∧ (s.mspi.cmd = none)) ∧
    (let s : State := { up with jr := { Journal.reset with cur := some ({ start := 11, seq := 3, r := ({ id := 7, type := 0x25, tenant := 0, sched := none, payload := [1, 2], replay := false } : JRec), words := jrWords 3 ({ id := 7, type := 0x25, tenant := 0, sched := none, payload := [1, 2], replay := false } : JRec) false, written := 6 } : JWrite), fill := 17, seq := 3 }, pt := [(0, { Port.reset with up := true, run := some ({ words := cmdHead 0 0x25 9 [1, 2] ++ [0, 0], waits := [7], keyWait := false, acted := true, status := 0, payload := [5] } : Running) })] }; let w := ({ start := 11, seq := 3, r := ({ id := 7, type := 0x25, tenant := 0, sched := none, payload := [1, 2], replay := false } : JRec), words := jrWords 3 ({ id := 7, type := 0x25, tenant := 0, sched := none, payload := [1, 2], replay := false } : JRec) false, written := 6 } : JWrite); let r := ({ words := cmdHead 0 0x25 9 [1, 2] ++ [0, 0], waits := [7], keyWait := false, acted := true, status := 0, payload := [5] } : Running); (s.released = true) ∧ (s.jr.compact = none) ∧ (s.jr.cur = some w) ∧ (w.r.sched = none) ∧ (w.written + 1 = w.words.length) ∧ (w.words.getLastD 0 = recK endCommit w.seq) ∧ (w.seq ≠ 0) ∧ (w.r.type < 0x30) ∧ (isLocal w.r = false) ∧ (w.r.replay = false) ∧ ((port s 0).run = some r) ∧ (r.waits = [w.r.id]) ∧ (r.acted = true) ∧ (r.keyWait = false) ∧ ((port s 0).up = true) ∧ ((port s 0).buf = []) ∧ ((port s 1).run = none) ∧ ((port s 1).buf = []) ∧ (s.mspi.run = none) ∧ (s.mspi.cmd = none)) ∧
    (let s : State := { up with jr := { Journal.reset with cur := some ({ start := 11, seq := 3, r := ({ id := 7, type := 0x25, tenant := 0, sched := some 0, payload := [1], replay := false } : JRec), words := jrWords 3 ({ id := 7, type := 0x25, tenant := 0, sched := some 0, payload := [1], replay := false } : JRec) false, written := 5 } : JWrite), fill := 16, seq := 3 } }; let w := ({ start := 11, seq := 3, r := ({ id := 7, type := 0x25, tenant := 0, sched := some 0, payload := [1], replay := false } : JRec), words := jrWords 3 ({ id := 7, type := 0x25, tenant := 0, sched := some 0, payload := [1], replay := false } : JRec) false, written := 5 } : JWrite); let f := (0 : Nat); (s.released = true) ∧ (s.jr.compact = none) ∧ (s.jr.cur = some w) ∧ (w.r.sched = some f) ∧ (f ≤ s.fr.count) ∧ (s.fl.clears = []) ∧ (s.fl.cleared = []) ∧ (w.written + 1 = w.words.length) ∧ ((port s 0).run = none) ∧ ((port s 0).buf = []) ∧ ((port s 1).run = none) ∧ ((port s 1).buf = []) ∧ (s.mspi.run = none) ∧ (s.mspi.cmd = none)) ∧
    (let s : State := { up with jr := { Journal.reset with compact := some ({ s := 3, words := [10, 11], pos := 8, step5 := false, moved := [], gen := 2 } : Compaction), compactTurn := true, fill := 17, cur := some ({ start := 11, seq := 3, r := ({ id := 7, type := 0x25, tenant := 0, sched := none, payload := [1, 2], replay := false } : JRec), words := jrWords 3 ({ id := 7, type := 0x25, tenant := 0, sched := none, payload := [1, 2], replay := false } : JRec) false, written := 6 } : JWrite) } }; let c := ({ s := 3, words := [10, 11], pos := 8, step5 := false, moved := [], gen := 2 } : Compaction); let x := (10 : W64); let l := ([11] : List W64); (s.released = true) ∧ (s.jr.compact = some c) ∧ (c.words = x :: l) ∧ (c.pos ≠ 5) ∧ (s.jr.compactTurn = true)) ∧
    (let s : State := { up with jr := { Journal.reset with compact := some ({ s := 3, words := [], pos := 30, step5 := true, moved := [], gen := 2 } : Compaction), fill := 17 } }; let c := ({ s := 3, words := [], pos := 30, step5 := true, moved := [], gen := 2 } : Compaction); (s.released = true) ∧ (s.jr.compact = some c) ∧ (c.words = []) ∧ (c.step5 = true) ∧ (recordWaits s.jr = false ∨ s.jr.compactTurn = true) ∧ (s.jr.cur = none) ∧ (s.fl.clears = []) ∧ (s.fl.cleared = [])) ∧
    (let s : State := { up with jr := { Journal.reset with busyTo := some 163848 } }; let n := (163848 : Nat); (s.released = true) ∧ (s.jr.busyTo = some n)) ∧
    (let s : State := up; (s.released = true) ∧ (s.jr.busyTo = none)) ∧
    (let s : State := { up with tn := { TenUnit.reset with keys := keyArea } }; (s.released = true) ∧ (s.jr.replayed = false) ∧ (s.st.lcState ≠ 5) ∧ (validHalf s = none) ∧ (s.jr.suspects = []) ∧ ((port s 0).run = none) ∧ ((port s 0).buf = []) ∧ ((port s 1).run = none) ∧ ((port s 1).buf = []) ∧ (s.mspi.run = none) ∧ (s.mspi.cmd = none)) := by
  iterate 11
    apply And.intro
    · decide +kernel
  decide +kernel

/-- The hypotheses of each clause of HousekeepingAdc are met. -/
theorem witness_housekeepingAdc :
    (let s : State := { up with ad := { Adc.reset with powered := false }, now := 163840 }; let chan := (0x25 : Nat); (s.released = true) ∧ (s.ad.test = false) ∧ (s.ad.conv = none) ∧ (scanChan (windowLc s / 16384 % 64) = some chan)) ∧
    (let s : State := { setCluster 2 { Cluster.reset with temp := 400 } up with ad := { Adc.reset with powered := false }, now := 163840, regs := [(regAddr (.adSys 2), 0x80000190)] }; let v := (721 : Int); let chan := (0x25 : Nat); let b := (2 : Nat); (s.released = true) ∧ (s.ad.test = false) ∧ (s.ad.conv = none) ∧ (scanChan (windowLc s / 16384 % 64) = some chan) ∧ ((windowLc s / 16384 % 64) < 32) ∧ (b < 32) ∧ (b ≠ (windowLc s / 16384 % 64)) ∧ (gradClusters (sysReading (windowLc s / 16384 % 64) (saturated (isTemp chan) v).1 s) = [b, (windowLc s / 16384 % 64)] ∨ gradClusters (sysReading (windowLc s / 16384 % 64) (saturated (isTemp chan) v).1 s) = [(windowLc s / 16384 % 64), b]) ∧ (rbit s (.adSys b) 31 = true) ∧ (320 < (v - (cluster s b).temp).natAbs) ∧ (-32768 ≤ v) ∧ (v ≤ 32767) ∧ (rbit s .flGrad (windowLc s / 16384 % 64) = false) ∧ (rbit s .flGrad b = false)) ∧
    (let s : State := { up with ad := { Adc.reset with powered := false }, now := 1343488 }; (s.released = true) ∧ (s.ad.test = false) ∧ (s.ad.conv = none) ∧ (scanChan (windowLc s / 16384 % 64) = none)) ∧
    (let s : State := { up with ad := { Adc.reset with test := true } }; (s.released = true) ∧ (s.ad.test = true ∨ s.ad.conv ≠ none)) ∧
    (let s : State := { up with ad := { Adc.reset with ftAt := some 500, ftBusy := true } }; let n := (500 : Nat); (s.released = true) ∧ (s.ad.ftAt = some n) ∧ (s.ad.ftBusy = true ∨ s.ad.test = true) ∧ (s.fl.clears = []) ∧ (s.fl.cleared = [])) ∧
    (let s : State := { up with ad := { Adc.reset with ftAt := some 500 }, regs := [(regAddr .adCfg, 0x80000000), (regAddr (.adECfg 0), 0xA8600011)] }; let n := (500 : Nat); (s.released = true) ∧ (s.ad.ftAt = some n) ∧ (s.ad.ftBusy = false) ∧ (s.ad.test = false) ∧ (entriesOf s true ≠ [])) ∧
    (let s : State := { up with ad := { Adc.reset with ftAt := some 500 } }; let n := (500 : Nat); (s.released = true) ∧ (s.ad.ftAt = some n) ∧ (s.ad.ftBusy = false) ∧ (s.ad.test = false) ∧ (entriesOf s true = [])) ∧
    (let s : State := { up with ad := { Adc.reset with seqs := [({ r := 300, ft := false, entries := [0, 3], first := true } : AdcSeq)], powered := true }, regs := [(regAddr .adCfg, 0x80000000), (regAddr (.adECfg 0), 0xE8600011), (regAddr (.adECfg 3), 0xC8600011)] }; let q := ({ r := 300, ft := false, entries := [0, 3], first := true } : AdcSeq); let rest := ([] : List AdcSeq); let i := (0 : Nat); let l := ([3] : List Nat); (s.released = true) ∧ (s.ad.conv = none) ∧ (s.ad.test = false) ∧ (adEn s = true) ∧ (s.ad.seqs = q :: rest) ∧ (q.entries.filter (entriesOf s q.ft).contains = i :: l) ∧ (s.ad.powered = true ∨ q.r = s.ad.endAt / 2 ∨ q.first = false)) ∧
    (let s : State := { up with ad := { Adc.reset with seqs := [({ r := 300, ft := false, entries := [0, 3], first := true } : AdcSeq)] }, regs := [(regAddr .adCfg, 0x80000000), (regAddr (.adECfg 0), 0xE8600011), (regAddr (.adECfg 3), 0xC8600011)] }; let q := ({ r := 300, ft := false, entries := [0, 3], first := true } : AdcSeq); let rest := ([] : List AdcSeq); let i := (0 : Nat); let l := ([3] : List Nat); (s.released = true) ∧ (s.ad.conv = none) ∧ (s.ad.test = false) ∧ (adEn s = true) ∧ (s.ad.seqs = q :: rest) ∧ (q.entries.filter (entriesOf s q.ft).contains = i :: l) ∧ (s.ad.powered = false) ∧ (q.r ≠ s.ad.endAt / 2) ∧ (q.first = true)) ∧
    (let s : State := { up with ad := { Adc.reset with seqs := [({ r := 300, ft := false, entries := [0, 3], first := true } : AdcSeq)], powered := true }, regs := [(regAddr .adCfg, 0x80000000), (regAddr (.adECfg 0), 0xE8600011), (regAddr (.adECfg 3), 0xC8600011)] }; let q := ({ r := 300, ft := false, entries := [0, 3], first := true } : AdcSeq); let rest := ([] : List AdcSeq); let i := (0 : Nat); let l := ([3] : List Nat); (s.released = true) ∧ (s.ad.conv = none) ∧ (s.ad.test = false) ∧ (adEn s = true) ∧ (s.ad.seqs = q :: rest) ∧ (q.entries.filter (entriesOf s q.ft).contains = i :: l)) ∧
    (let s : State := { up with ad := { Adc.reset with seqs := [{ r := 300, ft := true, entries := [5], first := true }], ftBusy := true }, regs := [(regAddr .adCfg, 0x80000000), (regAddr (.adECfg 0), 0xE8600011), (regAddr (.adECfg 3), 0xC8600011)] }; let q := ({ r := 300, ft := true, entries := [5], first := true } : AdcSeq); let rest := ([] : List AdcSeq); (s.released = true) ∧ (s.ad.conv = none) ∧ (s.ad.test = false) ∧ (adEn s = true) ∧ (s.ad.seqs = q :: rest) ∧ (q.ft = true) ∧ (q.entries.filter (entriesOf s q.ft).contains = [])) ∧
    (let s : State := { up with ad := { Adc.reset with conv := some ({ entry := 0, cfg := 0xE8600011, ft := false, c := 3000, woke := true, settling := false } : AdcConv), seqs := [({ r := 300, ft := false, entries := [0, 3], first := false } : AdcSeq)] }, fr := { Frames.reset with running := true } }; let v := ({ entry := 0, cfg := 0xE8600011, ft := false, c := 3000, woke := true, settling := false } : AdcConv); let q := ({ r := 300, ft := false, entries := [0, 3], first := false } : AdcSeq); let rest := ([] : List AdcSeq); let i := (0 : Nat); let l := ([3] : List Nat); (s.released = true) ∧ (s.ad.conv = some v) ∧ (v.entry < 16) ∧ (s.fl.clears = []) ∧ (s.fl.cleared = []) ∧ (s.ad.seqs = q :: rest) ∧ (q.entries = i :: l) ∧ (l ≠ [])) ∧
    (let s : State := { up with ad := { Adc.reset with conv := some ({ entry := 0, cfg := 0xE8600011, ft := false, c := 3000, woke := true, settling := false } : AdcConv), seqs := [({ r := 300, ft := false, entries := [0], first := false } : AdcSeq)] }, fr := { Frames.reset with running := true } }; let v := ({ entry := 0, cfg := 0xE8600011, ft := false, c := 3000, woke := true, settling := false } : AdcConv); let q := ({ r := 300, ft := false, entries := [0], first := false } : AdcSeq); let rest := ([] : List AdcSeq); let i := (0 : Nat); (s.released = true) ∧ (s.ad.conv = some v) ∧ (v.entry < 16) ∧ (s.fl.clears = []) ∧ (s.fl.cleared = []) ∧ (s.ad.seqs = q :: rest) ∧ (q.entries = [i]) ∧ (v.ft = false) ∧ (s.ad.evHeld = false)) := by
  iterate 12
    apply And.intro
    · decide +kernel
  decide +kernel

/-- The hypotheses of each clause of FaultsAndCounters are met. -/
theorem witness_faultsAndCounters :
    (let s : State := up; let mem := (5 : Nat); let c := (31 : Nat); let w := (1022 : Nat); (s.released = true) ∧ (scrubWord mem c w = true) ∧ (¬(mem = 5 ∧ c = 31 ∧ w = 1023))) ∧
    (let s : State := up; (s.released = true) ∧ (s.fl.clears = []) ∧ (s.fl.cleared = [])) ∧
    (let s : State := up; let mem := (3 : Nat); let c := (0 : Nat); let w := (4194303 : Nat); (s.released = true) ∧ (scrubWord mem c w = true) ∧ (¬(mem = 5 ∧ c = 31 ∧ w = 1023)) ∧ (s.fl.clears = []) ∧ (s.fl.cleared = [])) ∧
    (let s : State := up; let mem := (3 : Nat); let c := (0 : Nat); let w := (4194303 : Nat); (s.released = true) ∧ (scrubWord mem c w = true) ∧ (¬(mem = 5 ∧ c = 31 ∧ w = 1023)) ∧ (s.fl.clears = []) ∧ (s.fl.cleared = [])) ∧
    (let s : State := up; let c := (3 : Nat); let w := (77 : Nat); (s.released = true) ∧ (scrubWord 0 c w = true) ∧ (s.fl.clears = []) ∧ (s.fl.cleared = [])) ∧
    (let s : State := up; let c := (3 : Nat); let w := (77 : Nat); (s.released = true) ∧ (scrubWord 1 c w = true) ∧ (s.fl.clears = []) ∧ (s.fl.cleared = [])) ∧
    (let s : State := up; let c := (3 : Nat); let w := (77 : Nat); (s.released = true) ∧ (scrubWord 2 c w = true) ∧ (s.fl.clears = []) ∧ (s.fl.cleared = []) ∧ ((ctx s (64 * c + w / 64)).l = false)) ∧
    (let s : State := up; let w := (77 : Nat); (s.released = true) ∧ (w < 2 ^ 22) ∧ (s.fl.clears = []) ∧ (s.fl.cleared = []) ∧ (recordAt s w = none)) ∧
    (let s : State := setStream 5 { Stream.reset with recs := [{ tenant := 1, stream := some 5, frame := 0, words := [1, 2], pos := 0 }] } up; let w := (1 : Nat); let m := (5 : Nat); let i := (0 : Nat); (s.released = true) ∧ (w < 2 ^ 22) ∧ (m < 1024) ∧ (s.fl.clears = []) ∧ (s.fl.cleared = []) ∧ (recordAt s w = some (m, i))) ∧
    (let s : State := up; let c := (3 : Nat); let w := (77 : Nat); (s.released = true) ∧ (scrubWord 5 c w = true) ∧ (s.fl.clears = []) ∧ (s.fl.cleared = []) ∧ (c < 16)) ∧
    (let s : State := up; let c := (17 : Nat); let w := (77 : Nat); (s.released = true) ∧ (scrubWord 5 c w = true) ∧ (s.fl.clears = []) ∧ (s.fl.cleared = []) ∧ (16 ≤ c)) ∧
    (let s : State := setPulse 50 { PulseLane.reset with queue := [edge0] } up; let c := (3 : Nat); let w := (2048 : Nat); (s.released = true) ∧ (scrubWord 4 c w = true) ∧ (s.fl.clears = []) ∧ (s.fl.cleared = []) ∧ (c < 16) ∧ (w % 1024 < (pulse s (16 * c + w / 1024)).queue.length)) ∧
    (let s : State := setStamp 17 { StampLane.reset with queue := [{ frame := 0, no := 0, word := 0x2000000000000005, inq := 0 }] } up; let c := (17 : Nat); let w := (1024 : Nat); (s.released = true) ∧ (scrubWord 4 c w = true) ∧ (s.fl.clears = []) ∧ (s.fl.cleared = []) ∧ (16 ≤ c) ∧ (w % 1024 < (stamp s (16 * (c - 16) + w / 1024)).queue.length)) ∧
    (let s : State := up; let c := (17 : Nat); let w := (1024 : Nat); (s.released = true) ∧ (scrubWord 4 c w = true) ∧ (s.fl.clears = []) ∧ (s.fl.cleared = []) ∧ ((if c < 16 then (pulse s (16 * c + w / 1024)).queue.length else (stamp s (16 * (c - 16) + w / 1024)).queue.length) ≤ w % 1024)) ∧
    (let s : State := up; let w := (8192 : Nat); (s.released = true) ∧ (w < 2 ^ 20) ∧ (s.fl.clears = []) ∧ (s.fl.cleared = [])) ∧
    (let s : State := up; let w := (8192 : Nat); (s.released = true) ∧ (w < 2 ^ 20) ∧ (s.fl.clears = []) ∧ (s.fl.cleared = [])) ∧
    (let s : State := { up with jr := { Journal.reset with fill := 20, activeB := true } }; let w := (528390 : Nat); (s.released = true) ∧ (w < 2 ^ 20) ∧ (s.fl.clears = []) ∧ (s.fl.cleared = []) ∧ ((8192 + if s.jr.activeB then 520192 else 0) ≤ w) ∧ (w < (8192 + if s.jr.activeB then 520192 else 0) + s.jr.fill)) ∧
    (let s : State := up; let w := (9000 : Nat); (s.released = true) ∧ (w < 2 ^ 20) ∧ (s.fl.clears = []) ∧ (s.fl.cleared = []) ∧ (4096 ≤ w) ∧ (w < (8192 + if s.jr.activeB then 520192 else 0) ∨ (8192 + if s.jr.activeB then 520192 else 0) + s.jr.fill ≤ w)) ∧
    (let s : State := keyed; let w := (13 : Nat); (s.released = true) ∧ (w < 2 ^ 20) ∧ (s.fl.clears = []) ∧ (s.fl.cleared = []) ∧ (w < 4096) ∧ (w % 4 ≠ 2)) ∧
    (let s : State := keyed; let w := (14 : Nat); (s.released = true) ∧ (w < 2 ^ 20) ∧ (s.fl.clears = []) ∧ (s.fl.cleared = []) ∧ (w < 4096) ∧ (w % 4 = 2)) ∧
    (let w := (1023 : Nat); (w < 1024)) ∧
    (let s : State := { up with byre := { Byre.reset with rram := [(3, 9)] } }; let w := (3 : Nat); (s.released = true) ∧ (w < 1024) ∧ (s.fl.clears = []) ∧ (s.fl.cleared = [])) ∧
    (let s : State := up; let w := (3 : Nat); (s.released = true) ∧ (w < 1024) ∧ (s.fl.clears = []) ∧ (s.fl.cleared = [])) ∧
    (let s : State := State.reset; let w := (3 : Nat); (s.released = false) ∧ (w < 1024)) ∧
    (let s : State := up; (s.released = true) ∧ (s.fl.clears = []) ∧ (s.fl.cleared = [])) ∧
    (let s : State := up; let c := (4 : Nat); (s.released = true) ∧ (c < 32)) ∧
    (let s : State := setCluster 2 { Cluster.reset with vdd := 900, graded := true } up; let c := (4 : Nat); let b := (2 : Nat); let v := (926 : Int); let p := (0 : Int); (s.released = true) ∧ (c < 32) ∧ (b < 32) ∧ (b ≠ c) ∧ ((gradClusters (modCluster c (fun u => { u with vdd := v, phase := p, graded := true }) s)) = [b, c]) ∧ (25 < (v - (cluster s b).vdd).natAbs) ∧ (rbit s .flGrad c = false) ∧ (rbit s .flGrad b = false)) ∧
    (let s : State := setCluster 2 { Cluster.reset with vdd := 900, graded := true } up; let c := (4 : Nat); let v := (925 : Int); let p := (0 : Int); (s.released = true) ∧ (c < 32) ∧ (((gradClusters (modCluster c (fun u => { u with vdd := v, phase := p, graded := true }) s)).all fun a => !rbit s .flGrad a && (gradClusters (modCluster c (fun u => { u with vdd := v, phase := p, graded := true }) s)).all fun b => !beyond (gradDiff (modCluster c (fun u => { u with vdd := v, phase := p, graded := true }) s) a b)) = true)) ∧
    (let s : State := { up with fl := { FaultUnit.reset with clears := [(12, regAddr .ptQintCnt)] }, regs := [(regAddr .ptQintCnt, 5)] }; let n := (12 : Nat); (s.released = true) ∧ (s.fl.clears = [(n, regAddr .ptQintCnt)])) ∧
    (let s : State := { up with fl := { FaultUnit.reset with clears := [(13, regAddr .ptQintCnt), (12, regAddr .flTmrCnt)] }, regs := [(regAddr .flTmrCnt, 5)] }; let n := (12 : Nat); let q := ((13, regAddr .ptQintCnt) : Nat × Nat); (s.released = true) ∧ (s.fl.clears = [q, (n, regAddr .flTmrCnt)]) ∧ (n < q.1)) ∧
    (let s : State := up; let q := (0 : Nat); (s.released = true) ∧ ((q = 0 ∨ q = 1)) ∧ (s.fl.clears = []) ∧ (s.fl.cleared = [])) ∧
    (let s : State := up; let q := (2 : Nat); (s.released = true) ∧ ((q = 2 ∨ q = 3)) ∧ (s.fl.clears = []) ∧ (s.fl.cleared = [])) ∧
    (let s : State := up; let q := (4 : Nat); (s.released = true) ∧ ((q = 4 ∨ q = 5)) ∧ (s.fl.clears = []) ∧ (s.fl.cleared = [])) ∧
    (let s : State := { up with mspi := { Mspi.reset with rsp := some [1] } }; let q := (8 : Nat); (s.released = true) ∧ (q = 6 ∨ q = 7 ∨ q = 8) ∧ (s.fl.clears = []) ∧ (s.fl.cleared = [])) ∧
    (let s : State := up; let q := (0x3F : Nat); (s.released = true) ∧ (0x20 ≤ q) ∧ (q < 0x40) ∧ (s.fl.clears = []) ∧ (s.fl.cleared = [])) := by
  iterate 34
    apply And.intro
    · decide +kernel
  decide +kernel

/-- The hypotheses of each clause of RegisterWrites are met. -/
theorem witness_registerWrites :
    (let s : State := State.reset; (s.released = false)) ∧
    (let s : State := up; let who := st0; let a := (5 : Nat); (s.released = true) ∧ (writerActive s who.tenant = true) ∧ (a % 4 ≠ 0)) ∧
    (let s : State := up; let who := ({ path := .p0, tenant := 9 } : Who); (s.released = true) ∧ (writerActive s who.tenant = false)) ∧
    (let s : State := up; let who := st0; let a := (0x7FFFFFF0 : Nat); (s.released = true) ∧ (writerActive s who.tenant = true) ∧ (a % 4 = 0) ∧ (regOfAddr a = none)) ∧
    (let s : State := setTenant 1 { Tenant.reset with state := .active } up; let who := ({ path := .p0, tenant := 1 } : Who); let r := (Reg.tbTsetLo); let a := (regAddr .tbTsetLo); let v := (1 : W32); (s.released = true) ∧ (writerActive s who.tenant = true) ∧ (a % 4 = 0) ∧ (regOfAddr a = some r) ∧ (mayWrite s who.tenant r v = false)) ∧
    (let s : State := { up with regs := [(regAddr .tbEvents, 0x17)] }; let who := st0; (s.released = true) ∧ (who.tenant = 0)) ∧
    (let s : State := { up with regs := [(regAddr .spEvents, 0x17)] }; let who := st0; (s.released = true) ∧ (who.tenant = 0)) ∧
    (let s : State := { up with regs := [(regAddr .jrEvents, 0x17)] }; let who := st0; (s.released = true) ∧ (who.tenant = 0)) ∧
    (let s : State := { up with regs := [(regAddr .flEvents, 0x17)] }; let who := st0; (s.released = true) ∧ (who.tenant = 0)) ∧
    (let s : State := up; let who := st0; (s.released = true) ∧ (who.tenant = 0) ∧ (journalRefused s 0 none 1 = none)) ∧
    (let s : State := up; let who := st0; (s.released = true) ∧ (who.tenant = 0) ∧ (journalRefused s 0 none 1 = none)) ∧
    (let s : State := up; let who := st0; let v := (0x00100020 : W32); (s.released = true) ∧ (who.tenant = 0) ∧ (fld v 16 11 ≤ fld v 0 11)) := by
  iterate 11
    apply And.intro
    · decide +kernel
  decide +kernel

/-- The hypotheses of each clause of StepRunsTheFrontCommand are met. -/
theorem witness_stepRunsTheFrontCommand :
    ({ up with pending := [.tmrCorrection] }).pending = [.tmrCorrection] ∧ (up.pending = [] ∧ up.released = true) ∧
    (State.reset.pending = [] ∧ State.reset.released = false) := by
  decide +kernel

/-- The hypotheses of StepKeepsInv are met. -/
theorem witness_stepKeepsInv : StateInv up_run ∧ ∃ t, step up_run = .next t :=
  ⟨by unfold StateInv Rising CoreState; decide +kernel, _, rfl⟩

/-- The hypotheses of QueueUntouched are met. -/
theorem witness_queueUntouched : ∃ t, exec .tmrCorrection up_run = .next t := ⟨_, rfl⟩

/-- The hypotheses of each clause of CommandsComplete are met. -/
theorem witness_commandsComplete :
    (Instr.edgeFire 255).wf = true ∧ exec (.edgeFire 256) up = .refused .noSuchUnit :=
  ⟨by decide, rfl⟩

/-- The hypotheses of each clause of PeekWritesAreIgnored are met. -/
theorem witness_peekWritesAreIgnored :
    (let a := (2 ^ 31 + regAddr .tbEvents); (2 ^ 31 ≤ a) ∧ (a % 4 = 0)) := by
  decide +kernel

/-- The hypotheses of each clause of FrameCounterCarries are met. -/
theorem witness_frameCounterCarries :
    (let s : State := { ticking with fr := { ticking.fr with count := 2 ^ 48 - 1 } }; (s.released = true) ∧ (s.fr.running = true) ∧ (s.tb.tset = false) ∧ (s.fr.count = 2 ^ 48 - 1) ∧ (s.tb.tickPending = true ∨ (s.tb.ts ≠ .holdover ∧ syncFirst s = false)) ∧ (s.jr.done = []) ∧ (s.jr.sched = []) ∧ (s.jr.deferred = [])) := by
  decide +kernel

/-- The hypotheses of each clause of JournalWriterInterval are met. -/
theorem witness_journalWriterInterval :
    (let s : State := { up with jr := { Journal.reset with lastLc := some 1000, fill := 11, sysQ := [plainRec 0x101 [5]] }, now := 2100 }; let m := (1000 : Nat); (s.released = true) ∧ (writerWorks s = true) ∧ (s.jr.lastLc = some m) ∧ ((port s 0).buf = []) ∧ ((port s 1).buf = []) ∧ (s.mspi.cmd = none)) ∧
    (let s : State := up; let who := st0; (s.released = true) ∧ (who.tenant = 0)) := by
  decide +kernel

/-- The hypotheses of each clause of CallsAndReturns are met. -/
theorem witness_callsAndReturns :
    (let s : State := prog 1 0x68000005 regs0; let c := (1 : Nat); let x := (64 : Nat); let w := (0x68000005 : W32); let pc := (6 : BitVec 13); (Issues s c x .call w = true) ∧ (jumpTarget s x w = some pc) ∧ ((ctx s x).r.rstk.length < 8)) ∧
    (let s : State := prog 1 0x68000005 { regs0 with rstk := [1, 2, 3, 4, 5, 6, 7, 8] }; let c := (1 : Nat); let x := (64 : Nat); let w := (0x68000005 : W32); (Issues s c x .call w = true) ∧ (8 ≤ (ctx s x).r.rstk.length)) ∧
    (let s : State := prog 1 0x74000000 { regs0 with rstk := [17, 5] }; let c := (1 : Nat); let x := (64 : Nat); let w := (0x74000000 : W32); let pc := (17 : BitVec 13); let rest := ([5] : List (BitVec 13)); (Issues s c x .ret w = true) ∧ ((ctx s x).r.rstk = pc :: rest)) ∧
    (let s : State := prog 1 0x74000000 regs0; let c := (1 : Nat); let x := (64 : Nat); let w := (0x74000000 : W32); (Issues s c x .ret w = true) ∧ ((ctx s x).r.rstk = [])) := by
  decide +kernel

/-- The hypotheses of each clause of WarmAndColdStarts are met. -/
theorem witness_warmAndColdStarts :
    (let s : State := { State.reset with byre := { Byre.reset with state := .powerup, pwren := 15, rails := 0x3F, cause := 6, rram := [(0, 0x80000000)] }, regs := [(regAddr .byCfg, 0x10)] }; (s.byre.state = .powerup) ∧ (s.byre.pwren = 15)) ∧
    (let s : State := { State.reset with byre := { Byre.reset with state := .reset, pwren := 15, rails := 0x3F, cause := 3, rram := [(0, 0x80000000)] }, regs := [(regAddr .byCfg, 0x10)] }; (s.byre.state = .reset) ∧ (s.byre.pwren = 15) ∧ (s.byre.rails = 0x3F)) := by
  decide +kernel

/-- The hypotheses of each clause of FaultLogLayout are met. -/
theorem witness_faultLogLayout :
    (let s : State := { up with fl := { FaultUnit.reset with buf := [({ seq := 65, code := 0x13, rep := 2, obj := 7, frame := 0x100000005, frozen := true, epoch := 3, time := 9, detail := 0x500000006 } : LogEntry)], logDue := 11 }, now := 5 }; let e := ({ seq := 65, code := 0x13, rep := 2, obj := 7, frame := 0x100000005, frozen := true, epoch := 3, time := 9, detail := 0x500000006 } : LogEntry); let l := ([] : List LogEntry); (s.released = true) ∧ (s.fl.buf = e :: l)) ∧
    (let s : State := up; let q := (7 : Nat); (s.released = true) ∧ (q < 9) ∧ (s.fl.newest = none) ∧ (s.fl.buf.length < 16)) := by
  decide +kernel

/-- The hypotheses of each clause of SafeClear are met. -/
theorem witness_safeClear :
    (let s : State := { up with byre := { Byre.reset with state := .run, safe := 7 } }; let src := ByPath.mspi; (ByMay s src = true) ∧ (s.byre.mirror = [])) := by
  decide +kernel

/-! ### Operands that WellFormed refuses -/

/-- Operands beyond the numbers of the device, refused by WellFormed (part one). -/
theorem test_illFormedOne : ([
    .bandSearchDone 64, .refselWrite st0 4, .syncEvent true 16384, .asSearch st0 16, .asHop st0 16, .asLock 256,
    .asPlanRatioWrite st0 16 0, .asCkoCfgWrite st0 8 0, .clBudSysMinRead st0 32, .edgeEntryAccept 256,
    .edgeCorrect 256, .edgeLoad 256, .edgeFire 256, .laneGateChange 256, .lnGateClose st0 256, .lnFlush st0 256,
    .lnOcRearm st0 256, .lnCalLoad st0 256, .lnCalNow st0 256, .lnCalSave st0 256, .lnCfgWrite st0 256 0,
    .lnSkewShWrite st0 256 0, .lnCtabDataWrite st0 256 0, .overcurrent 256, .calVisitStart 256,
    .calVisitDone 256 badCal, .lnDropLogRead st0 256, .thresholdCrossing 256 true true 0 0,
    .thresholdCrossing 0 true true 0 64, .hitEnqueue 256, .forwardRecord 32, .slThrWrite st0 256 0, .thrApply 256,
    .blankingStart 256 true, .blankingEnd 256, .captureWindowClose 256, .totTimeout 256, .slFlush st0 256,
    .slBlnkNow st0 256, .slCalLoad st0 256] : List Instr).all (fun i => !i.wf) = true := by decide

/-- Operands beyond the numbers of the device, refused by WellFormed (part two). -/
theorem test_illFormedTwo : ([
    .slCalNow st0 256, .slCalSave st0 256, .slCfgWrite st0 256 0, .slTrimWrite st0 256 0, .slBinDataWrite st0 256 0,
    .codeDensityPassStart 256, .codeDensityPassDone 256 flatCounts, .regressionSlot 256, .resultReady 256,
    .rgStart st0 256, .rgStop st0 256, .rgRes0Read st0 256, .switchIn 32, .add 32, .sub 32, .and_ 32, .or_ 32,
    .xor_ 32, .shl 32, .shr 32, .sra 32, .mul 32, .min 32, .max 32, .cmp 32, .li 32, .lui 32, .tadd 32, .tsub 32,
    .tcmp 32, .tscl 32, .tld 32, .tst 32, .tnow 32, .tfrm 32, .bCond 32, .j 32, .call 32, .loop 32, .ret 32] : List Instr).all (fun i => !i.wf) = true := by decide

/-- Operands beyond the numbers of the device, refused by WellFormed (part three). -/
theorem test_illFormedThree : ([
    .yield 32, .halt 32, .lock 32, .unlock 32, .bud 32, .reqPing 32, .reqPubstat 32, .reqDigest 32, .reqTemp 32,
    .reqUngate 32, .reqPost 32, .reqCollect 32, .reservedOpcode 32, .emit 32, .emitp 32, .gateOpen 32, .gateClose 32,
    .splayStart 32, .splayStop 32, .sjump 32, .sig 32, .wait 32, .poll 32, .arm 32, .disarm 32, .hpop 32, .hcnt 32,
    .thr 32, .blnkOneShot 32, .blnkSet 32, .measStart 32, .measStop 32, .mrd 32, .recw 32, .waitTimeout 2048,
    .segmentFetch 256, .segmentPresent 256, .jumpRecord 256, .playbackStop 256, .sgStop st0 256] : List Instr).all (fun i => !i.wf) = true := by decide

/-- Operands beyond the numbers of the device, refused by WellFormed (part four). -/
theorem test_illFormedFour : ([
    .packetSend 2, .milklineEvent 256 0, .milklineEvent 0 61441, .clusterChannelEvent 32 0, .clusterChannelEvent 0 32,
    .clLevWrite st0 32 0 0, .clLevWrite st0 0 16 0, .channelCtlWrite st0 1280 0, .groupCfgWrite st0 64 0,
    .linkDown 2 .blockLock, .helloReceived 2 link0, .helloTimeout 2, .helloSend 2, .pauseReceived 2 0,
    .pauseReceived 0 65536, .pauseEnd 2, .pauseSend 2, .characterLock 64, .mspiRead 65536 0, .mspiWrite 65536 [],
    .scansel 64, .astrun 256, .otprd 65536, .lcadv 8, .otpwr 65536 0, .queueIntegrity 9, .queueIntegrity 64,
    .kclkMeasUpdate 16777216, .keeperCrossing 8 true true 0, .kcThrWrite .mspi 8 0, .kcThrApply 8, .wakeIn 4 true,
    .lbistSliceRestore 32 .pass, .lbistSliceEnd 32, .rramScrub 1024 .clean, .gradientReading 32 0 0,
    .blockLockGained 2, .highBerCleared 2, .faultSetWindowEnd 2, .spotCheckDone 256 0] : List Instr).all (fun i => !i.wf) = true := by decide

/-- Operands beyond the numbers of the device, refused by WellFormed (part five). -/
theorem test_illFormedFive : ([
    .ctxStart (.register st0 2048), .ctxStop (.register st0 2048), .ctxHalt (.register st0 2048),
    .ctxResume (.register st0 2048), .ctxStep (.register st0 2048), .ctxBreak (.register st0 2048),
    .scrub 0 32 0 .clean, .scrub 0 0 8192 .clean, .scrub 1 32 0 .clean, .scrub 1 0 2048 .clean, .scrub 2 32 0 .clean,
    .scrub 2 0 4096 .clean, .scrub 3 1 0 .clean, .scrub 3 0 4194304 .clean, .scrub 5 15 16384 .clean,
    .scrub 5 16 1024 .clean, .scrub 5 32 0 .clean, .scrub 4 32 0 .clean, .scrub 4 0 16384 .clean, .scrub 8 1 0 .clean,
    .scrub 8 0 1048576 .clean, .scrub 6 0 0 .clean] : List Instr).all (fun i => !i.wf) = true := by decide

/-! ### Worked examples of the spec -/

/-- "Scope and conventions" R21 and "Ports and partners": the CRC of the nine ASCII bytes "123456789". -/
theorem test_crc32c : crc32c [0x31, 0x32, 0x33, 0x34, 0x35, 0x36, 0x37, 0x38, 0x39] = 0xE3069283 := by decide +kernel
theorem test_crc16 : crc16 [0x31, 0x32, 0x33, 0x34, 0x35, 0x36, 0x37, 0x38, 0x39] = 0x29B1 := by decide +kernel

/-- The bank of the example pulse on lane 173 (04_pulse_lanes.md). -/
def bank173 : CalBank := { CalBank.reset with ofs := BitVec.ofInt 16 (-5731), delta := [(461, 2), (973, BitVec.ofInt 8 (-3))] }

/-- Table 4-7: the rise is placed at remainder 15,306 of lane cycle 69,393, the fall at 1,487 of 69,395. -/
theorem test_pulseExample :
    (corrected bank173 1136955952).toNat = 69393 * 16384 + 15306 ∧
    (corrected bank173 (1136955952 + 18944)).toNat = 69395 * 16384 + 1487 := by decide +kernel

/-- Stamp lane 37 of "time over threshold" (05_stamp_lanes.md). -/
def lane37 : State :=
  { stampLane 37 { StampLane.reset with bins := [(17, 4370), (18, 4622), (41, 10530), (42, 10790)] } with
    otp := [(regAddr (.slInpath 37), 3210)] }
def cap37 (t n v b : Nat) : Capture :=
  { trail := false, t := t, lc := n, vc := v, bin := b, frame := 0, no := 0, prevLen := 320, warm := true, prevWarm := true,
    ovf := false, lost := false, dec := none }

/-- The times of the leading and the trailing crossing, and the record of the pair. -/
theorem test_stampExample :
    (decodeStamp lane37 37 (cap37 2054425 125 6 17)).time = 2051215 ∧
    (decodeStamp lane37 37 (cap37 2099866 128 2 41)).time = 2096656 ∧
    (hitOf 37 2 false 2840 (decodeStamp lane37 37 (cap37 2054425 125 6 17))).word = 0x22500B18001F4C8F := by
  decide +kernel

/-- The result words of the 155.52 MHz clock (06_frequency_measurement.md) that its counts and time give. -/
theorem test_regressionHead :
    (resultWords 200 5 0x140000
      { Gate.empty with k := 2, accepted := 4977, s0 := 2, s1 := 1, s2 := 1, st := 1, snt := 1, stt := 1 }).headD 0 = 0x4190040500140000 := by decide +kernel

/-- A line through the points (0, 10), (1, 15), (2, 20): period 5 drops, phase 10 drops, no residual (R179). -/
theorem test_fit :
    fit { Gate.empty with s0 := 3, s1 := 3, s2 := 5, st := 45, snt := 55, stt := 725 } = (5 * 2 ^ 48, 160, 0) := by
  decide +kernel

/-- TB_FOFS = −13,314 takes two ticks: −8,589, then −13,314 (02_timebase.md). -/
theorem test_fofsSlew :
    (reg (slewTick { up with regs := [(regAddr .tbFofs, BitVec.ofInt 32 (-13314))] }) .tbFofsNow).toInt = -8589 ∧
    (reg (slewTick (slewTick { up with regs := [(regAddr .tbFofs, BitVec.ofInt 32 (-13314))] })) .tbFofsNow).toInt = -13314 := by
  decide +kernel

/-- The admission capacities that chapter 3 gives for frames of 320, 288 and 300 lane cycles. -/
theorem test_capacity : capacity 320 = 144 ∧ capacity 288 = 129 ∧ capacity 300 = 135 := by decide

/-- Words of Table 8-10 and Table 9-7 are the instructions the tables list. -/
theorem test_instructionWords :
    ([(0x3480051E, .int .lui), (0x1484B852, .int .or), (0x44900001, .tsub), (0x40980003, .tadd), (0x4C244600, .tscl),
      (0x30A00010, .int .li), (0x55040000, .tst), (0x08210008, .int .add), (0x70A0FFFC, .loop), (0x7C000000, .halt),
      (0xA8256800, .gateOpen), (0xC4003BFF, .wait), (0x2C070005, .int .cmp), (0x6020FFFD, .bcond), (0xA4856C24, .emitp),
      (0xF81500A1, .record), (0x6400FFF9, .j)] : List (W32 × Mnemonic)).all
      (fun p => mnemonicOf p.1 == p.2 && encodingDefined p.1) = true := by decide +kernel

/-- The program record of the trigger-response program (09_enxia_reference_timing.md). -/
theorem test_recordWords :
    recW0 645 0x0A1 0x00394000 true = 0x354280A100394000 ∧ recW1 0x43C49230 = 0x3800000043C49230 := by decide +kernel

/-- A segment entry of chapter 10: a fall 163,840 drops from the base. -/
theorem test_segmentEntry :
    (segEntry 0x4000000000028000 0 5).kind = 1 ∧ (segEntry 0x4000000000028000 0 5).time = 0x28000 := by decide +kernel

/-- The packet of Table 11-12, from H0 to T0. -/
theorem test_packetWords :
    bodyWords { up with regs := [(regAddr .spChain, 0), (regAddr .spDevid, 0x00512A07)] }
      { stream := 40, frame := 200000, no := 200000, gen := 0, epoch := 3, digest := 0x9C41E0D3, flags := 0x0800, loss := 0, srcmap := 1,
        recs := [0x90000005001E8480, 0x22500B18001F4C8F, 0x1290000000200000, 0x3241801000200000].map fun w =>
          { tenant := 17, stream := some 40, frame := 200000, words := [w], pos := 0 }
        key := KeyEntry.reset, resume := none, hb := false, hbFlag := false, rdy := true, hold := false, readyLc := 0,
        waitLc := 0 } =
    [0xF000A00000512A07, 0xF100000000030D40, 0xF200080000000003, 0xF30000019C41E0D3, 0x90000005001E8480,
     0x22500B18001F4C8F, 0x1290000000200000, 0x3241801000200000, 0xF800000400000000] := by decide +kernel

/-- The RESUME record of "a partner resets during a packet" (14_ports.md). -/
theorem test_resumeWords : resumeWords (8, 200003, 200010) = [0x7008000000030D43, 0x7800000000030D4A] := by decide +kernel

/-- The records of Table 18-5. -/
theorem test_adcRecords :
    adcWord { entry := 0, cfg := 0xE8600011, ft := false, c := 3450, woke := true, settling := false } 0x4CCD false 0x334000 =
      0x50D44CCD00334000 ∧
    adcWord { entry := 1, cfg := 0xF8600011, ft := false, c := 4075, woke := false, settling := true } 0x1333 false 0x316000 =
      0x50F8133300316000 := by decide +kernel

/-- The fault record of context 645 (19_faults_and_recovery.md): ILLEGAL_UNIT at PC 0x0107. -/
theorem test_faultRecord :
    ((faultRec 17 (0x06 * 2 ^ 24 + 645 * 2 ^ 13 + 0x107)
      { ticking with now := 458, fr := { ticking.fr with start := 0 } }).sp.inbound.map (·.words)) =
      [[0x6650A10700394000]] := by decide +kernel

/-- Addresses of chapter 20. -/
theorem test_addresses :
    regAddr (.ctxT 645 2) = 0x01A805C8 ∧ regAddr (.lnDropLog 173) = 0x01A01D4C ∧ regAddr (.rgRes 37 0) = 0x0030C958 := by
  decide

/-- R527: the slot after 0xFFFF_FFC0 follows without a gap. -/
theorem test_logSuccessor : logSucc 0xFFFFFFC0 = 1 ∧ logSucc 64 = 65 := by decide

end Sys2Proof.Tests
end

section
/-! PROOFS. Chapter 0: what a step runs, and how a register is read and written by its address (R5, R15-R17, R375, R547). -/
namespace Sys2Proof.Proofs

open Sys2Proof.Machine Sys2Proof.Safety Sys2Proof.Laws

/-! ### A step -/

theorem step_cons {s : State} {c : Instr} {rest : List Instr} (h : s.pending = c :: rest) :
    step s = exec c { s with pending := rest } := by
  unfold step; rw [h]

theorem step_nil {s : State} (h : s.pending = []) : step s = .next (idleStep s) := by
  unfold step; rw [h]

theorem idleStep_released {s : State} (h : s.released = true) : idleStep s = { s with now := s.now + 2 } := if_pos h

theorem idleStep_held {s : State} (h : s.released = false) :
    idleStep s = { s with byre := { s.byre with kc := s.byre.kc + 1 } } := if_neg (by simp [h])

/-- Settles O48, by the two shapes of the queue. -/
theorem stepRunsTheFrontCommand : Obligations.StepRunsTheFrontCommand := by
  intro s
  refine ⟨fun c rest h => step_cons h, fun h hr => ?_, fun h hr => ?_⟩
  · rw [step_nil h, idleStep_released hr]
  · rw [step_nil h, idleStep_held hr]

/-! ### Reads by address -/

/-- A read while the core runs is answered with what the bus read at that address gives, once what is due has come about. -/
theorem exec_lowWordRead {s : State} (h : s.released = true) (who : Who) (a : Nat) :
    exec (.lowWordRead who a) s =
      .next { (busRead who a (upToNow s)).2 with busData := [(busRead who a (upToNow s)).1] } :=
  congrArg Host.Outcome.next (when_of h ..)

/-- A peek at a memory word has the value of the read and leaves the state as it was. -/
theorem memRead_peek (w : Who) (p : Bool) (a c : Nat) (data : Bool) (i : Nat) (upper : Bool) (s : State) :
    memRead w true a c data i upper s = ((memRead w p a c data i upper s).1, s) := by
  unfold memRead
  split
  · rfl
  · split
    · rfl
    · cases data <;> simp only [Bool.false_eq_true, if_false, if_true] <;> split <;> rfl

/-- A read at an address with the peek bit has the value of the read at the address, and leaves the state as it was (R16). -/
theorem busRead_peek (w : Who) {a : Nat} (ha : a < 2 ^ 31) (s : State) :
    busRead w (2 ^ 31 + a) s = ((busRead w a s).1, s) := by
  have hmod : (2 ^ 31 + a) % 2 ^ 31 = a := by rw [Nat.add_mod_left, Nat.mod_eq_of_lt ha]
  have hpeek : decide (2 ^ 31 ≤ 2 ^ 31 + a) = true := decide_eq_true (Nat.le_add_right ..)
  unfold busRead
  simp only [hmod, hpeek, Nat.mod_eq_of_lt ha]
  split
  · rfl
  · split
    · exact memRead_peek ..
    · split
      · rfl
      · split <;> rfl

/-- Settles O38: the two bus reads differ in their effects alone. -/
theorem peekReads : Obligations.PeekReads := by
  intro s hs who a r ha _
  refine ⟨_, exec_lowWordRead hs who (2 ^ 31 + a), fun hu => ?_, rfl, _, exec_lowWordRead hs who a, ?_⟩
  · rw [busRead_peek who ha, hu]
  · rw [busRead_peek who ha]

/-! ### A read of data memory while its word is being cleared -/

/-- A data word that the issuer may read and that has no error is answered as the paths see it (R548): 0 while it is being
cleared. -/
theorem busRead_dataLow {w : Who} {a c i : Nat} {s : State} (ha : a < 2 ^ 31) (hm : memAt a = some (c, true, i, false))
    (hout : (clusterAt a).any (outOfService s) = false) (hr : memReads s w.tenant c true i = true)
    (hb : dataBad s c i = false) : (busRead w a s).1 = lo32 (dataAt s c i) := by
  unfold busRead
  simp only [Nat.mod_eq_of_lt ha, hm, hout, Bool.false_eq_true, if_false]
  unfold memRead
  simp [hr, hb]

/-- Lane cycle 1 of a clearing of words 0 to 7 of the data memory of cluster 0: it has passed word 0, and a write has put 7
there since, which stands (R373; log entry 77). -/
def clearingState : State :=
  { State.reset with
    now := 2
    released := true
    byre := { State.reset.byre with state := .run }
    cl := [(0, { Cluster.reset with dmem := [(0, 7)] })]
    tn := { State.reset.tn with
      clearing := [{ owner := 1, cluster := 0, data := true, first := 0, count := 8, due := 8 }] } }

theorem clearingState_stateInv : StateInv clearingState := by
  unfold StateInv Rising CoreState
  decide +kernel

/-- A write of the word that the clearing has passed is not wiped. -/
theorem clearingState_wiped : wiped clearingState 0 true 0 = false := by decide +kernel

/-- The steward on port 0. -/
def stewardP0 : Who := { path := .p0, tenant := 0 }

theorem clearingState_upToNow : upToNow clearingState = clearingState := by decide +kernel

theorem clearingState_dataAt : dataAt clearingState 0 0 = 0 := by decide +kernel

/-- Refutes O37: its clause on data memory answers with the word as it stands in the memory, but a word that is being cleared
reads 0 through every path, whatever stands there (R548). -/
theorem not_readsThatAct : ¬ Obligations.ReadsThatAct := by
  intro h
  obtain ⟨-, -, -, -, -, -, -, -, -, -, -, hdata, -⟩ := h clearingState rfl
  have hm : memAt 0x1060000 = some (0, true, 0, false) := by decide
  obtain ⟨t, ht, hbus, -⟩ := hdata stewardP0 clearingState 0x1060000 0 0 clearingState_upToNow.symm (by decide)
    (by decide +kernel) hm (by decide +kernel) (by decide +kernel)
  rw [exec_lowWordRead rfl, clearingState_upToNow] at ht
  cases ht
  have hread := busRead_dataLow (w := stewardP0) (s := clearingState) (by decide) hm (by decide +kernel) (by decide +kernel)
    (by decide +kernel)
  rw [clearingState_dataAt] at hread
  dsimp only at hbus
  rw [hread] at hbus
  exact absurd hbus (by decide +kernel)

/-! ### Writes by address -/

theorem exec_registerWrite {s : State} (h : s.released = true) (who : Who) (a : Nat) (v : W32) :
    exec (.registerWrite who a v) s = .next (writeAt who a v s) :=
  congrArg Host.Outcome.next (when_of h ..)

theorem exec_registerWrite_held {s : State} (h : s.released = false) (who : Who) (a : Nat) (v : W32) :
    exec (.registerWrite who a v) s = .next s :=
  congrArg Host.Outcome.next (when_not h ..)

theorem writerActive_steward {s : State} {t : Nat} (h : t = 0) : writerActive s t = true := by simp [writerActive, h]

theorem writeAt_active {s : State} {who : Who} (h : writerActive s who.tenant = true) (a : Nat) (v : W32) :
    writeAt who a v s =
      { (regWrite who none a v s).2.2 with busStatus := (regWrite who none a v s).1 } := by
  unfold writeAt; rw [if_pos h]

theorem writeAt_inactive {s : State} {who : Who} (h : writerActive s who.tenant = false) (a : Nat) (v : W32) :
    writeAt who a v s = { s with busStatus := 0x04 } := by
  unfold writeAt; rw [if_neg (by simp [h])]

theorem regWrite_misaligned {a : Nat} (h : a % 4 ≠ 0) (who : Who) (sched : Option Nat) (v : W32) (s : State) :
    regWrite who sched a v s = (0x05, [], s) := by
  unfold regWrite; rw [if_pos (by simpa using h)]

theorem regWrite_nowhere {a : Nat} (h : a % 4 = 0) (hn : regOfAddr a = none) (who : Who) (sched : Option Nat) (v : W32)
    (s : State) : regWrite who sched a v s = (writeNowhere a, [], s) := by
  unfold regWrite; rw [if_neg (by simp [h]), hn]

theorem regWrite_reg {a : Nat} {r : Reg} (h : a % 4 = 0) (hr : regOfAddr a = some r) (who : Who) (sched : Option Nat)
    (v : W32) (s : State) : regWrite who sched a v s = writeReg who.tenant sched r v s := by
  unfold regWrite; rw [if_neg (by simp [h]), hr]

theorem writeReg_denied {s : State} {t : Nat} {r : Reg} {v : W32} (h : mayWrite s t r v = false) (sched : Option Nat) :
    writeReg t sched r v s = (0x04, [], rightsFlag r s) := by
  unfold writeReg; rw [if_pos (by simp [h])]

/-- A report of a write without the right touches registers and the notes of the lane cycle. -/
theorem rightsFlag_eq (r : Reg) (s : State) :
    rightsFlag r s = { s with regs := (rightsFlag r s).regs, acc := (rightsFlag r s).acc } := by
  cases r <;> rfl

/-- A write of the register at its address, by a writer that is active. -/
theorem exec_registerWrite_reg {s : State} {who : Who} {a : Nat} {r : Reg} (hs : s.released = true)
    (hw : writerActive s who.tenant = true) (h4 : a % 4 = 0) (hr : regOfAddr a = some r) (v : W32) :
    exec (.registerWrite who a v) s =
      .next { (writeReg who.tenant none r v s).2.2 with busStatus := (writeReg who.tenant none r v s).1 } := by
  rw [exec_registerWrite hs, writeAt_active hw, regWrite_reg h4 hr]

/-! ### No register stands at a peek address (R16, R545) -/

theorem rowHit_lt {a : Nat} {row : RegRow} {r : Reg} (hs : 0 < row.s0) (h : rowHit a row = some r) :
    a < row.base + row.n0 * row.s0 := by
  unfold rowHit at h
  split at h
  · cases h
  · dsimp only at h
    split at h
    · rename_i hb hc
      have := (Nat.div_lt_iff_lt_mul hs).mp hc.2.1
      omega
    · cases h

/-- Every row of the register index ends below the peek addresses. -/
theorem regRows_below : ∀ row ∈ regRows, 0 < row.s0 ∧ row.base + row.n0 * row.s0 ≤ 2 ^ 31 := by decide +kernel

theorem regOfAddr_peek {a : Nat} (ha : 2 ^ 31 ≤ a) : regOfAddr a = none := by
  have hk : keeperAlias a = a := if_neg (by omega)
  have hnone : regRows.findSome? (rowHit a) = none := by
    rw [List.findSome?_eq_none_iff]
    intro row hrow
    obtain ⟨hs, hb⟩ := regRows_below row hrow
    cases h : rowHit a row with
    | none => rfl
    | some r => exact absurd (rowHit_lt hs h) (by omega)
  unfold regOfAddr; rw [hk, hnone]

theorem writeNowhere_peek {a : Nat} (ha : 2 ^ 31 ≤ a) : writeNowhere a = 0 := if_pos (by omega)

/-- Settles O54: no register stands at a peek address, so a write there reaches none. -/
theorem peekWritesAreIgnored : Obligations.PeekWritesAreIgnored := by
  intro s who a v ha h4
  obtain hs | hs := Bool.eq_false_or_eq_true s.released
  · refine ⟨_, exec_registerWrite hs who a v, ?_⟩
    obtain hw | hw := Bool.eq_false_or_eq_true (writerActive s who.tenant)
    · rw [writeAt_active hw, regWrite_nowhere h4 (regOfAddr_peek ha), writeNowhere_peek ha]
      exact ⟨rfl, fun _ _ => rfl⟩
    · rw [writeAt_inactive hw]
      exact ⟨rfl, fun _ h => absurd h (by simp [hw])⟩
  · exact ⟨s, exec_registerWrite_held hs .., rfl, fun h => absurd h (by simp [hs])⟩

/-! ### Events registers (R15) -/

theorem accNow_lc (s : State) : (accNow s).lc = lc s := by
  unfold accNow
  split
  · assumption
  · rfl

/-- The start of a write leaves what hardware has set in the lane cycle. -/
theorem setNow_noteWrite (r : Reg) (s : State) (a : Nat) : setNow (noteWrite r s) a = setNow s a := by
  unfold noteWrite
  split
  · rfl
  · have hacc (c : SameCycle) (h : c.lc = lc s) : accNow { s with acc := c } = c := if_pos h
    unfold setNow
    rw [hacc _ (by exact accNow_lc s)]

theorem noteWrite_eq (r : Reg) (s : State) : noteWrite r s = { s with acc := (noteWrite r s).acc } := by
  unfold noteWrite; split <;> rfl

/-- The events registers whose units stand outside the clusters and the Byre, and act on no write but W1C. -/
def unitEvents : List Reg := [.tbEvents, .spEvents, .jrEvents, .flEvents]

/-- A register without RW fields keeps its value in their write. -/
theorem reg_writeRw_noRw {r : Reg} (h : regRwMask r = 0) (v : W32) (s : State) : reg (writeRw r v s) r = reg s r := by
  rw [reg_writeRw, h]
  change reg s r &&& ~~~0#32 ||| v &&& 0#32 = reg s r
  rw [BitVec.and_zero, BitVec.or_zero, BitVec.not_zero, BitVec.and_allOnes]

/-- What a write of v leaves of an events register. -/
def eventsWritten (r : Reg) (v : W32) (s : State) : State := writeW1c r v (writeRw r v (noteWrite r s))

theorem regRwMask_unitEvents {r : Reg} (h : r ∈ unitEvents) : regRwMask r = 0 := by
  simp only [unitEvents, List.mem_cons, List.not_mem_nil, or_false] at h
  obtain rfl | rfl | rfl | rfl := h <;> rfl

theorem regOfAddr_unitEvents {r : Reg} (h : r ∈ unitEvents) : regAddr r % 4 = 0 ∧ regOfAddr (regAddr r) = some r := by
  simp only [unitEvents, List.mem_cons, List.not_mem_nil, or_false] at h
  obtain rfl | rfl | rfl | rfl := h <;> decide +kernel

theorem writeReg_unitEvents {r : Reg} (h : r ∈ unitEvents) (v : W32) (s : State) :
    writeReg 0 none r v s = (0, [], eventsWritten r v s) := by
  simp only [unitEvents, List.mem_cons, List.not_mem_nil, or_false] at h
  obtain rfl | rfl | rfl | rfl := h <;> rfl

theorem eventsWritten_eq (r : Reg) (v : W32) (s : State) :
    eventsWritten r v s = { s with regs := (eventsWritten r v s).regs, acc := (eventsWritten r v s).acc } := by
  unfold eventsWritten
  rw [writeW1c_eq, writeRw_eq, noteWrite_eq]

theorem reg_eventsWritten {r : Reg} (h : regRwMask r = 0) (v : W32) (s : State) :
    reg (eventsWritten r v s) r = reg s r &&& ~~~(v &&& regW1cMask r &&& ~~~setNow s (regAddr r)) := by
  have hset : setNow (writeRw r v (noteWrite r s)) (regAddr r) = setNow s (regAddr r) := setNow_noteWrite ..
  have hreg : reg (noteWrite r s) r = reg s r := by rw [noteWrite_eq]; rfl
  unfold eventsWritten
  rw [reg_writeW1c, hset, reg_writeRw_noRw h, hreg]

theorem eventsWritten_regsBut (r : Reg) (v : W32) (s : State) : RegsBut [regAddr r] s (eventsWritten r v s) := by
  intro a ha d
  unfold eventsWritten writeW1c writeRw
  rw [setReg_regsBut r _ _ a ha d, setReg_regsBut r _ _ a ha d, noteWrite_eq]

/-- A write of an events register by the steward clears the bits written as 1 but those that hardware sets in the same lane
cycle, and nothing else changes (R15). -/
theorem registerWrite_unitEvents {r : Reg} (h : r ∈ unitEvents) {s : State} {who : Who} (hs : s.released = true)
    (ht : who.tenant = 0) (v : W32) :
    Answers (.registerWrite who (regAddr r) v) s fun t =>
      reg t r = reg s r &&& ~~~(v &&& regW1cMask r &&& ~~~setNow s (regAddr r)) ∧ t.busStatus = 0 ∧
      RegsBut [regAddr r] s t ∧ t = { s with regs := t.regs, busStatus := t.busStatus, acc := t.acc } := by
  obtain ⟨h4, hr⟩ := regOfAddr_unitEvents h
  refine ⟨{ eventsWritten r v s with busStatus := 0 }, ?_, reg_eventsWritten (regRwMask_unitEvents h) v s, rfl,
    eventsWritten_regsBut r v s, ?_⟩
  · rw [exec_registerWrite_reg hs (writerActive_steward ht) h4 hr, ht, writeReg_unitEvents h]
  · exact congrArg (fun u : State => { u with busStatus := 0 }) (eventsWritten_eq r v s)

/-! ### Registers whose writes are records (R423, R429) -/

/-- A record that the journal takes joins the commands that wait for the writer. -/
theorem submit_taken {s : State} {type t : Nat} {sched : Option Nat} {payload : List W64}
    (h : journalRefused s t sched payload.length = none) :
    submit type t sched payload s =
      (0, [s.jr.nextId], { s with jr := { s.jr with
        nextId := s.jr.nextId + 1
        cmdQ := s.jr.cmdQ ++ [{ id := s.jr.nextId, type := type, tenant := t, sched := sched, payload := payload,
                                replay := false }] } }) := by
  unfold submit; rw [h]; rfl

/-- Two registers whose every value may be recorded: no check of step 8 refuses one. -/
def recordedAlways : List Reg := [.spDevid, .byWake]

theorem regOfAddr_recordedAlways {r : Reg} (h : r ∈ recordedAlways) :
    regAddr r % 4 = 0 ∧ regOfAddr (regAddr r) = some r := by
  simp only [recordedAlways, List.mem_cons, List.not_mem_nil, or_false] at h
  obtain rfl | rfl := h <;> decide +kernel

theorem writeReg_recordedAlways {r : Reg} (h : r ∈ recordedAlways) (v : W32) (s : State) :
    writeReg 0 none r v s = submit 0x01 0 none (regPayload (regAddr r) v) s := by
  simp only [recordedAlways, List.mem_cons, List.not_mem_nil, or_false] at h
  obtain rfl | rfl := h <;> rfl

/-- A write of such a register by the steward becomes a record, where the journal takes one, and nothing else changes
(R423, R429). -/
theorem registerWrite_recordedAlways {r : Reg} (h : r ∈ recordedAlways) {s : State} {who : Who} (hs : s.released = true)
    (ht : who.tenant = 0) (hj : journalRefused s 0 none 1 = none) (v : W32) :
    Answers (.registerWrite who (regAddr r) v) s fun t =>
      t.jr = { s.jr with
        nextId := s.jr.nextId + 1
        cmdQ := s.jr.cmdQ ++ [{ id := s.jr.nextId, type := 0x01, tenant := 0, sched := none,
                                payload := regPayload (regAddr r) v, replay := false }] } ∧
      t.busStatus = 0 ∧ t = { s with jr := t.jr, busStatus := t.busStatus } := by
  obtain ⟨h4, hr⟩ := regOfAddr_recordedAlways h
  refine ⟨_, exec_registerWrite_reg hs (writerActive_steward ht) h4 hr v, ?_⟩
  rw [ht, writeReg_recordedAlways h, submit_taken hj]
  exact ⟨rfl, rfl, rfl⟩

/-- Watermarks that leave no space between them are refused, and SP_EVENTS reports it. -/
theorem writeReg_spWm0_refused {v : W32} (h : fld v 16 11 ≤ fld v 0 11) (s : State) :
    writeReg 0 none .spWm0 v s = (0x04, [], raise .spEvents 6 s) := by
  have hbad : regBad (committed s) 0 .spWm0 v = true := decide_eq_true h
  have hrec : writeReg 0 none .spWm0 v s = writeRecorded 0 none .spWm0 v s := rfl
  rw [hrec]
  unfold writeRecorded
  dsimp only
  rw [if_pos hbad]
  rfl

theorem raise_regsBut (r : Reg) (b : Nat) (s : State) : RegsBut [regAddr r] s (raise r b s) :=
  fun a ha d => setReg_regsBut r _ s a ha d

/-- A flag that is raised reads 1. -/
theorem rbit_raise (r : Reg) {b : Nat} (hb : b < 32) (s : State) : rbit (raise r b s) r b = true := by
  have hpow : (at32 1 b).toNat = 2 ^ b := by
    have hlt : 2 ^ b < 2 ^ 32 := Nat.pow_lt_pow_right (by decide) hb
    simp only [at32, BitVec.toNat_ofNat, Nat.one_mul, Nat.mod_eq_of_lt hlt]
  have hbit : (reg s r ||| at32 1 b).toNat.testBit b = true := by
    rw [BitVec.toNat_or, Nat.testBit_or, hpow, Nat.testBit_two_pow_self, Bool.or_true]
  unfold rbit rfld fld
  rw [reg_raise, beq_iff_eq]
  simpa [Nat.testBit_eq_decide_div_mod_eq] using hbit

/-- Settles O47, clause by clause: the refusals in the order of the checks, the events registers, the records. -/
theorem registerWrites : Obligations.RegisterWrites := by
  intro s
  refine ⟨fun who a v hs => ⟨s, exec_registerWrite_held hs .., rfl⟩, fun who a v hs hw h4 => ?_, fun who a v hs hw => ?_,
    fun who a v hs hw h4 hn => ?_, fun who r a v hs hw h4 hr hm => ?_,
    fun who v hs ht => registerWrite_unitEvents (by simp [unitEvents]) hs ht v,
    fun who v hs ht => registerWrite_unitEvents (by simp [unitEvents]) hs ht v,
    fun who v hs ht => registerWrite_unitEvents (by simp [unitEvents]) hs ht v,
    fun who v hs ht => registerWrite_unitEvents (by simp [unitEvents]) hs ht v,
    fun who v hs ht hj => registerWrite_recordedAlways (by simp [recordedAlways]) hs ht hj v,
    fun who v hs ht hj => registerWrite_recordedAlways (by simp [recordedAlways]) hs ht hj v,
    fun who v hs ht hv => ?_⟩
  · exact ⟨_, exec_registerWrite hs .., by rw [writeAt_active hw, regWrite_misaligned h4]⟩
  · exact ⟨_, exec_registerWrite hs .., writeAt_inactive hw a v⟩
  · exact ⟨_, exec_registerWrite hs .., by rw [writeAt_active hw, regWrite_nowhere h4 hn]⟩
  · refine ⟨_, exec_registerWrite_reg hs hw h4 hr v, ?_⟩
    rw [writeReg_denied hm]
    refine ⟨rfl, congrArg (fun u : State => { u with busStatus := 0x04 }) (rightsFlag_eq r s), fun h => ?_⟩
    change (rightsFlag r s).regs = s.regs
    rw [h]
  · refine ⟨_, exec_registerWrite_reg (r := .spWm0) hs (writerActive_steward ht) (by decide) (by decide +kernel) v, ?_⟩
    rw [ht, writeReg_spWm0_refused hv]
    exact ⟨rfl, rbit_raise _ (by decide) s, raise_regsBut .spEvents 6 s, rfl⟩

end Sys2Proof.Proofs
end

section
/-! PROOFS. Chapter 1: every command is answered, and the one refusal names a unit that the device does not have (R24, R188,
R341, R397, R522). -/
namespace Sys2Proof.Proofs

open Sys2Proof.Machine Sys2Proof.Safety Sys2Proof.Laws

/-! ### A meaning's own test of its operands, and well-formedness -/

theorem scrubWord_eq_scrubbed (mem c w : Nat) : scrubWord mem c w = scrubbed mem c w := by
  unfold scrubWord scrubbed
  split <;> simp [Bool.beq_eq_decide_eq]

theorem queueKnown_eq_decide (q : Nat) : queueKnown q = decide (q < 9 ∨ (32 ≤ q ∧ q < 64)) := by
  simp [queueKnown]

theorem onUnit_and_decide (p q : Prop) [Decidable p] [Decidable q] (t : State) :
    onUnit (p && q) t = onUnit (decide (p ∧ q)) t := by
  rw [Bool.decide_and]

theorem onUnit_ne_fault (ok : Bool) (t : State) (f : Fault) : onUnit ok t ≠ .fault f := by
  cases ok <;> exact nofun

/-- A context command refuses only a register of a context that the device does not have. -/
theorem ctxRow_eq_onUnit_wf (op b : Nat) (src : CtxSrc) (s : State) : ∃ t, ctxRow op b src s = onUnit src.wf t := by
  cases src with
  | command | register => exact ⟨_, rfl⟩

/-- In every state a command is answered with a next state exactly where its operands are within the numbers of the device,
and with `noSuchUnit` elsewhere. The last case holds the commands whose meaning makes the very test of well-formedness, or
none where every operand is well-formed. -/
theorem exec_eq_onUnit_wf (c : Instr) (s : State) : ∃ t, exec c s = onUnit c.wf t := by
  cases c with
  | thresholdCrossing | milklineEvent | clusterChannelEvent | clLevWrite => exact ⟨_, onUnit_and_decide ..⟩
  | ctxStart | ctxStop | ctxHalt | ctxResume | ctxStep | ctxBreak => exact ctxRow_eq_onUnit_wf ..
  | ungate src | compact src => cases src <;> exact ⟨_, rfl⟩
  | responseSend path => cases path <;> exact ⟨_, rfl⟩
  | queueIntegrity q => exact ⟨_, congrArg (onUnit · _) (queueKnown_eq_decide q)⟩
  | scrub mem cl w err =>
    exact ⟨_, congrArg (onUnit · _) (Bool.decide_eq_true.trans (scrubWord_eq_scrubbed mem cl w))⟩
  | _ => exact ⟨_, rfl⟩

/-- Settles O53: all three clauses are read off the one form that every answer has. -/
theorem commandsComplete : Obligations.CommandsComplete := by
  refine ⟨fun c s hwf => ?_, fun c s f => ?_, fun c s r hr => ?_⟩ <;> obtain ⟨t, ht⟩ := exec_eq_onUnit_wf c s
  · exact ⟨t, ht.trans (onUnit_of hwf t), trivial⟩
  · exact ht ▸ onUnit_ne_fault c.wf t f
  · exact onUnit_refused (ht.symm.trans hr)

end Sys2Proof.Proofs
end

section
/-! PROOFS. Chapter 2: the interval of the journal writer (R89, R424). -/
namespace Sys2Proof.Proofs

open Sys2Proof.Machine Sys2Proof.Safety Sys2Proof.Laws

/-! ### The lane cycle of the writer's next word -/

/-- The first of a list of numbers is not above the largest. -/
theorem le_lmax_cons (x : Nat) (l : List Nat) : x ≤ lmax (x :: l) := Nat.le_max_left ..

theorem lc_le_writerLc (s : State) : lc s ≤ writerLc s := by
  unfold writerLc
  refine Nat.le_trans ?_ (le_lmax_cons _ _)
  split
  · exact Nat.le_max_left ..
  · exact Nat.le_refl _

/-- A word waits for the whole interval after the word before it. -/
theorem interval_le_writerLc {s : State} {m : Nat} (h : s.jr.lastLc = some m) : m + interval s ≤ writerLc s := by
  unfold writerLc
  rw [h]
  exact Nat.le_trans (Nat.le_max_right (lc s) _) (le_lmax_cons _ _)

/-- Time passes to the lane cycle of the next word. -/
theorem lc_toLc_writerLc (s : State) : lc (toLc (writerLc s) s) = writerLc s := by
  rw [lc_toLc, Nat.max_eq_right (lc_le_writerLc s)]

/-! ### What the writing of a word keeps -/

/-- The writer's last word was in the present lane cycle n, and no command waits for its verification. -/
structure WordAt (n : Nat) (s : State) : Prop where
  lastLc : s.jr.lastLc = some n
  lc : lc s = n
  buf0 : (port s 0).buf = []
  buf1 : (port s 1).buf = []
  cmd : s.mspi.cmd = none

section
variable {n : Nat} {s : State}

/-- Only the journal, the time, the ports and the MSPI buffer bear on it. -/
theorem WordAt.of_parts {t : State} (h : WordAt n s) (hj : t.jr.lastLc = s.jr.lastLc) (hn : t.now = s.now) (hp : t.pt = s.pt)
    (hm : t.mspi.cmd = s.mspi.cmd) : WordAt n t where
  lastLc := hj.trans h.lastLc
  lc := by unfold Machine.lc; rw [hn]; exact h.lc
  buf0 := by unfold port; rw [hp]; exact h.buf0
  buf1 := by unfold port; rw [hp]; exact h.buf1
  cmd := hm.trans h.cmd

theorem wordAt_modJr {f : Journal → Journal} (h : WordAt n s) (hf : (f s.jr).lastLc = s.jr.lastLc) :
    WordAt n (modJr f s) := h.of_parts hf rfl rfl rfl

theorem wordAt_putHalf (b : Bool) (a : Nat) (w : W64) (h : WordAt n s) : WordAt n (putHalf b a w s) :=
  wordAt_modJr h (by cases b <;> rfl)

theorem wordAt_raise (r : Reg) (b : Nat) (h : WordAt n s) : WordAt n (raise r b s) := h.of_parts rfl rfl rfl rfl

theorem wordAt_count (r : Reg) (h : WordAt n s) : WordAt n (count r s) := by
  rw [count_eq]; exact h.of_parts rfl rfl rfl rfl

theorem beginRec_lastLc (j : Journal) : (beginRec j).lastLc = j.lastLc := by
  unfold beginRec
  dsimp only
  split
  · rfl
  · split
    · rfl
    · split
      · rfl
      · split
        · rfl
        · split <;> rfl

theorem committedAs_lastLc (w : JWrite) (m : Nat) (j : Journal) : (committedAs w m j).lastLc = j.lastLc := by
  unfold committedAs dropSched dropSuspect
  dsimp only
  repeat' split
  all_goals rfl

theorem wordAt_finishRec (w : JWrite) (h : WordAt n s) : WordAt n (finishRec w s) := by
  unfold finishRec
  have hdone (last : W64) : WordAt n (modJr (fun j => { j with cur := none, fill := w.start + w.words.length - 1 + 1 })
      (putHalf s.jr.activeB (w.start + w.words.length - 1) last s)) := wordAt_modJr (wordAt_putHalf _ _ _ h) rfl
  dsimp only
  split
  · exact wordAt_raise _ _ (wordAt_count _ (wordAt_raise _ _ (wordAt_count _ (hdone _))))
  · refine wordAt_modJr (hdone _) ?_
    split
    · exact committedAs_lastLc ..
    · exact committedAs_lastLc ..

theorem wordAt_writeRec (h : WordAt n s) : WordAt n (writeRec s) := by
  have hb : WordAt n (modJr beginRec s) := wordAt_modJr h (beginRec_lastLc _)
  unfold writeRec
  dsimp only
  split
  · exact hb
  · split
    · exact wordAt_modJr (wordAt_putHalf _ _ _ hb) rfl
    · exact wordAt_finishRec _ hb

theorem wordAt_flip (c : Compaction) (h : WordAt n s) : WordAt n (Machine.flip c s) := by
  unfold Machine.flip
  exact wordAt_raise _ _ (wordAt_count _ (wordAt_modJr (wordAt_putHalf _ _ _ h) rfl))

theorem wordAt_writeCompact (h : WordAt n s) : WordAt n (writeCompact s) := by
  unfold writeCompact
  split
  · exact h
  · split
    · exact wordAt_modJr (wordAt_putHalf _ _ _ h) rfl
    · split
      · exact wordAt_flip _ h
      · dsimp only
        split
        · exact wordAt_modJr (wordAt_putHalf _ _ _ (wordAt_modJr h rfl)) rfl
        · exact wordAt_flip _ (wordAt_modJr h rfl)

/-- A word is written in the lane cycle that the interval gives, whichever work the writer has. -/
theorem wordAt_writeWord (h0 : (port s 0).buf = []) (h1 : (port s 1).buf = []) (hc : s.mspi.cmd = none) :
    WordAt (writerLc s) (writeWord s) := by
  have hlc := lc_toLc_writerLc s
  have hw : WordAt (writerLc s) (modJr (fun j => { j with lastLc := some (lc (toLc (writerLc s) s)) })
      (toLc (writerLc s) s)) := ⟨congrArg some hlc, hlc, h0, h1, hc⟩
  unfold writeWord
  dsimp only
  split
  · exact wordAt_modJr (wordAt_writeCompact hw) rfl
  · exact wordAt_modJr (wordAt_writeRec hw) rfl

/-! ### The answer to the command that waits for a record -/

/-- A change of a port but of its buffer. -/
theorem wordAt_modPort (p : Nat) {f : Port → Port} (hf : ∀ u, (f u).buf = u.buf) (h : WordAt n s) :
    WordAt n (modPort p f s) := by
  have hb (q : Nat) : (port (modPort p f s) q).buf = (port s q).buf := by
    by_cases hq : q = p
    · rw [hq, port_modPort, hf]
    · rw [port_modPort_ne _ f hq]
  exact ⟨h.lastLc, h.lc, (hb 0).trans h.buf0, (hb 1).trans h.buf1, h.cmd⟩

theorem wordAt_setRun (p : Path) (r : Option Running) (h : WordAt n s) : WordAt n (setRun p r s) := by
  unfold setRun
  split
  · exact wordAt_modPort _ (fun _ => rfl) h
  · exact h.of_parts rfl rfl rfl rfl

theorem wordAt_respond (p : Path) (ws : List W64) (h : WordAt n s) : WordAt n (respond p ws s) := by
  unfold respond
  split
  · exact wordAt_modPort _ (fun _ => rfl) h
  · exact h.of_parts rfl rfl rfl rfl

theorem wordAt_finishRun (p : Path) (h : WordAt n s) : WordAt n (finishRun p s) := by
  unfold finishRun
  split
  · split
    · exact wordAt_respond _ _ (h.of_parts rfl rfl rfl rfl)
    · exact h
  · exact h

/-- With no command waiting, a pump does nothing. -/
theorem pump_of_wordAt (p : Path) (h : WordAt n s) : pump p s = s := by
  unfold pump pumpOne
  cases p <;> simp [portNo, h.buf0, h.buf1, h.cmd, forN]

theorem wordAt_recordSettled (id : Nat) (late : Bool) (h : WordAt n s) : WordAt n (recordSettled id late s) := by
  unfold recordSettled pumpAll
  refine forL_keeps (forL_keeps h fun p _ u hu => ?_) fun p _ u hu => ?_
  · exact wordAt_finishRun p (wordAt_setRun p _ hu)
  · rw [pump_of_wordAt p hu]; exact hu

end

theorem wordAt_journalWord {s : State} (h0 : (port s 0).buf = []) (h1 : (port s 1).buf = []) (hc : s.mspi.cmd = none) :
    WordAt (writerLc s) (journalWord s) := by
  have hw := wordAt_writeWord h0 h1 hc
  unfold journalWord
  dsimp only
  split
  · exact wordAt_recordSettled _ _ hw
  · exact hw

/-! ### The write of FR_BUD_JR -/

/-- A replay record touches the journal, and JR_EVENTS where it is full. -/
theorem replayRecord_regsBut (t : Nat) (r : Reg) (v : W32) (s : State) :
    RegsBut [regAddr .jrEvents] s (replayRecord t r v s) := by
  unfold replayRecord
  split
  · exact fun _ _ _ => rfl
  · split
    · exact raise_regsBut .jrEvents 7 s
    · exact fun _ _ _ => rfl

/-- The steward's write of FR_BUD_JR sets the register to its INTERVAL, no less than 625, and leaves a replay record. -/
theorem writeReg_frBudJr (v : W32) (s : State) :
    writeReg 0 none .frBudJr v s = (0, [], replayRecord 0 .frBudJr v (setReg .frBudJr (at32 (max 625 (fld v 0 16)) 0) s)) :=
  rfl

theorem fld_at32 {n w : Nat} (hw : w ≤ 32) (hn : n < 2 ^ w) : fld (at32 n 0) 0 w = n := by
  have h32 : n < 2 ^ 32 := Nat.lt_of_lt_of_le hn (Nat.pow_le_pow_right (by decide) hw)
  simp only [fld, at32, BitVec.toNat_ofNat, Nat.pow_zero, Nat.mul_one, Nat.div_one, Nat.mod_eq_of_lt h32,
    Nat.mod_eq_of_lt hn]

theorem interval_replayRecord_frBudJr {n : Nat} (hn : n < 2 ^ 16) (v : W32) (s : State) :
    interval (replayRecord 0 .frBudJr v (setReg .frBudJr (at32 n 0) s)) = n := by
  unfold interval rfld
  rw [RegsBut.reg (replayRecord_regsBut 0 .frBudJr v _) (by decide), reg_setReg, fld_at32 (by decide) hn]

/-- Settles O56: a word falls in the lane cycle of writerLc, which no interval comes before, and nothing that the writing does
moves it; the write of FR_BUD_JR reads back with its floor. -/
theorem journalWriterInterval : Obligations.JournalWriterInterval := by
  refine fun s => ⟨fun m hs hw hl h0 h1 hc => ?_, fun who v hs ht => ?_⟩
  · have hword := wordAt_journalWord h0 h1 hc
    refine ⟨journalWord s, congrArg Host.Outcome.next (when_of (by simp [hs, hw]) ..), ?_⟩
    exact ⟨interval_le_writerLc hl, lc_le_writerLc s, hword.lastLc, hword.lc⟩
  · have hlt : max 625 (fld v 0 16) < 2 ^ 16 := by
      have : fld v 0 16 < 2 ^ 16 := Nat.mod_lt _ (by decide)
      omega
    refine ⟨_, exec_registerWrite_reg (r := .frBudJr) hs (writerActive_steward ht) (by decide) (by decide +kernel) v, ?_⟩
    rw [ht, writeReg_frBudJr]
    exact ⟨interval_replayRecord_frBudJr hlt v _, rfl⟩

end Sys2Proof.Proofs
end

section
/-! PROOFS. Chapter 3: what a tick leaves alone of the frame counter, the epoch and the flags that tell of its carry, but for
the first row of Table 3-2. -/
namespace Sys2Proof.Proofs

open Sys2Proof.Machine Sys2Proof.Safety Sys2Proof.Laws

/-! ### What a tick keeps -/

/-- No record waits to apply. -/
structure NoRecords (j : Journal) : Prop where
  done : j.done = []
  sched : j.sched = []
  deferred : j.deferred = []

/-- The registers that a tick writes beside TB_EPOCH, TB_DISC and FR_EVENTS. -/
inductive TickReg : Reg → Prop
  | tbCtrl : TickReg .tbCtrl
  | tbEvents : TickReg .tbEvents
  | tbFofsNow : TickReg .tbFofsNow
  | tbFlushEdge : TickReg .tbFlushEdge
  | tbTrunc : TickReg .tbTrunc
  | asEvents : TickReg .asEvents
  | frPchkFail : TickReg .frPchkFail
  | ptTtcEvents : TickReg .ptTtcEvents
  | spNostrCnt : TickReg .spNostrCnt
  | jrEvents : TickReg .jrEvents
  | tnEvents : TickReg .tnEvents
  | stAst : TickReg .stAst
  | flEvents : TickReg .flEvents
  | flLogDropCnt : TickReg .flLogDropCnt
  | spSCfg (k : Nat) : TickReg (.spSCfg k)
  | spSLoss (k : Nat) : TickReg (.spSLoss k)
  | rgLevents (k : Nat) : TickReg (.rgLevents k)
  | byKcLatch (k : Nat) : TickReg (.byKcLatch k)
  | clBudStatus (k : Nat) : TickReg (.clBudStatus k)
  | clBudExh (k : Nat) : TickReg (.clBudExh k)
  | clBudSysLast (k : Nat) : TickReg (.clBudSysLast k)
  | clBudSysMin (k : Nat) : TickReg (.clBudSysMin k)
  | lnEvents (k : Nat) : TickReg (.lnEvents k)
  | lnTruncCnt (k : Nat) : TickReg (.lnTruncCnt k)
  | slEvents (k : Nat) : TickReg (.slEvents k)
  | slLatch (k : Nat) : TickReg (.slLatch k)
  | slQlossCnt (k : Nat) : TickReg (.slQlossCnt k)
  | slToterrCnt (k : Nat) : TickReg (.slToterrCnt k)
  | sgLEvents (k : Nat) : TickReg (.sgLEvents k)
  | sgLPasses (k : Nat) : TickReg (.sgLPasses k)
  | ctxExh (k : Nat) : TickReg (.ctxExh k)
  | clWovr (c n : Nat) : TickReg (.clWovr c n)

/-- None of them stands at an address of those three. -/
theorem TickReg.regAddr_ne {r : Reg} (h : TickReg r) :
    regAddr r ≠ regAddr .tbEpoch ∧ regAddr r ≠ regAddr .tbDisc ∧ regAddr r ≠ regAddr .frEvents := by
  cases h <;> delta regAddr <;> dsimp only <;> omega

/-- The flag of an epoch or frame-counter wrap in the header of the frame. -/
def Wraps (flags : BitVec 8) : Prop := flags &&& flagWrap = flagWrap

/-- The parts of a state keep, against state a, what a carry of the frame counter is told by: the frame counter, the epoch
and the count of discontinuities are as in a; the wrap flag and FR_EVENTS.FCNT_WRAP stay where a has them; time runs, a time
set waits and records wait as in a. -/
structure KeptParts (a : State) (fr : Frames) (tset : Bool) (jr : Journal) (regs : Tbl W32) : Prop where
  count : fr.count = a.fr.count
  running : fr.running = a.fr.running
  wraps : Wraps a.fr.flags → Wraps fr.flags
  tset : tset = a.tb.tset
  noRecords : NoRecords a.jr → NoRecords jr
  epoch : tget (regReset .tbEpoch) (regAddr .tbEpoch) regs = reg a .tbEpoch
  disc : tget (regReset .tbDisc) (regAddr .tbDisc) regs = reg a .tbDisc
  event : fld (reg a .frEvents) 2 1 = 1 → fld (tget (regReset .frEvents) (regAddr .frEvents) regs) 2 1 = 1

/-- State s keeps these against state a. -/
def Kept (a s : State) : Prop := KeptParts a s.fr s.tb.tset s.jr s.regs

theorem kept_refl (a : State) : Kept a a := ⟨rfl, rfl, id, rfl, id, rfl, rfl, id⟩

section
variable {a s : State}

/-- An update of the other parts of a state. -/
theorem Kept.elsewhere {t : State} (h : Kept a s)
    (ht : (t.fr, t.tb.tset, t.jr, t.regs) = (s.fr, s.tb.tset, s.jr, s.regs)) : Kept a t := by
  simp only [Prod.mk.injEq] at ht
  obtain ⟨hfr, htset, hjr, hregs⟩ := ht
  unfold Kept
  rw [hfr, htset, hjr, hregs]
  exact h

theorem kept_ite {c : Prop} [Decidable c] {t e : State} (ht : Kept a t) (he : Kept a e) : Kept a (if c then t else e) := by
  split
  · exact ht
  · exact he

theorem kept_when {c : Prop} [Decidable c] {f : State → State} (hf : ∀ {u : State}, Kept a u → Kept a (f u))
    (h : Kept a s) : Kept a (if c then f s else s) := kept_ite (hf h) h

theorem kept_unless {c : Prop} [Decidable c] {f : State → State} (hf : ∀ {u : State}, Kept a u → Kept a (f u))
    (h : Kept a s) : Kept a (if c then s else f s) := kept_ite h (hf h)

/-! ### Registers, counters, the fault log -/

theorem kept_setReg {r : Reg} (hr : TickReg r) {v : W32} (h : Kept a s) : Kept a (setReg r v s) := by
  obtain ⟨hepoch, hdisc, hevents⟩ := hr.regAddr_ne
  exact { h with
    epoch := (reg_setReg_ne s v hepoch.symm).trans h.epoch
    disc := (reg_setReg_ne s v hdisc.symm).trans h.disc
    event := fun hw => (congrArg (fld · 2 1) (reg_setReg_ne s v hevents.symm)).trans (h.event hw) }

theorem kept_setRfld {r : Reg} (hr : TickReg r) {lo n v : Nat} (h : Kept a s) : Kept a (setRfld r lo n v s) :=
  kept_setReg hr h

theorem kept_raise {r : Reg} (hr : TickReg r) {b : Nat} (h : Kept a s) : Kept a (raise r b s) :=
  (kept_setReg hr h).elsewhere rfl

theorem kept_rcUpdate {r : Reg} (hr : TickReg r) {c : W32} {f : W32 → W32} (h : Kept a s) : Kept a (rcUpdate r c f s) :=
  (kept_setReg hr h).elsewhere rfl

theorem kept_carried {n : Nat} (h : Kept a s) : Kept a (carried n s) := kept_raise .flEvents (h.elsewhere rfl)

theorem kept_countN {r : Reg} (hr : TickReg r) {n : Nat} (h : Kept a s) : Kept a (countN r n s) := by
  have hset {v : W32} {c : SameCycle} : Kept a { setReg r v s with acc := c } := (kept_setReg hr h).elsewhere rfl
  unfold countN
  split
  · exact kept_ite (h.elsewhere rfl) (kept_carried (h.elsewhere rfl))
  · exact kept_ite hset (kept_carried hset)

theorem kept_count {r : Reg} (hr : TickReg r) (h : Kept a s) : Kept a (count r s) := kept_countN hr h

/-- A bit that a value has stays in its union with another. -/
theorem fld_or_left {x y : W32} {b : Nat} (h : fld x b 1 = 1) : fld (x ||| y) b 1 = 1 := by
  have hx : x.toNat.testBit b = true := by simpa [fld, Nat.testBit_eq_decide_div_mod_eq] using h
  have hxy : (x ||| y).toNat.testBit b = true := by rw [BitVec.toNat_or, Nat.testBit_or, hx, Bool.true_or]
  simpa [fld, Nat.testBit_eq_decide_div_mod_eq] using hxy

theorem kept_raise_frEvents {b : Nat} (h : Kept a s) : Kept a (raise .frEvents b s) :=
  { h with
    epoch := (reg_raise_ne (q := .tbEpoch) s b (by decide)).trans h.epoch
    disc := (reg_raise_ne (q := .tbDisc) s b (by decide)).trans h.disc
    event := fun hw => (congrArg (fld · 2 1) (reg_raise s .frEvents b)).trans (fld_or_left (h.event hw)) }

theorem kept_logOnly {code obj : Nat} {d : W64} (h : Kept a s) : Kept a (logOnly code obj d s) := by
  unfold logOnly
  exact kept_ite (h.elsewhere rfl) (kept_ite (h.elsewhere rfl) (kept_raise .flEvents (kept_count .flLogDropCnt h)))

theorem kept_faultRec {t top : Nat} (h : Kept a s) : Kept a (faultRec t top s) := by
  rw [faultRec_eq]; exact h.elsewhere rfl

theorem kept_produce {kind idx n : Nat} (h : Kept a s) : Kept a (produce kind idx n s) := by
  rw [produce_eq]; exact h.elsewhere rfl

/-! ### Flags of the frame -/

theorem wraps_iff_getLsbD (f : BitVec 8) : Wraps f ↔ f.getLsbD 1 = true := by
  unfold Wraps; revert f; decide

theorem wraps_or_left {f : BitVec 8} (h : Wraps f) (b : BitVec 8) : Wraps (f ||| b) := by
  rw [wraps_iff_getLsbD] at *
  rw [BitVec.getLsbD_or, h, Bool.true_or]

theorem wraps_or_flagWrap (f : BitVec 8) : Wraps (f ||| flagWrap) := by
  rw [wraps_iff_getLsbD, BitVec.getLsbD_or, (by decide : flagWrap.getLsbD 1 = true), Bool.or_true]

theorem kept_flags {b : BitVec 8} (h : Kept a s) : Kept a { s with fr := { s.fr with flags := s.fr.flags ||| b } } :=
  { h with wraps := fun hw => wraps_or_left (h.wraps hw) b }

theorem kept_frameFlag {b : BitVec 8} (h : Kept a s) : Kept a (frameFlag b s) := kept_flags h

theorem kept_noLink (h : Kept a s) : Kept a (noLink s) := kept_flags h

/-! ### Updates of one unit -/

theorem kept_setPulse {k : Nat} {l : PulseLane} (h : Kept a s) : Kept a (setPulse k l s) := h.elsewhere rfl

theorem kept_modPlayback {k : Nat} {f : Playback → Playback} (h : Kept a s) : Kept a (modPlayback k f s) := h.elsewhere rfl

theorem kept_setCtx {x : Nat} {u : Ctx} (h : Kept a s) : Kept a (setCtx x u s) := h.elsewhere rfl

theorem kept_modCtx {x : Nat} {f : Ctx → Ctx} (h : Kept a s) : Kept a (modCtx x f s) := h.elsewhere rfl

theorem kept_modCluster {c : Nat} {f : Cluster → Cluster} (h : Kept a s) : Kept a (modCluster c f s) := h.elsewhere rfl

theorem kept_modPulse {k : Nat} {f : PulseLane → PulseLane} (h : Kept a s) : Kept a (modPulse k f s) := h.elsewhere rfl

theorem kept_modStamp {k : Nat} {f : StampLane → StampLane} (h : Kept a s) : Kept a (modStamp k f s) := h.elsewhere rfl

theorem kept_setStamp {k : Nat} {l : StampLane} (h : Kept a s) : Kept a (setStamp k l s) := h.elsewhere rfl

theorem kept_modMeas {k : Nat} {f : Measure → Measure} (h : Kept a s) : Kept a (modMeas k f s) := h.elsewhere rfl

theorem kept_modStream {m : Nat} {f : Stream → Stream} (h : Kept a s) : Kept a (modStream m f s) := h.elsewhere rfl

theorem kept_modTenant {t : Nat} {f : Tenant → Tenant} (h : Kept a s) : Kept a (modTenant t f s) := h.elsewhere rfl

theorem kept_modTb {f : Timebase → Timebase} (h : Kept a s) (hf : (f s.tb).tset = s.tb.tset) : Kept a (modTb f s) :=
  { h with tset := hf.trans h.tset }

theorem kept_modFr {f : Frames → Frames} (h : Kept a s) (hc : (f s.fr).count = s.fr.count)
    (hr : (f s.fr).running = s.fr.running) (hf : (f s.fr).flags = s.fr.flags) : Kept a (modFr f s) :=
  { h with count := hc.trans h.count, running := hr.trans h.running, wraps := fun hw => hf ▸ h.wraps hw }

theorem kept_modJr {f : Journal → Journal} (h : Kept a s) (hf : NoRecords s.jr → NoRecords (f s.jr)) :
    Kept a (modJr f s) := { h with noRecords := fun hn => hf (h.noRecords hn) }

theorem kept_sysRecord {n : Nat} {p : List W64} (h : Kept a s) : Kept a (sysRecord n p s) :=
  { h with noRecords := fun hn => { h.noRecords hn with } }

theorem kept_modCanon {f : Tbl CItem → Tbl CItem} (h : Kept a s) : Kept a (modCanon f s) :=
  { h with noRecords := fun hn => { h.noRecords hn with } }

/-! ### What comes due by the lane cycle of the tick -/

theorem kept_enter {x : Nat} {st : CtxState} (h : Kept a s) : Kept a (enter x st s) := h.elsewhere rfl

theorem kept_cutDue {k n : Nat} (h : Kept a s) : Kept a (cutDue k n s) := by
  unfold cutDue
  dsimp only
  split
  · split
    · split
      · exact kept_raise (.lnEvents _) (kept_count (.lnTruncCnt _) (kept_setPulse h))
      · exact kept_count .tbTrunc (kept_setPulse h)
      · exact kept_setPulse h
    · exact h
  · exact h

theorem kept_playEnd {k b i : Nat} (h : Kept a s) : Kept a (playEnd k b i s) := by
  unfold playEnd
  exact kept_ite (kept_raise (.sgLEvents _) (h.elsewhere rfl)) h

theorem kept_descFail {k d n : Nat} (h : Kept a s) : Kept a (descFail k d n s) := by
  unfold descFail
  dsimp only
  split
  · exact kept_faultRec (kept_playEnd h)
  · exact kept_playEnd h

theorem kept_passNext {k d n : Nat} {ev : Option Nat} {p : Playback} (h : Kept a s) : Kept a (passNext k d n ev p s) := by
  unfold passNext
  refine kept_ite ?_ (kept_descFail (h.elsewhere rfl))
  cases ev
  · exact h.elsewhere rfl
  · exact kept_raise (.sgLEvents _) (h.elsewhere rfl)

theorem kept_passBoundary {k n : Nat} (h : Kept a s) : Kept a (passBoundary k n s) := by
  have hc : Kept a (count (.sgLPasses k) s) := kept_count (.sgLPasses _) h
  unfold passBoundary
  dsimp only
  split
  · exact kept_passNext hc
  · refine kept_ite (kept_passNext hc) (kept_ite (kept_passNext hc) ?_)
    split
    · exact kept_passNext hc
    · exact kept_playEnd hc

theorem kept_stopDue {k n : Nat} (h : Kept a s) : Kept a (stopDue k n s) := by
  unfold stopDue playStop
  split
  · exact kept_ite (kept_ite (kept_ite (kept_raise (.sgLEvents _) (kept_playEnd h)) (kept_playEnd h)) h) h
  · exact h

theorem kept_boundaryAt {k n : Nat} (h : Kept a s) : Kept a (boundaryAt k n s) := by
  have hs : Kept a (recordJumps k n (stopDue k n s)) := kept_modPlayback (kept_stopDue h)
  unfold boundaryAt
  exact kept_when kept_passBoundary (kept_modPlayback hs)

theorem kept_boundaryDue {k n : Nat} (h : Kept a s) : Kept a (boundaryDue k n s) := by
  unfold boundaryDue
  split
  · exact kept_ite (kept_boundaryAt h) h
  · exact h

theorem kept_charge {x n : Nat} (h : Kept a s) : Kept a (charge x n s) := by
  unfold charge
  exact kept_ite (kept_setCtx (kept_modCluster h)) (kept_modCluster (kept_modCluster h))

theorem kept_preempt {x : Nat} (h : Kept a s) : Kept a (preempt x s) := by
  have he : Kept a (if (ctx s x).exhausted then s else count (.ctxExh x) s) := kept_ite h (kept_count (.ctxExh _) h)
  exact kept_raise (.clBudStatus _) (kept_count (.clBudExh _) (kept_enter (kept_modCtx he)))

theorem kept_quantumEnds {x i : Nat} (h : Kept a s) : Kept a (quantumEnds x i s) := by
  unfold quantumEnds toClass2
  exact kept_ite (kept_modCluster (kept_modCtx h)) h

theorem kept_leaveAt {x j : Nat} {p : Nat × Bool} (h : Kept a s) : Kept a (leaveAt x j p s) := by
  unfold leaveAt
  exact kept_ite (kept_preempt (kept_modCluster (kept_charge h)))
    (kept_enter (kept_quantumEnds (kept_modCluster (kept_charge h))))

theorem kept_holdOn {x f i j n : Nat} {w : W32} (h : Kept a s) : Kept a (holdOn x f i j n w s) := by
  unfold holdOn
  dsimp only
  split
  · exact kept_leaveAt h
  · exact kept_modCluster (kept_charge h)

theorem kept_heldTo {c n : Nat} (h : Kept a s) : Kept a (heldTo c n s) := by
  unfold heldTo
  split
  · exact h
  · dsimp only
    split
    · exact h
    · exact kept_ite (kept_holdOn h) h

theorem kept_wakeCtx {x n : Nat} {resp : Bool} (h : Kept a s) : Kept a (wakeCtx x n resp s) := by
  unfold wakeCtx haltCtx
  exact kept_ite (kept_modCtx (kept_enter (kept_modCtx (kept_heldTo h)))) (kept_modCtx (kept_heldTo h))

theorem kept_deliver {x d ge : Nat} {e : Delivery} (h : Kept a s) : Kept a (deliver x d ge e s) := by
  have ht : Kept a (setT x d e.time s) := kept_modCtx h
  unfold deliver setG
  dsimp only
  split
  · exact kept_ite ht (kept_modCtx ht)
  · exact ht

theorem kept_waitEvent {x n : Nat} {e : Delivery} (h : Kept a s) : Kept a (waitEvent x n e s) := by
  unfold waitEvent
  dsimp only
  split
  · exact kept_wakeCtx (kept_modCtx (kept_deliver h))
  · exact kept_ite (h.elsewhere rfl) (kept_count (.clWovr _ _) (h.elsewhere rfl))

theorem kept_trigBroadcast {n : Nat} {time : W64} {code : BitVec 16} (h : Kept a s) :
    Kept a (trigBroadcast n time code s) := by
  unfold trigBroadcast
  exact forN_keeps h fun c _ u hu => kept_ite hu (forL_keeps hu fun x _ v hv => kept_waitEvent hv)

/-- What has come due by the lane cycle of a tick tells nothing of the frame counter. -/
theorem kept_lcBegins {n : Nat} (h : Kept a s) : Kept a (lcBegins n s) := by
  have hb : Kept a (boundariesDue (n - 1) s) := forL_keeps h fun k _ u hu => kept_boundaryDue hu
  have hc : Kept a (cutsDue (toLc n (boundariesDue (n - 1) s))) :=
    forL_keeps (hb.elsewhere rfl) fun k _ u hu => kept_cutDue hu
  have ht : Kept a (broadcastsDue n (cutsDue (toLc n (boundariesDue (n - 1) s)))) :=
    forL_keeps (hc.elsewhere rfl) fun b _ u hu => kept_trigBroadcast hu
  exact forL_keeps ht fun c _ u hu => kept_heldTo hu

/-! ### Journal, capability and context rows of a tick -/

theorem kept_periodTakes {p : Nat} (h : Kept a s) : Kept a (periodTakes p s) := by
  have hp : Kept a (modFr (fun f => { f with period := p }) s) := kept_modFr h rfl rfl rfl
  unfold periodTakes digestStart
  exact kept_ite (kept_modJr (kept_modCanon hp) fun hn => { hn with }) hp

theorem kept_setZeroed {c : Nat} (h : Kept a s) : Kept a (setZeroed c s) := by
  unfold setZeroed
  refine kept_raise (.clBudStatus _) (forL_keeps (forL_keeps h fun x _ u hu => ?_) fun t _ u hu => kept_faultRec hu)
  exact kept_modJr (kept_modCanon (kept_modCtx hu)) fun hn => { hn with }

theorem kept_periodRow {bad : List Nat} (h : Kept a s) : Kept a (periodRow bad s) := by
  unfold periodRow
  split
  · exact h
  · have hp := kept_setReg .frPchkFail (v := at32 (lsum (bad.map fun c => 2 ^ c)) 0) h
    refine kept_modFr (f := fun f => { f with pend := none, pendBy := false }) (kept_ite ?_ (kept_ite ?_ ?_)) rfl rfl rfl
    · exact kept_raise_frEvents (kept_periodTakes hp)
    · exact kept_raise_frEvents (forL_keeps (kept_periodTakes hp) fun c _ u hu => kept_setZeroed hu)
    · exact kept_raise_frEvents hp

theorem dropLate_of_noRecords (hn : NoRecords s.jr) : dropLate s = modJr (fun j => { j with sched := [] }) s := by
  unfold dropLate
  simp [modJr, hn.sched]

theorem dueRecs_of_noRecords (hn : NoRecords s.jr) : dueRecs s = [] := by
  simp [dueRecs, hn.done, hn.sched, hn.deferred]

theorem takeDue_noRecords (hn : NoRecords s.jr) : NoRecords (takeDue s).jr where
  done := by simp [takeDue, modJr, hn.done]
  sched := by simp [takeDue, modJr, hn.sched]
  deferred := rfl

/-- With no record to apply, the journal's rows come to those of a new period. -/
theorem kept_journalRows (h : Kept a s) (hn : NoRecords s.jr) : Kept a (journalRows s) := by
  have hl : Kept a (dropLate s) := dropLate_of_noRecords hn ▸ kept_modJr h fun hn => ⟨hn.done, rfl, hn.deferred⟩
  have hln : NoRecords (dropLate s).jr := dropLate_of_noRecords hn ▸ ⟨hn.done, rfl, hn.deferred⟩
  have ht : Kept a (takeDue (dropLate s)) := kept_modJr hl fun _ => takeDue_noRecords hln
  unfold journalRows
  simp only [dueRecs_of_noRecords hln, applyAll, forL_nil, ite_self]
  exact kept_periodRow ht

theorem kept_clearWords {t c : Nat} {data : Bool} {r : Nat × Nat} (h : Kept a s) : Kept a (clearWords t c data r s) :=
  (kept_modCanon (kept_modCluster h)).elsewhere rfl

theorem kept_grantsTick (h : Kept a s) : Kept a (grantsTick s) := by
  unfold grantsTick grantTakes grantLeaves
  refine forL_keeps h fun t _ u hu => forL_keeps hu fun p _ v hv => kept_ite ?_ hv
  exact forL_keeps (kept_modTenant hv) fun r _ w hw => kept_clearWords hw

theorem kept_ctxEntrySet {x : Nat} {v : W32 × W32 × W32} (h : Kept a s) : Kept a (ctxEntrySet x v s) := by
  have hs : Kept a (stopNow x s) := kept_modCtx (kept_enter h)
  unfold ctxEntrySet resetReg
  refine kept_ite (kept_setReg (.ctxExh _) (kept_modCtx (kept_modCluster ?_))) ?_
  · exact kept_modCtx (kept_ite h hs)
  · exact kept_modCtx (kept_ite h hs)

theorem kept_rightsTick (h : Kept a s) : Kept a (rightsTick s) := by
  unfold rightsTick
  refine forL_keeps h fun x _ u hu => kept_ite hu ?_
  have hk : Kept a (if (ctx u x).keep.isSome then modCtx x (fun u => { u with keep := none }) u else u) :=
    kept_ite (kept_modCtx hu) hu
  dsimp only
  split
  · exact kept_ctxEntrySet hk
  · exact hk

/-! ### Budgets and contexts -/

theorem kept_systemCount {p c : Nat} (h : Kept a s) : Kept a (systemCount p c s) :=
  kept_modCluster (kept_rcUpdate (.clBudSysMin _) (kept_setReg (.clBudSysLast _) (h.elsewhere rfl)))

theorem kept_reloadCluster {c : Nat} (h : Kept a s) : Kept a (reloadCluster c s) :=
  kept_modCluster (forL_keeps h fun _ _ _ hu => kept_modCtx hu)

theorem kept_startTick {x : Nat} (h : Kept a s) : Kept a (startTick x s) := by
  unfold startTick
  exact kept_ite (kept_modCtx h) h

/-! ### Timebase and synthesizer -/

theorem kept_flushEdges {staged : Bool} {k : Nat} (h : Kept a s) : Kept a (flushEdges staged k s) := by
  unfold flushEdges
  exact kept_ite (h.elsewhere rfl) (kept_countN .tbFlushEdge (h.elsewhere rfl))

theorem kept_liftGating {u : Ungate} (h : Kept a s) : Kept a (liftGating u s) := by
  refine kept_setRfld .tbCtrl (kept_modTb (forL_keeps h fun k _ v hv => ?_) rfl)
  exact kept_flushEdges (hv.elsewhere rfl)

theorem kept_ungateTick (h : Kept a s) : Kept a (ungateTick s) := by
  unfold ungateTick
  refine kept_ite (forL_keeps (kept_modTb (kept_ite h (kept_modTb h rfl)) rfl) fun u _ v hv => ?_) h
  exact kept_liftGating hv

theorem kept_warmTick (h : Kept a s) : Kept a (warmTick s) := by
  unfold warmTick
  have hm : Kept a (modTb (fun t => { t with
      warm := warmSelected s, prevWarm := t.frameWarm, frameWarm := warmSelected s }) s) := kept_modTb h rfl
  have hf := kept_ite (c := warmSelected s = true) hm (kept_frameFlag (b := flagCold) hm)
  exact kept_ite hf (kept_ite (kept_logOnly (kept_raise .tbEvents hf)) (kept_raise .tbEvents hf))

theorem kept_slewTick (h : Kept a s) : Kept a (slewTick s) := by
  unfold slewTick
  exact kept_ite h (kept_setReg .tbFofsNow h)

theorem kept_ckosTick (h : Kept a s) : Kept a (ckosTick s) := by
  refine forL_keeps h fun n _ u hu => ?_
  unfold ckoTick
  exact kept_ite (kept_ite (hu.elsewhere rfl) (kept_raise .asEvents (hu.elsewhere rfl))) hu

/-! ### Lanes -/

theorem kept_lnCfgTick {k : Nat} (h : Kept a s) : Kept a (lnCfgTick k s) := by
  unfold lnCfgTick
  exact kept_ite (h.elsewhere rfl) h

theorem kept_saveLnCal {k : Nat} (h : Kept a s) : Kept a (saveLnCal k s) := kept_sysRecord (kept_setPulse h)

theorem kept_swapLnCal {k : Nat} (h : Kept a s) : Kept a (swapLnCal k s) := by
  unfold swapLnCal
  exact kept_ite (kept_when kept_saveLnCal (kept_raise (.lnEvents _) (kept_setPulse h))) h

theorem kept_pulseTick {k : Nat} (h : Kept a s) : Kept a (pulseTick k s) :=
  kept_swapLnCal (kept_lnCfgTick (kept_modPulse h))

theorem kept_decodesBefore {k n : Nat} (h : Kept a s) : Kept a (decodesBefore k n s) := by
  have ht : Kept a (tapDue k (n - 1) s) := by
    unfold tapDue tapCandidate
    exact kept_ite h (forL_keeps (h.elsewhere rfl) fun c _ u hu => kept_modMeas hu)
  unfold decodesBefore
  exact kept_ite ht (kept_modStamp ht)

theorem kept_latchTick {k : Nat} (h : Kept a s) : Kept a (latchTick k s) := kept_setReg (.slLatch _) (kept_modStamp h)

theorem kept_thrTick {k : Nat} (h : Kept a s) : Kept a (thrTick k s) := by
  unfold thrTick applyThr
  dsimp only
  split
  · refine kept_ite ?_ (h.elsewhere rfl)
    split
    · exact kept_raise (.slEvents _) (h.elsewhere rfl)
    · exact h
  · exact h

theorem kept_loseN {m n : Nat} (h : Kept a s) : Kept a (loseN m n s) := by
  unfold loseN
  exact kept_ite h (kept_countN (.spSLoss _) (h.elsewhere rfl))

theorem kept_hitLost {k : Nat} (h : Kept a s) : Kept a (hitLost k s) := by
  unfold hitLost loseHome
  refine kept_ite h ?_
  split
  · split
    · exact kept_loseN h
    · exact h
  · exact h

theorem kept_enqueueHit {k x : Nat} {q : Hit} (h : Kept a s) : Kept a (enqueueHit k x q s) := by
  unfold enqueueHit
  refine kept_ite (kept_when kept_produce (kept_setStamp h)) (kept_hitLost ?_)
  exact kept_raise (.slEvents _) (kept_count (.slQlossCnt _) h)

theorem kept_pairFails {k : Nat} (h : Kept a s) : Kept a (pairFails k s) := by
  unfold pairFails unmeasured
  split
  · exact kept_enqueueHit (kept_raise (.slEvents _) (kept_count (.slToterrCnt _) (kept_modStamp h)))
  · exact h

theorem kept_slCfgTick {k : Nat} (h : Kept a s) : Kept a (slCfgTick k s).2 := by
  unfold slCfgTick
  dsimp only
  split
  · exact kept_setStamp (kept_ite (kept_pairFails h) h)
  · exact h

theorem kept_slTick2 {k : Nat} (h : Kept a s) : Kept a (slTick2 k s).2 := kept_setStamp h

theorem kept_saveSlCal {k : Nat} (h : Kept a s) : Kept a (saveSlCal k s) := kept_sysRecord (kept_setStamp h)

theorem kept_swapSlCal {k : Nat} (h : Kept a s) : Kept a (swapSlCal k s) := by
  unfold swapSlCal
  exact kept_ite (kept_when kept_saveSlCal (kept_when kept_modPulse (kept_raise (.slEvents _) (kept_setStamp h)))) h

theorem kept_closeWindow {k t : Nat} (h : Kept a s) : Kept a (closeWindow k t s) := by
  unfold closeWindow openWindow
  exact kept_ite (kept_modStamp (kept_modStamp h)) (kept_modStamp h)

theorem kept_stampTick {k : Nat} (h : Kept a s) : Kept a (stampTick k s).2 := by
  have ht : Kept a (thrTick k (latchTick k (decodesBefore k (lc s) s))) :=
    kept_thrTick (kept_latchTick (kept_decodesBefore h))
  have hw := kept_swapSlCal (k := k) (kept_slTick2 (k := k) (kept_slCfgTick (k := k) ht))
  unfold stampTick
  dsimp only
  exact kept_ite (kept_closeWindow hw) hw

theorem kept_gateStart {k : Nat} {slew : Bool} (h : Kept a s) : Kept a (gateStart k slew s) := kept_modMeas h

theorem kept_afterClose {k : Nat} {slew : Bool} (h : Kept a s) : Kept a (afterClose k slew s) := by
  unfold afterClose
  refine kept_ite h (kept_ite (kept_ite (kept_gateStart h) (kept_raise (.rgLevents _) (h.elsewhere rfl))) ?_)
  exact kept_ite (kept_gateStart (h.elsewhere rfl)) (h.elsewhere rfl)

theorem kept_rgTick {k : Nat} {restart epoch slew : Bool} (h : Kept a s) : Kept a (rgTick k restart epoch slew s) := by
  unfold rgTick
  dsimp only
  split
  · refine kept_ite (kept_afterClose (kept_modMeas h)) (kept_ite ?_ (h.elsewhere rfl))
    exact kept_raise (.rgLevents _) (kept_modMeas (kept_gateStart h))
  · exact kept_ite (kept_gateStart h) h
  · exact h

theorem kept_stampLaneTick {epoch slew : Bool} {k : Nat} (h : Kept a s) : Kept a (stampLaneTick epoch slew k s) := by
  unfold stampLaneTick
  exact kept_rgTick (kept_stampTick h)

theorem kept_calTurn (h : Kept a s) : Kept a (calTurn s) := by
  unfold calTurn
  exact kept_ite h (forN_keeps h fun c _ u hu => kept_modPulse hu)

/-! ### Keeper, ADC, digest, links, Separator, removals and the checks of a start -/

theorem kept_keeperTick (h : Kept a s) : Kept a (keeperTick s) :=
  forN_keeps h fun _ _ _ hu => kept_ite (kept_setRfld (.byKcLatch _) hu) hu

theorem kept_adcTick (h : Kept a s) : Kept a (adcTick s) := h.elsewhere rfl

theorem kept_digestTick (h : Kept a s) : Kept a (digestTick s) := by
  unfold digestTick
  split
  · exact kept_ite (kept_raise .jrEvents (kept_modJr h fun hn => { hn with })) h
  · exact h

theorem kept_ttcChange {f : State → State} (h : Kept a (f s)) : Kept a (ttcChange f s) := by
  unfold ttcChange
  exact kept_ite (kept_raise .ptTtcEvents (kept_noLink h)) h

theorem kept_ttcTick (h : Kept a s) : Kept a (ttcTick s) := by
  have hc (f : Ttc → Ttc) : Kept a (ttcChange (modTtc f) s) := kept_ttcChange (h.elsewhere rfl)
  unfold ttcTick
  exact kept_ite (hc _) (kept_noLink (hc _))

theorem kept_relockTick (h : Kept a s) : Kept a (relockTick s) :=
  forL_keeps (h.elsewhere rfl) fun _ _ _ hu => kept_modStream hu

theorem kept_rekeyTick (h : Kept a s) : Kept a (rekeyTick s) := by
  unfold rekeyTick dropCopies
  refine forL_keeps (forL_keeps (h.elsewhere rfl) fun m _ u hu => ?_) fun m _ u hu => kept_modStream hu
  exact kept_ite (kept_modStream hu) hu

theorem kept_failTick (h : Kept a s) : Kept a (failTick s) := forL_keeps (h.elsewhere rfl) fun _ _ _ hu => kept_modTenant hu

theorem kept_makeRoom {m n : Nat} : ∀ {f : Nat} {s : State}, Kept a s → Kept a (makeRoom m n f s)
  | 0, _, h => h
  | _ + 1, _, h => kept_ite h (kept_makeRoom (kept_modStream h))

theorem kept_placeIn {m : Nat} {r : SpRec} (h : Kept a s) : Kept a (placeIn m r s) := by
  unfold placeIn
  exact kept_ite (kept_modStream (kept_makeRoom h)) (kept_loseN (kept_makeRoom h))

theorem kept_writeTrigs (h : Kept a s) : Kept a (writeTrigs s) := by
  unfold writeTrigs writeTrig
  refine forL_keeps (h.elsewhere rfl) fun g _ u hu => ?_
  split
  · refine forL_keeps hu fun t _ v hv => ?_
    split
    · exact kept_placeIn hv
    · exact kept_count .spNostrCnt hv
  · exact hu

theorem kept_xoffs (h : Kept a s) : Kept a (xoffs s) := h.elsewhere rfl

theorem kept_openNew (h : Kept a s) : Kept a (openNew s) := by
  unfold openNew
  exact kept_xoffs (kept_writeTrigs (h.elsewhere rfl))

theorem kept_emptyLeaving {t : Nat} (h : Kept a s) : Kept a (emptyLeaving t s) := by
  unfold emptyLeaving
  exact forL_keeps h fun m _ u hu => kept_ite (kept_setRfld (.spSCfg _) (hu.elsewhere rfl)) hu

theorem kept_finishRemovals (h : Kept a s) : Kept a (finishRemovals s) := by
  unfold finishRemovals
  refine forL_keeps h fun t _ u hu => ?_
  dsimp only
  split
  · exact hu
  · have he {c : Prop} [Decidable c] : Kept a (if c then u else emptyLeaving t u) := kept_unless kept_emptyLeaving hu
    exact kept_ite (kept_raise .tnEvents (kept_modTenant he)) he

theorem kept_stepDone {n : Nat} (h : Kept a s) : Kept a (stepDone n s) := h.elsewhere rfl

theorem kept_beginChecks (h : Kept a s) : Kept a (beginChecks s) := by
  unfold beginChecks
  have hr : Kept a (setReg .stAst 0 { modBy (fun b => { b with checks := true }) s with
      st := { s.st with astTodo := [0, 1, 2, 3, 4, 5], astSrc := 1, astLog := [] } }) := kept_setReg .stAst (h.elsewhere rfl)
  exact kept_ite (hr.elsewhere rfl) (forL_keeps hr fun k _ u hu => kept_modPulse (kept_modStamp hu))

theorem kept_checkSteps (h : Kept a s) : Kept a (checkSteps s) := by
  unfold checkSteps
  have hb {c d : Prop} [Decidable c] [Decidable d] :
      Kept a (if c then beginChecks (if d then stepDone 3 s else s) else if d then stepDone 3 s else s) :=
    kept_when kept_beginChecks (kept_when kept_stepDone h)
  exact kept_ite hb (kept_when kept_stepDone (kept_when kept_stepDone (kept_when kept_stepDone hb)))

/-- The rows of Table 3-2 after the first. -/
theorem kept_tickRows {kind : TickKind} {epoch : Bool} {p : Nat} (h : Kept a s) (hn : NoRecords s.jr) :
    Kept a (tickRows kind epoch p s) := by
  have hg := kept_grantsTick (kept_rightsTick (kept_journalRows h hn))
  unfold tickRows
  refine kept_checkSteps (kept_produce (kept_finishRemovals (forL_keeps ?_ fun c _ u hu =>
    forL_keeps hu fun x _ v hv => kept_startTick hv)))
  refine kept_openNew (kept_rekeyTick (kept_failTick (kept_when kept_relockTick (kept_ttcTick (kept_digestTick ?_)))))
  refine kept_unless kept_frameFlag (kept_keeperTick (kept_adcTick (kept_calTurn (forL_keeps (forL_keeps (kept_ckosTick ?_)
    fun k _ u hu => kept_pulseTick hu) fun k _ u hu => kept_stampLaneTick hu))))
  refine kept_ungateTick (kept_warmTick (kept_slewTick (forL_keeps (kept_ite ?_ ?_) fun c _ u hu => kept_reloadCluster hu)))
  · exact forL_keeps hg fun c _ u hu => kept_modCluster hu
  · exact forL_keeps hg fun c _ u hu => kept_systemCount hu

end

end Sys2Proof.Proofs
end

section
/-! PROOFS. Chapter 4: the carry of the frame counter (R82, R84). -/
namespace Sys2Proof.Proofs

open Sys2Proof.Machine Sys2Proof.Safety Sys2Proof.Laws

/-! ### Before and after the carry -/

/-- Time runs, no time set and no record waits, and the frame counter, the epoch and the count of discontinuities are n, e
and d. -/
structure Stands (n : Nat) (e d : W32) (s : State) : Prop where
  count : s.fr.count = n
  running : s.fr.running = true
  tset : s.tb.tset = false
  noRecords : NoRecords s.jr
  epoch : reg s .tbEpoch = e
  disc : reg s .tbDisc = d

theorem Stands.kept {n : Nat} {e d : W32} {a s : State} (h : Stands n e d a) (k : Kept a s) : Stands n e d s :=
  ⟨k.count.trans h.count, k.running.trans h.running, k.tset.trans h.tset, k.noRecords h.noRecords, k.epoch.trans h.epoch,
    k.disc.trans h.disc⟩

/-- The counter has carried into epoch e, and the frame that begins and FR_EVENTS say so. -/
structure Carried (e d : W32) (s : State) : Prop where
  stands : Stands 0 e d s
  wraps : Wraps s.fr.flags
  event : rbit s .frEvents 2 = true

theorem Carried.kept {e d : W32} {a s : State} (h : Carried e d a) (k : Kept a s) : Carried e d s :=
  ⟨h.stands.kept k, k.wraps h.wraps, beq_iff_eq.mpr (k.event (beq_iff_eq.mp h.event))⟩

/-- The epoch increments; where it wraps to 0, flags say so. -/
theorem stands_bumpEpoch {n : Nat} {e d : W32} {s : State} (h : Stands n e d s) : Stands n (e + 1) d (bumpEpoch s) := by
  let u := sysRecord 0x0101 [(reg s .tbEpoch + 1).setWidth 64]
    (setReg .tbEpoch (reg s .tbEpoch + 1) (modTb (fun t => { t with lastEpoch := some (reg s .tbEpoch + 1) }) s))
  have hu : Stands n (e + 1) d u :=
    { h with
      noRecords := { h.noRecords with }
      epoch := (reg_setReg _ .tbEpoch _).trans (congrArg (· + 1) h.epoch)
      disc := (reg_setReg_ne (q := .tbDisc) _ _ (by decide)).trans h.disc }
  exact hu.kept (kept_when (fun hv => kept_raise_frEvents (kept_flags hv)) (kept_refl u))

theorem carried_countUp {e d : W32} {s : State} (h : Stands (2 ^ 48 - 1) e d s) : Carried (e + 1) d (countUp s) := by
  have hb : Stands 0 (e + 1) d (bumpEpoch (modFr (fun f => { f with count := 0 }) s)) :=
    stands_bumpEpoch { h with count := rfl }
  unfold countUp
  rw [if_neg (by rw [h.count]; decide)]
  exact ⟨hb.kept (kept_frameFlag (kept_raise_frEvents (kept_refl _))), wraps_or_flagWrap _,
    rbit_raise .frEvents (by decide) _⟩

/-! ### The first row of a tick -/

theorem generator_period {n : Nat} {s : State} (h : s.tb.tset = false) : generator .period n s = countUp s :=
  if_neg (by simp [h])

/-- The tick after a lock with time running and no time set counts as well. -/
theorem generator_lock {n : Nat} {s : State} (hr : s.fr.running = true) (ht : s.tb.tset = false)
    (hc : (countUp (modTb (fun t => { t with tickPending := false }) s)).tb.tset = false) :
    generator .lock n s = countUp (modTb (fun t => { t with tickPending := false }) s) := by
  unfold generator
  simp [hr, ht, hc]

theorem carried_generator {kind : TickKind} (hk : kind ≠ .sync) {n : Nat} {e d : W32} {s : State}
    (h : Stands (2 ^ 48 - 1) e d s) : Carried (e + 1) d (generator kind n s) := by
  cases kind with
  | period => rw [generator_period h.tset]; exact carried_countUp h
  | lock =>
    have hc : Carried (e + 1) d (countUp (modTb (fun t => { t with tickPending := false }) s)) := carried_countUp { h with }
    rw [generator_lock h.running h.tset hc.stands.tset]
    exact hc
  | sync => exact absurd rfl hk

theorem kept_timeWrap {n : Nat} {a s : State} (h : Kept a s) : Kept a (timeWrap n s).2 := by
  unfold timeWrap
  dsimp only
  split
  · exact kept_raise_frEvents h
  · split
    · exact kept_raise_frEvents (kept_frameFlag h)
    · exact h

theorem kept_closeFrame {n : Nat} {a s : State} (h : Kept a s) : Kept a (closeFrame n s) := h.elsewhere rfl

theorem kept_wrapAtLock {n : Nat} {a s : State} (h : Kept a s) : Kept a (wrapAtLock n s) :=
  kept_when (fun hu => kept_raise_frEvents (kept_frameFlag hu)) h

theorem stands_freshFlags {kind : TickKind} {n : Nat} {e d : W32} {s : State} (h : Stands n e d s) :
    Stands n e d (freshFlags kind s) := { h with }

/-- At the first row of Table 3-2 the counter carries. -/
theorem carried_tickRow1 {kind : TickKind} (hk : kind ≠ .sync) {n : Nat} {e d : W32} {s : State}
    (h : Stands (2 ^ 48 - 1) e d s) : Carried (e + 1) d (tickRow1 kind n s) := by
  cases kind with
  | period =>
    have hopens : Stands (2 ^ 48 - 1) e d (freshFlags .period (closeFrame n (timeWrap n s).2)) :=
      stands_freshFlags (h.kept (kept_closeFrame (kept_timeWrap (kept_refl s))))
    exact (carried_generator hk hopens).kept (kept_modFr (kept_when kept_frameFlag (kept_refl _)) rfl rfl rfl)
  | lock =>
    have hopens : Stands (2 ^ 48 - 1) e d (freshFlags .lock (wrapAtLock n s)) :=
      stands_freshFlags (h.kept (kept_wrapAtLock (kept_refl s)))
    exact (carried_generator hk hopens).kept (kept_modFr (kept_when kept_frameFlag (kept_refl _)) rfl rfl rfl)
  | sync => exact absurd rfl hk

/-! ### The tick -/

theorem carried_tickAt {kind : TickKind} (hk : kind ≠ .sync) {n : Nat} {e d : W32} {s : State}
    (h : Stands (2 ^ 48 - 1) e d s) : Carried (e + 1) d (tickAt kind n s) := by
  have h1 : Carried (e + 1) d (tickRow1 kind n (lcBegins n s)) := carried_tickRow1 hk (h.kept (kept_lcBegins (kept_refl s)))
  exact h1.kept (kept_tickRows (kept_refl _) h1.stands.noRecords)

/-- With time running and no t_F and no SYNC in its place, a FRAME_TICK is a tick after a lock or of the period. -/
theorem frameTick_ticks {s : State} (hr : s.fr.running = true)
    (h : s.tb.tickPending = true ∨ (s.tb.ts ≠ .holdover ∧ syncFirst s = false)) :
    ∃ kind n, kind ≠ TickKind.sync ∧ frameTick s = tickAt kind n s := by
  unfold frameTick
  by_cases hp : s.tb.tickPending = true
  · exact ⟨.lock, _, nofun, if_pos hp⟩
  · obtain ⟨hts, hsync⟩ := h.resolve_left hp
    exact ⟨.period, nextTick s, nofun, by simp [hp, hr, hts, hsync]⟩

/-- Settles O55: what is due before the tick keeps the counter at its last value, the first row carries, and no later row
undoes it. -/
theorem frameCounterCarries : Obligations.FrameCounterCarries := by
  intro s hs hr ht hc hk hd hsched hdef
  obtain ⟨kind, n, hkind, htick⟩ := frameTick_ticks hr hk
  have hbefore : Stands (2 ^ 48 - 1) (reg s .tbEpoch) (reg s .tbDisc) s := ⟨hc, hr, ht, ⟨hd, hsched, hdef⟩, rfl, rfl⟩
  obtain ⟨hstands, hwraps, hevent⟩ := carried_tickAt (n := n) hkind hbefore
  refine ⟨tickAt kind n s, ?_, hstands.count, hstands.epoch, hwraps, hevent, hstands.disc⟩
  exact congrArg Host.Outcome.next ((when_of hs ..).trans htick)

end Sys2Proof.Proofs
end

section
/-! PROOFS. Chapter 6, first part: the answer of a write that reports its refusal by an event bit, and the rights and the rules
of RG_CTRL (R15, R186, R547). -/
namespace Sys2Proof.Proofs

open Sys2Proof.Machine Sys2Proof.Safety Sys2Proof.Laws

/-! ### One bit of a register -/

theorem rbit_eq_getLsbD (s : State) (r : Reg) (b : Nat) : rbit s r b = (reg s r).getLsbD b := by
  unfold rbit rfld fld
  rw [BitVec.getLsbD, Nat.testBit_eq_decide_div_mod_eq]
  exact Bool.beq_eq_decide_eq ..

/-- A bit that is written reads as written. -/
theorem rbit_setRfld (r : Reg) {b : Nat} (hb : b < 32) (v : Bool) (s : State) :
    rbit (setRfld r b 1 (b2n v) s) r b = v := by
  rw [rbit_eq_getLsbD, reg_setRfld]
  unfold setFld
  rw [BitVec.getLsbD_or, BitVec.getLsbD_and, BitVec.getLsbD_not, BitVec.getLsbD_ofNat, BitVec.getLsbD_ofNat]
  cases v <;> simp [b2n, hb]

theorem setRfld_regsBut (r : Reg) (lo n v : Nat) (s : State) : RegsBut [regAddr r] s (setRfld r lo n v s) :=
  setReg_regsBut r _ s

/-- A flag raised once more leaves the flags of its register that are set. -/
theorem rbit_raise_of_rbit {r : Reg} {c : Nat} (b : Nat) {s : State} (h : rbit s r c = true) :
    rbit (raise r b s) r c = true := by
  rw [rbit_eq_getLsbD] at h ⊢
  rw [reg_raise, BitVec.getLsbD_or, h, Bool.true_or]

theorem rbit_raise_ne {q r : Reg} (h : regAddr q ≠ regAddr r) (b c : Nat) (s : State) :
    rbit (raise r b s) q c = rbit s q c := by
  unfold rbit rfld; rw [reg_raise_ne s b h]

/-- One more register written, of those that may be, leaves the same registers alone. -/
theorem regsBut_then {as : List Nat} {a : Nat} {s t u : State} (h : RegsBut as s t) (hu : RegsBut [a] t u) (ha : a ∈ as) :
    RegsBut as s u := fun x hx d =>
  (hu x (by simp only [List.mem_singleton]; rintro rfl; exact hx ha) d).trans (h x hx d)

/-! ### A refusal that an event bit reports -/

/-- A unit that reports its refusal by one event bit runs with that bit at 0; a bit that was set is set again. -/
theorem refusing_single (r : Reg) (b : Nat) (f : State → State) (s : State) :
    refusing [(r, b)] f s =
      (rbit (f (setRfld r b 1 0 s)) r b,
        if rbit s r b then setRfld r b 1 1 (f (setRfld r b 1 0 s)) else f (setRfld r b 1 0 s)) := by
  unfold refusing
  cases h : rbit s r b <;> simp [h]

/-- Setting a flag again leaves one that is set. -/
theorem rbit_setAgain {c : Bool} {r : Reg} {b : Nat} (hb : b < 32) {s : State} (h : rbit s r b = true) :
    rbit (if c then setRfld r b 1 1 s else s) r b = true := by
  cases c
  · exact h
  · exact rbit_setRfld r hb true s

/-! ### The rows that write RG_CTRL -/

theorem regOfAddr_rgCtrl : ∀ k < 256, regAddr (.rgCtrl k) % 4 = 0 ∧ regOfAddr (regAddr (.rgCtrl k)) = some (.rgCtrl k) := by
  decide +kernel

theorem writerActive_of_stampRights {s : State} {who : Who} {k : Nat} (h : StampRights s who k = true) :
    writerActive s who.tenant = true := by
  unfold StampRights at h
  unfold writerActive
  obtain h0 | ⟨hact, -⟩ := by simpa only [Bool.or_eq_true, Bool.and_eq_true] using h
  · rw [h0, Bool.true_or]
  · rw [hact, Bool.or_true]

theorem mayWrite_rgCtrl {s : State} {who : Who} {k : Nat} (h : StampRights s who k = true) (v : W32) :
    mayWrite s who.tenant (.rgCtrl k) v = true := by
  unfold StampRights at h
  unfold mayWrite tenantWrites
  obtain h0 | ⟨-, hown⟩ := by simpa only [Bool.or_eq_true, Bool.and_eq_true] using h
  · rw [h0, Bool.true_or]
  · exact Bool.or_eq_true_iff.mpr (.inr hown)

/-- The registers of the stamp lanes lie outside the clusters, so that a write of RG_CTRL acts at once. -/
theorem writeDirect_rgCtrl {k : Nat} (hk : k < 256) (t : Nat) (v : W32) (s : State) :
    writeDirect t (.rgCtrl k) v s = writeActs t (.rgCtrl k) v s := by
  have hout : clusterAt (regAddr (.rgCtrl k)) = none := if_neg (by simp only [regAddr]; omega)
  unfold writeDirect
  rw [hout]
  rfl

/-- A write of RG_CTRL by the owner of the lane or the steward: the unit's answer and effect, and no record of it. -/
theorem writeReg_rgCtrl {s : State} {who : Who} {k : Nat} (hk : k < 256) (h : StampRights s who k = true) (v : W32) :
    writeReg who.tenant none (.rgCtrl k) v s =
      ((writeActs who.tenant (.rgCtrl k) v s).1, [], (writeActs who.tenant (.rgCtrl k) v s).2) := by
  have hw : writable s who.tenant (.rgCtrl k) v = v := by unfold writable; split <;> rfl
  have hrec : isRecord (.rgCtrl k) = false := rfl
  have hpart : stewardPart (.rgCtrl k) = 0 := rfl
  have hreplay (t : Nat) (u : State) : replayRecord t (.rgCtrl k) v u = u := if_pos rfl
  unfold writeReg
  simp [mayWrite_rgCtrl h, hw, hrec, hpart, hreplay, writeDirect_rgCtrl hk]

/-- The rows START and STOP of RG_CTRL, by the owner of the lane or the steward. -/
theorem writing_rgCtrl {s : State} {who : Who} {k : Nat} (hs : s.released = true) (hk : k < 256)
    (h : StampRights s who k = true) (v : W32) :
    writing who (.rgCtrl k) (fun _ => v) s =
      { (writeActs who.tenant (.rgCtrl k) v s).2 with busStatus := (writeActs who.tenant (.rgCtrl k) v s).1 } := by
  obtain ⟨h4, hr⟩ := regOfAddr_rgCtrl k hk
  refine (when_of hs ..).trans ?_
  unfold writeRow
  simp only [writerActive_of_stampRights h, if_true, regWrite_reg h4 hr, writeReg_rgCtrl hk h]

end Sys2Proof.Proofs
end

section
/-! PROOFS. Chapter 6, second part: START and STOP, the slots of the engine, and the result of a closed gate (R170-R186,
R279). -/
namespace Sys2Proof.Proofs

open Sys2Proof.Machine Sys2Proof.Safety Sys2Proof.Laws

section

variable {s t : State} {k : Nat}

/-! ### Changes of one measurement -/

theorem modMeas_eq (k : Nat) (f : Measure → Measure) (s : State) :
    modMeas k f s = { s with rg := (modMeas k f s).rg } := rfl

theorem measBut_modMeas (k : Nat) (f : Measure → Measure) (s : State) : MeasBut [k] s (modMeas k f s) :=
  fun _ hj => meas_modMeas_ne s f (by simpa using hj)

theorem measBut_trans {ks : List Nat} {u : State} (h : MeasBut ks s t) (hu : MeasBut ks t u) : MeasBut ks s u :=
  fun j hj => (hu j hj).trans (h j hj)

/-! ### START (R174, R177) -/

/-- Whether a START is refused does not depend on the event bit that reports it. -/
theorem rgRefuses_setRfld_rgLevents (b v : Nat) (s : State) (k : Nat) :
    rgRefuses (setRfld (.rgLevents k) b 1 v s) k = rgRefuses s k := by
  have hcfg : reg (setRfld (.rgLevents k) b 1 v s) (.rgCfg k) = reg s (.rgCfg k) :=
    reg_setReg_ne s _ (by simp only [regAddr]; omega)
  have hgate : reg (setRfld (.rgLevents k) b 1 v s) (.rgGate k) = reg s (.rgGate k) :=
    reg_setReg_ne s _ (by simp only [regAddr]; omega)
  unfold rgRefuses continuousOk rfld
  rw [hcfg, hgate]
  rfl

theorem rgStart_refused (h : rgRefuses s k = true) : rgStart k s = raise (.rgLevents k) 2 s := if_pos h

/-- A START that is taken waits for the tick or for an event. -/
theorem meas_rgStart_taken (h : rgRefuses s k = false) :
    (meas (rgStart k s) k).state = (if rfld s (.rgCfg k) 12 2 = 1 then .waitEvent else .waitTick) ∧
      (meas (rgStart k s) k).mode = rfld s (.rgCfg k) 12 2 := by
  unfold rgStart
  rw [if_neg (by simp [h])]
  exact ⟨by rw [meas_modMeas], by rw [meas_modMeas]⟩

/-- Nothing has changed but the measurement of lane k, its RG_LEVENTS and the notes of the lane cycle. -/
structure LaneAlone (k : Nat) (s t : State) : Prop where
  others : MeasBut [k] s t
  regs : RegsBut [regAddr (.rgLevents k)] s t
  frame : t = { s with rg := t.rg, regs := t.regs, acc := t.acc }

theorem LaneAlone.trans {u : State} (h : LaneAlone k s t) (hu : LaneAlone k t u) : LaneAlone k s u where
  others := measBut_trans h.others hu.others
  regs := regsBut_then h.regs hu.regs (List.mem_singleton_self _)
  frame := hu.frame.trans (congrArg (fun v : State => { v with rg := u.rg, regs := u.regs, acc := u.acc }) h.frame)

theorem laneAlone_refl (k : Nat) (s : State) : LaneAlone k s s := ⟨fun _ _ => rfl, fun _ _ _ => rfl, rfl⟩

theorem laneAlone_setRfld (k lo n v : Nat) (s : State) : LaneAlone k s (setRfld (.rgLevents k) lo n v s) :=
  ⟨fun _ _ => rfl, setRfld_regsBut _ lo n v s, rfl⟩

theorem laneAlone_raise (k b : Nat) (s : State) : LaneAlone k s (raise (.rgLevents k) b s) :=
  ⟨fun _ _ => rfl, raise_regsBut _ b s, rfl⟩

theorem laneAlone_rgStart (k : Nat) (s : State) : LaneAlone k s (rgStart k s) := by
  unfold rgStart
  split
  · exact laneAlone_raise k 2 s
  · exact ⟨measBut_modMeas k _ s, fun _ _ _ => rfl, rfl⟩

theorem laneAlone_refusing_rgStart (k : Nat) (s : State) :
    LaneAlone k s (refusing [(.rgLevents k, 2)] (rgStart k) s).2 := by
  rw [refusing_single]
  refine ((laneAlone_setRfld k 2 1 0 s).trans (laneAlone_rgStart k _)).trans ?_
  dsimp only
  split
  · exact laneAlone_setRfld ..
  · exact laneAlone_refl ..

theorem rgCtrlApply_start (k : Nat) : rgCtrlApply k 0x01 = rgStart k := by
  funext s
  unfold rgCtrlApply
  rw [if_neg (by decide), if_pos (by decide)]

theorem writeActs_rgStart (h : held s (stampCl k) = none) (t : Nat) :
    writeActs t (.rgCtrl k) 0x01 s =
      (if (refusing [(.rgLevents k, 2)] (rgStart k) s).1 then 0x0A else 0,
        (refusing [(.rgLevents k, 2)] (rgStart k) s).2) := by
  have hheld : heldRefusal s (.rgCtrl k) 0x01 = none := h
  unfold writeActs
  rw [hheld, ← rgCtrlApply_start]
  rfl

/-- A START is answered by whether it is refused. -/
theorem refusing_rgStart_answer (k : Nat) (s : State) :
    (refusing [(.rgLevents k, 2)] (rgStart k) s).1 = rgRefuses s k := by
  have href := rgRefuses_setRfld_rgLevents 2 0 s k
  rw [refusing_single]
  dsimp only
  cases h : rgRefuses s k
  · unfold rgStart
    rw [if_neg (by simp [href, h])]
    exact rbit_setRfld (.rgLevents k) (b := 2) (by decide) false s
  · rw [rgStart_refused (href.trans h)]
    exact rbit_raise _ (by decide) _

theorem refusing_rgStart_rg (k : Nat) (s : State) :
    (refusing [(.rgLevents k, 2)] (rgStart k) s).2.rg = (rgStart k (setRfld (.rgLevents k) 2 1 0 s)).rg := by
  rw [refusing_single]
  cases rbit s (.rgLevents k) 2 <;> rfl

theorem refusing_rgStart_refused (h : rgRefuses s k = true) :
    (refusing [(.rgLevents k, 2)] (rgStart k) s).2.rg = s.rg ∧
      rbit (refusing [(.rgLevents k, 2)] (rgStart k) s).2 (.rgLevents k) 2 = true := by
  have hstart := rgStart_refused ((rgRefuses_setRfld_rgLevents 2 0 s k).trans h)
  constructor
  · rw [refusing_rgStart_rg, hstart]; rfl
  · rw [refusing_single, hstart]
    exact rbit_setAgain (by decide) (rbit_raise _ (by decide) _)

theorem refusing_rgStart_taken (h : rgRefuses s k = false) :
    let t := (refusing [(.rgLevents k, 2)] (rgStart k) s).2
    (meas t k).state = (if rfld s (.rgCfg k) 12 2 = 1 then .waitEvent else .waitTick) ∧
      (meas t k).mode = rfld s (.rgCfg k) 12 2 := by
  have hcfg : rfld (setRfld (.rgLevents k) 2 1 0 s) (.rgCfg k) 12 2 = rfld s (.rgCfg k) 12 2 :=
    congrArg (fld · 12 2) (reg_setReg_ne s _ (by simp only [regAddr]; omega))
  have hmeas : meas (refusing [(.rgLevents k, 2)] (rgStart k) s).2 k =
      meas (rgStart k (setRfld (.rgLevents k) 2 1 0 s)) k := congrArg (tget Measure.reset k) (refusing_rgStart_rg k s)
  dsimp only
  rw [hmeas, ← hcfg]
  exact meas_rgStart_taken ((rgRefuses_setRfld_rgLevents 2 0 s k).trans h)

/-! ### STOP (R176, R279) -/

theorem flagsNow_setZ (x : Nat) (z : Bool) (s : State) : (flagsNow (setZ x z s) x).z = z := by
  unfold flagsNow setZ setFlags
  rw [ctx_modCtx]

/-- What a STOP by a write makes of the measurement of its lane. -/
def stopNoted (k : Nat) (s : State) : State := modMeas k (fun m => { m with stopLc := some (lc s) }) (rgStop k s)

theorem meas_rgStop_running (h : (meas s k).state = .running) :
    (meas (rgStop k s) k).state = .running ∧ (meas (rgStop k s) k).left = 1 ∧ (meas (rgStop k s) k).again = false := by
  unfold rgStop
  rw [meas_modMeas, h]
  exact ⟨rfl, rfl, rfl⟩

theorem meas_rgStop_waiting (h : (meas s k).state = .waitTick ∨ (meas s k).state = .waitEvent) :
    (meas (rgStop k s) k).state = .idle := by
  unfold rgStop
  obtain h | h := h <;> rw [meas_modMeas, h]

theorem meas_rgStop_idle (h : (meas s k).state = .idle) : meas (rgStop k s) k = meas s k := by
  unfold rgStop; rw [meas_modMeas, h]

/-- By the state of the lane: a running gate closes at its tick, what waits ends, and an idle lane stays idle. -/
theorem stopNoted_spec (k : Nat) (s : State) :
    ((meas s k).state = .running → (meas (stopNoted k s) k).state = .running ∧ (meas (stopNoted k s) k).left = 1 ∧
        (meas (stopNoted k s) k).again = false) ∧
      ((meas s k).state = .waitTick ∨ (meas s k).state = .waitEvent → (meas (stopNoted k s) k).state = .idle) ∧
      ((meas s k).state = .idle → (meas (stopNoted k s) k).state = .idle) ∧
      MeasBut [k] s (stopNoted k s) ∧ stopNoted k s = { s with rg := (stopNoted k s).rg } := by
  unfold stopNoted
  rw [meas_modMeas]
  refine ⟨fun h => meas_rgStop_running h, fun h => meas_rgStop_waiting h, fun h => ?_, ?_, rfl⟩
  · rw [meas_rgStop_idle h]; exact h
  · exact measBut_trans (measBut_modMeas k _ s) (measBut_modMeas k _ (rgStop k s))

theorem writeActs_rgStop (t k : Nat) (s : State) :
    writeActs t (.rgCtrl k) 0x02 s = (0, rgCtrlApply k 0x02 s) := rfl

/-- A STOP by a write: a MEAS start of its lane cycle counts as refused, and the measurement stops. -/
theorem rgCtrlApply_stop (k : Nat) (s : State) :
    (∃ p, (meas s k).startLc = some p ∧ p.1 = lc s ∧
        rgCtrlApply k 0x02 s = stopNoted k (setZ p.2 false (raise (.rgLevents k) 2 s))) ∨
      ((meas s k).startLc.all (fun p => p.1 != lc s) = true ∧ rgCtrlApply k 0x02 s = stopNoted k s) := by
  unfold rgCtrlApply
  rw [if_pos (by decide)]
  cases h : (meas s k).startLc with
  | none => exact .inr ⟨rfl, rfl⟩
  | some p =>
    by_cases hp : p.1 = lc s
    · exact .inl ⟨p, rfl, hp, by dsimp only; rw [if_pos hp]; rfl⟩
    · exact .inr ⟨by simpa using hp, by dsimp only; rw [if_neg hp]; rfl⟩

/-! ### The measurement tap and the slots (R170-R172) -/

/-- The tap has moved on: candidates have gone into the gates of lane k, and nothing else has changed. -/
structure Tapped (k : Nat) (s t : State) : Prop where
  frame : t = { s with rg := t.rg }
  others : MeasBut [k] s t
  state : (meas t k).state = (meas s k).state
  seq : (meas t k).seq = (meas s k).seq
  gates : (meas t k).finish.length = (meas s k).finish.length

theorem tapped_refl (k : Nat) (s : State) : Tapped k s s := ⟨rfl, fun _ _ => rfl, rfl, rfl, rfl⟩

/-- A change of the gates of lane k that keeps how many are being finished. -/
theorem Tapped.modMeas {f : Measure → Measure} (h : Tapped k s t) (hstate : (f (meas t k)).state = (meas t k).state)
    (hseq : (f (meas t k)).seq = (meas t k).seq) (hgates : (f (meas t k)).finish.length = (meas t k).finish.length) :
    Tapped k s (Machine.modMeas k f t) where
  frame := congrArg (fun u : State => { u with rg := (Machine.modMeas k f t).rg }) h.frame
  others := measBut_trans h.others (measBut_modMeas k f t)
  state := by rw [meas_modMeas, hstate, h.state]
  seq := by rw [meas_modMeas, hseq, h.seq]
  gates := by rw [meas_modMeas, hgates, h.gates]

theorem tapped_tapCandidate (run : Int) (stamped : Option StampTime) (h : Tapped k s t) :
    Tapped k s (tapCandidate k run stamped t) := by
  unfold tapCandidate
  refine h.modMeas ?_ ?_ ?_ <;> split <;> simp

theorem tapped_tapDue (k n : Nat) (s : State) : Tapped k s (tapDue k n s) := by
  unfold tapDue
  dsimp only
  split
  · exact tapped_refl k s
  · exact forL_keeps ((tapped_refl k s).modMeas rfl rfl rfl) fun _ _ _ hu => tapped_tapCandidate _ _ hu

theorem tapDue_of_noCands (h : (meas s k).cands = []) (n : Nat) : tapDue k n s = s := by
  unfold tapDue; rw [h]; rfl

theorem takeClosed_length (c : Nat) (l : List (Gate × Nat × Nat)) : (takeClosed c l).2.length = l.length := by
  induction l generalizing c with
  | nil => rfl
  | cons p l ih => obtain ⟨g, r⟩ := p; simp [takeClosed, ih]

theorem takeTwo_finish_length (m : Measure) : (takeTwo m).finish.length = m.finish.length := takeClosed_length 2 m.finish

/-- With no closed gate, both entries are those of the running one. -/
theorem takeTwo_tap {m : Measure} (h : m.finish = []) : (takeTwo m).gate.tap = m.gate.tap.drop 2 := by
  unfold takeTwo; rw [h]; rfl

theorem le_slotStart (s : State) (k n : Nat) : n ≤ slotStart s k n := Nat.le_add_right ..

theorem le_inSlot (s : State) (k n : Nat) : n ≤ inSlot s k n := by
  unfold inSlot
  split
  · exact Nat.le_refl n
  · exact le_slotStart s k n

/-- The engine takes its entries in a lane cycle of the slot that has not passed. -/
theorem lc_toLc_inSlot (s : State) (k m : Nat) : lc (toLc (inSlot s k (max (lc s) m)) s) = inSlot s k (max (lc s) m) := by
  have := le_inSlot s k (max (lc s) m)
  rw [lc_toLc]; omega

/-- A slot: up to two entries are taken in lane cycle n of it, once the candidates due by then are decoded. -/
theorem regressionSlot_spec (k : Nat) (s : State) :
    let t := regressionSlot k s
    meas t k = { takeTwo (meas (tapDue k (lc t) { s with now := t.now }) k) with slotAt := lc t + 1 } ∧
      MeasBut [k] s t ∧ t = { s with now := t.now, rg := t.rg } := by
  have hn := lc_toLc_inSlot s k (meas s k).slotAt
  unfold regressionSlot
  generalize inSlot s k (max (lc s) (meas s k).slotAt) = n at hn
  have htap := tapped_tapDue k n (toLc n s)
  have hnow : (tapDue k n (toLc n s)).now = (toLc n s).now := by rw [htap.frame]
  have hlc : lc (tapDue k n (toLc n s)) = n := (congrArg (· / 2) hnow).trans hn
  have hs : { s with now := (tapDue k n (toLc n s)).now } = toLc n s := by rw [hnow]; rfl
  refine ⟨?_, measBut_trans htap.others (measBut_modMeas k _ _), ?_⟩
  · rw [meas_modMeas]
    show _ = { takeTwo (meas (tapDue k (lc (tapDue k n (toLc n s)))
      { s with now := (tapDue k n (toLc n s)).now }) k) with slotAt := lc (tapDue k n (toLc n s)) + 1 }
    rw [hlc, hs]
  · rw [modMeas_eq, htap.frame]; rfl

/-! ### The result of a closed gate (R180-R184) -/

/-- The oldest closed gate of lane k has given its result, which has the next number, and time is not before lane cycle
`ready`; beside its bits and the Separator, where its record goes, nothing else has changed. -/
structure Numbered (k ready : Nat) (s t : State) : Prop where
  gates : (meas t k).finish.length = (meas s k).finish.length - 1
  oldest : (meas s k).cands = [] → (meas t k).finish = (meas s k).finish.tail
  seq : (meas t k).seq = ((meas s k).seq + 1) % 128
  state : (meas t k).state = (meas s k).state
  time : lc t = max (lc s) ready
  others : MeasBut [k] s t
  regs : RegsBut [regAddr (.rgLevents k), regAddr (.rgDone (k / 32))] s t
  frame : t = { s with sp := t.sp, now := t.now, regs := t.regs, rg := t.rg, acc := t.acc }

/-- A result that is numbered, and reported in RG_LEVENTS and in RG_DONE. -/
structure ResultGiven (k ready : Nat) (s t : State) : Prop extends Numbered k ready s t where
  done : rbit t (.rgLevents k) 0 = true
  lane : rbit t (.rgDone (k / 32)) (k % 32) = true

theorem numbered_modMeas {ready seq : Nat} {ws : List W64} (ht : Tapped k (toLc ready s) t)
    (hidle : (meas s k).cands = [] → t = toLc ready s) (hseq : seq = ((meas t k).seq + 1) % 128) :
    Numbered k ready s (modMeas k (fun m => { m with finish := m.finish.tail, seq := seq, words := ws }) t) where
  gates := by rw [meas_modMeas]; exact (List.length_tail).trans (congrArg (· - 1) ht.gates)
  oldest h := by rw [meas_modMeas, hidle h]; rfl
  seq := by rw [meas_modMeas, hseq, ht.seq]; rfl
  state := by rw [meas_modMeas]; exact ht.state
  time := by
    have hnow : t.now = (toLc ready s).now := by rw [ht.frame]
    exact (congrArg (· / 2) hnow).trans (lc_toLc ready s)
  others := measBut_trans ht.others (measBut_modMeas k _ t)
  regs := by rw [modMeas_eq, ht.frame]; exact fun _ _ _ => rfl
  frame := by rw [modMeas_eq, ht.frame]; rfl

theorem Numbered.raise {ready : Nat} (h : Numbered k ready s t) {r : Reg}
    (hr : regAddr r ∈ [regAddr (.rgLevents k), regAddr (.rgDone (k / 32))]) (b : Nat) :
    Numbered k ready s (Machine.raise r b t) :=
  { h with
    regs := regsBut_then h.regs (raise_regsBut r b t) hr
    frame := congrArg (fun u : State =>
      { u with regs := (Machine.raise r b t).regs, acc := (Machine.raise r b t).acc }) h.frame }

/-- The registers of the results lie below those of the lanes. -/
theorem regAddr_rgDone_ne (k : Nat) : regAddr (.rgDone (k / 32)) ≠ regAddr (.rgLevents k) := by
  simp only [regAddr]; omega

theorem Numbered.reported {ready : Nat} (h : Numbered k ready s t) :
    ResultGiven k ready s
      (Machine.raise (.rgLevents k) 0 (Machine.raise (.rgDone (k / 32)) (k % 32) t)) where
  toNumbered := (h.raise (by simp) (k % 32)).raise (by simp) 0
  done := rbit_raise _ (by decide) _
  lane := (rbit_raise_ne (regAddr_rgDone_ne k) ..).trans (rbit_raise _ (Nat.mod_lt _ (by decide)) _)

theorem ResultGiven.raiseInvalid {ready : Nat} (h : ResultGiven k ready s t) :
    ResultGiven k ready s (Machine.raise (.rgLevents k) 1 t) where
  toNumbered := h.toNumbered.raise (by simp) 1
  done := rbit_raise_of_rbit 1 h.done
  lane := (rbit_raise_ne (regAddr_rgDone_ne k) 1 _ t).trans h.lane

theorem ResultGiven.record {ready : Nat} (h : ResultGiven k ready s t) (x : Sep) :
    ResultGiven k ready s { t with sp := x } :=
  { h with frame := congrArg (fun u : State => { u with sp := x }) h.frame }

/-- RESULT_READY gives the result of the oldest closed gate, whether or not its record is sent. -/
theorem resultGiven_resultReady {g : Gate} {n ready : Nat} {rest : List (Gate × Nat × Nat)}
    (h : (meas s k).finish = (g, n, ready) :: rest) : ResultGiven k ready s (resultReady k s) := by
  unfold resultReady
  rw [h]
  dsimp -zeta only
  extract_lets t g₀ g₁ seq ws u v w
  have hu : Numbered k ready s u :=
    numbered_modMeas (tapped_tapDue k ready (toLc ready s))
      (fun hc => tapDue_of_noCands (s := toLc ready s) hc ready) rfl
  have hw : ResultGiven k ready s w := by
    unfold w
    split
    · exact hu.reported.raiseInvalid
    · exact hu.reported
  clear_value w
  split
  · split
    · split
      · exact hw.record _
      · exact hw.record _
    · exact hw
  · exact hw

/-! ### The commands -/

theorem exec_rgStart {who : Who} (hs : s.released = true) (hk : k < 256) (hw : StampRights s who k = true)
    (hh : held s (stampCl k) = none) :
    exec (.rgStart who k) s =
      .next { (refusing [(.rgLevents k, 2)] (rgStart k) s).2 with busStatus := if rgRefuses s k then 0x0A else 0 } := by
  refine (onUnit_of (decide_eq_true hk) _).trans (congrArg Host.Outcome.next ?_)
  rw [writing_rgCtrl hs hk hw, writeActs_rgStart hh, refusing_rgStart_answer]

theorem exec_rgStop {who : Who} (hs : s.released = true) (hk : k < 256) (hw : StampRights s who k = true) :
    exec (.rgStop who k) s = .next { rgCtrlApply k 0x02 s with busStatus := 0 } := by
  refine (onUnit_of (decide_eq_true hk) _).trans (congrArg Host.Outcome.next ?_)
  rw [writing_rgCtrl hs hk hw, writeActs_rgStop]

theorem exec_regressionSlot (hs : s.released = true) (hk : k < 256) :
    exec (.regressionSlot k) s = .next (regressionSlot k s) :=
  (onUnit_of (decide_eq_true hk) _).trans (congrArg Host.Outcome.next (when_of hs ..))

theorem exec_resultReady (hs : s.released = true) (hk : k < 256) :
    exec (.resultReady k) s = .next (resultReady k s) :=
  (onUnit_of (decide_eq_true hk) _).trans (congrArg Host.Outcome.next (when_of hs ..))

end

/-! ### The statement -/

/-- Settles O11, clause by clause: a START, a STOP, a slot of the engine, the result of the gate that closed first. -/
theorem frequencyMeasurement : Obligations.FrequencyMeasurement := by
  intro s hs
  refine ⟨fun who k hk hw _ hh => ⟨_, exec_rgStart hs hk hw hh, ?_⟩, fun who k hk hw _ => ⟨_, exec_rgStop hs hk hw, ?_⟩,
    fun k hk => ⟨_, exec_regressionSlot hs hk, ?_⟩, fun k n ready g rest hk hfin => ⟨_, exec_resultReady hs hk, ?_⟩⟩
  · obtain ⟨hothers, hregs, hframe⟩ := laneAlone_refusing_rgStart k s
    refine ⟨fun h => ?_, fun h => ?_, hothers, hregs,
      congrArg (fun u : State => { u with busStatus := if rgRefuses s k then 0x0A else 0 }) hframe⟩
    · obtain ⟨hstate, hmode⟩ := refusing_rgStart_taken h
      exact ⟨hstate, hmode, by rw [h]; rfl⟩
    · obtain ⟨hrg, hbit⟩ := refusing_rgStart_refused h
      exact ⟨hrg, by rw [h]; rfl, hbit⟩
  · obtain ⟨p, hp, hnow, hstop⟩ | ⟨hnone, hstop⟩ := rgCtrlApply_stop k s <;> rw [hstop]
    · obtain ⟨hrun, hwait, hidle, hothers, hframe⟩ := stopNoted_spec k (setZ p.2 false (raise (.rgLevents k) 2 s))
      refine ⟨hrun, hwait, hidle, fun q hq _ => ?_, fun hall => ?_, rfl, hothers, ?_⟩
      · obtain rfl : p = q := Option.some_inj.mp (hp.symm.trans hq)
        rw [hframe]
        exact ⟨flagsNow_setZ .., rbit_raise _ (by decide) s⟩
      · rw [hp] at hall; simp [hnow] at hall
      · rw [hframe]; rfl
    · obtain ⟨hrun, hwait, hidle, hothers, hframe⟩ := stopNoted_spec k s
      refine ⟨hrun, hwait, hidle, fun p hp hnow => ?_, fun _ => ?_, rfl, hothers, ?_⟩
      · rw [hp] at hnone; simp [hnow] at hnone
      · rw [hframe]
      · exact congrArg (fun u : State => { u with busStatus := 0 }) hframe
  · obtain ⟨hmeas, hothers, hframe⟩ := regressionSlot_spec k s
    refine ⟨hmeas, fun hf hc => ?_, by rw [hmeas], ?_, hothers, hframe⟩
    · rw [tapDue_of_noCands (s := { s with now := (regressionSlot k s).now }) hc (lc (regressionSlot k s))] at hmeas
      rw [hmeas]
      exact takeTwo_tap hf
    · rw [hmeas]
      exact (takeTwo_finish_length _).trans (tapped_tapDue ..).gates
  · have h := resultGiven_resultReady hfin
    exact ⟨by rw [h.gates, hfin]; rfl, fun hc => by rw [h.oldest hc, hfin]; rfl, h.seq, h.state, h.done, h.lane, h.time,
      h.others, h.regs, h.frame⟩

end Sys2Proof.Proofs
end

section
/-! PROOFS. Chapter 8, the integer instructions: carry, borrow and overflow as arithmetic facts, the shifts as products and
quotients, and the results and flags of Tables 8-4 and 8-5 (R230-R232). -/
namespace Sys2Proof.Proofs

open Sys2Proof.Machine

/-! ### Sums and differences, of any width -/

theorem bitAt_eq_getLsbD {w : Nat} (x : BitVec w) (n : Nat) : bitAt x n = x.getLsbD n := by
  unfold bitAt fld
  rw [BitVec.getLsbD, Nat.testBit_eq_decide_div_mod_eq]
  exact Bool.beq_eq_decide_eq ..

/-- Signed overflow of a sum by the signs (R230) is the sum out of range. -/
theorem addOf_v {w : Nat} (a b : BitVec w) : (addOf a b).2.v = a.saddOverflow b := by
  rw [BitVec.saddOverflow_eq]
  simp only [addOf, flagsOf, bne]

/-- Signed overflow of a difference by the signs (R230) is the difference out of range. -/
theorem subOf_v {w : Nat} (a b : BitVec w) : (subOf a b).2.v = a.ssubOverflow b := by
  rw [BitVec.ssubOverflow_eq]
  simp only [subOf, flagsOf]
  cases a.msb <;> cases b.msb <;> cases (a - b).msb <;> rfl

theorem toNat_subOf {w : Nat} (a b : BitVec w) :
    (subOf a b).1.toNat = (2 ^ w + a.toNat - b.toNat) % 2 ^ w := by
  have hb : b.toNat < 2 ^ w := b.isLt
  rw [subOf, BitVec.toNat_sub, show 2 ^ w - b.toNat + a.toNat = 2 ^ w + a.toNat - b.toNat by omega]

theorem saddOverflow_iff (a b : W32) :
    a.saddOverflow b = true ↔ a.toInt + b.toInt < -2 ^ 31 ∨ 2 ^ 31 ≤ a.toInt + b.toInt := by
  rw [BitVec.saddOverflow, Bool.or_eq_true, decide_eq_true_iff, decide_eq_true_iff]
  exact or_comm

theorem ssubOverflow_iff (a b : W32) :
    a.ssubOverflow b = true ↔ a.toInt - b.toInt < -2 ^ 31 ∨ 2 ^ 31 ≤ a.toInt - b.toInt := by
  rw [BitVec.ssubOverflow, Bool.or_eq_true, decide_eq_true_iff, decide_eq_true_iff]
  exact or_comm

/-! ### Shifts by an amount of any size -/

theorem shlOf_fst (a : W32) (n : Nat) : (shlOf a n).1 = a <<< n := by
  unfold shlOf
  split
  · rfl
  · exact (BitVec.shiftLeft_eq_zero (by omega)).symm

theorem shrOf_fst (a : W32) (n : Nat) : (shrOf a n).1 = a >>> n := by
  unfold shrOf
  split
  · rfl
  · exact (BitVec.ushiftRight_eq_zero (by omega)).symm

/-- Past the width an arithmetic shift brings no more than copies of the sign. -/
theorem sshiftRight_min_width {w : Nat} (x : BitVec w) (n : Nat) : x.sshiftRight (min n w) = x.sshiftRight n := by
  refine BitVec.eq_of_getLsbD_eq fun i hi => ?_
  rw [BitVec.getLsbD_sshiftRight, BitVec.getLsbD_sshiftRight]
  rcases Nat.le_total n w with h | h
  · rw [Nat.min_eq_left h]
  · rw [Nat.min_eq_right h, if_neg (by omega), if_neg (by omega)]

theorem toNat_shlOf (a : W32) (n : Nat) : (shlOf a n).1.toNat = a.toNat * 2 ^ n % 2 ^ 32 := by
  rw [shlOf_fst, BitVec.toNat_shiftLeft, Nat.shiftLeft_eq]

theorem toNat_shrOf (a : W32) (n : Nat) : (shrOf a n).1.toNat = a.toNat / 2 ^ n := by
  rw [shrOf_fst, BitVec.toNat_ushiftRight, Nat.shiftRight_eq_div_pow]

theorem toInt_sraOf (a : W32) (n : Nat) : (sraOf a n).1.toInt = a.toInt / 2 ^ n := by
  rw [sraOf, sshiftRight_min_width, BitVec.toInt_sshiftRight, Int.shiftRight_eq_div_pow]
  norm_cast

theorem shlOf_carry (a : W32) (n : Nat) :
    (shlOf a n).2 = true ↔ 1 ≤ n ∧ n ≤ 32 ∧ a.getLsbD (32 - n) = true := by
  simp only [shlOf, bitAt_eq_getLsbD, Bool.and_eq_true, decide_eq_true_iff, and_assoc]

theorem shrOf_carry (a : W32) (n : Nat) :
    (shrOf a n).2 = true ↔ 1 ≤ n ∧ n ≤ 32 ∧ a.getLsbD (n - 1) = true := by
  simp only [shrOf, bitAt_eq_getLsbD, Bool.and_eq_true, decide_eq_true_iff, and_assoc]

/-- The last bit shifted out by SRA: none, a bit of the word, or a copy of the sign. -/
theorem sraOf_carry (a : W32) (n : Nat) :
    (sraOf a n).2 = true ↔ 1 ≤ n ∧ a.getLsbD (min (n - 1) 31) = true := by
  simp only [sraOf, bitAt_eq_getLsbD]
  rcases Nat.eq_zero_or_pos n with rfl | hpos
  · simp
  · rw [if_neg (Nat.ne_of_gt hpos), and_iff_right (Nat.succ_le_of_lt hpos)]
    split
    · rw [Nat.min_eq_left (by omega)]
    · rw [Nat.min_eq_right (by omega), BitVec.msb_eq_getLsbD_last]

/-! ### Products, minima and maxima -/

theorem intResult_mul (a b : W32) (f : Flags) : (intResult .mul a b f).1 = a * b := by
  simp only [intResult, BitVec.ofInt_mul, BitVec.ofInt_toInt]

theorem intResult_mul_v (a b : W32) (f : Flags) :
    (intResult .mul a b f).2.v = true ↔ a.toInt * b.toInt < -2 ^ 31 ∨ 2 ^ 31 ≤ a.toInt * b.toInt := by
  simp only [intResult, flagsOf, Bool.or_eq_true, decide_eq_true_iff]
  exact Iff.rfl

theorem toInt_intResult_min (a b : W32) (f : Flags) : (intResult .min a b f).1.toInt = min a.toInt b.toInt := by
  simp only [intResult]
  split <;> omega

theorem toInt_intResult_max (a b : W32) (f : Flags) : (intResult .max a b f).1.toInt = max a.toInt b.toInt := by
  simp only [intResult]
  split <;> omega

/-! ### The flags of every instruction -/

/-- Every instruction but LI and LUI takes its flags from its result, with a carry and an overflow of its own (Table 8-5). -/
theorem intResult_flagsOf {o : IntOp} (hli : o ≠ .li) (hlui : o ≠ .lui) (a b : W32) (f : Flags) :
    ∃ c v, (intResult o a b f).2 = flagsOf (intResult o a b f).1 c v := by
  cases o with
  | li => exact absurd rfl hli
  | lui => exact absurd rfl hlui
  | _ => exact ⟨_, _, rfl⟩

theorem intResult_zn {o : IntOp} (hli : o ≠ .li) (hlui : o ≠ .lui) (a b : W32) (f : Flags) :
    (intResult o a b f).2.z = ((intResult o a b f).1 == 0) ∧
      (intResult o a b f).2.n = (intResult o a b f).1.getLsbD 31 := by
  obtain ⟨c, v, h⟩ := intResult_flagsOf hli hlui a b f
  rw [h]
  exact ⟨rfl, BitVec.msb_eq_getLsbD_last (intResult o a b f).1⟩

theorem intResult_logic_cv {o : IntOp} (h : o = .and ∨ o = .or ∨ o = .xor) (a b : W32) (f : Flags) :
    (intResult o a b f).2.c = false ∧ (intResult o a b f).2.v = false := by
  rcases h with rfl | rfl | rfl <;> exact ⟨rfl, rfl⟩

theorem intResult_shift_v {o : IntOp} (h : o = .shl ∨ o = .shr ∨ o = .sra) (a b : W32) (f : Flags) :
    (intResult o a b f).2.v = false := by
  rcases h with rfl | rfl | rfl <;> rfl

theorem intResult_minMax_cv {o : IntOp} (h : o = .min ∨ o = .max) (a b : W32) (f : Flags) :
    (intResult o a b f).2.c = f.c ∧ (intResult o a b f).2.v = f.v := by
  rcases h with rfl | rfl <;> exact ⟨rfl, rfl⟩

/-! ### The statement -/

/-- Settles O13, instruction by instruction in the order of Table 8-4. -/
theorem integerResults : Obligations.IntegerResults := by
  intro a b f
  refine ⟨fun o hli hlui => intResult_zn hli hlui a b f,
    BitVec.toNat_add a b, decide_eq_true_iff, ?addOverflow,
    toNat_subOf a b, decide_eq_true_iff, ?subOverflow,
    rfl, rfl, rfl, rfl, fun o h => intResult_logic_cv h a b f,
    toNat_shlOf a _, shlOf_carry a _, toNat_shrOf a _, shrOf_carry a _, toInt_sraOf a _, sraOf_carry a _,
    fun o h => intResult_shift_v h a b f,
    intResult_mul a b f, rfl, intResult_mul_v a b f,
    toInt_intResult_min a b f, toInt_intResult_max a b f, fun o h => intResult_minMax_cv h a b f, rfl, rfl⟩
  case addOverflow => exact (Bool.coe_iff_coe.mpr (addOf_v a b)).trans (saddOverflow_iff a b)
  case subOverflow => exact (Bool.coe_iff_coe.mpr (subOf_v a b)).trans (ssubOverflow_iff a b)

end Sys2Proof.Proofs
end

section
/-! PROOFS. Chapter 10, segment playback: what PLAYBACK_STOP writes of the registers, by whether the port takes an entry in the
lane cycle of the stop (R107, R297, R300). -/
namespace Sys2Proof.Proofs

open Sys2Proof.Machine Sys2Proof.Safety Sys2Proof.Laws

theorem exec_playbackStop {s : State} {k : Nat} (hs : s.released = true) (hk : k < 256) :
    exec (.playbackStop k) s = .next (playbackStop k s) :=
  (onUnit_of (decide_eq_true hk) _).trans (congrArg Host.Outcome.next (when_of hs ..))

/-! ### A stop with no entry of the segment engine at the port -/

theorem boundaryDue_unbound {s : State} {k : Nat} (h : (playback s k).bound = none) (n : Nat) : boundaryDue k n s = s := by
  unfold boundaryDue; rw [h]

/-- Neither slot of lane k holds an entry of the segment engine. -/
def NoSegmentAtPort (s : State) (k : Nat) : Prop :=
  (pulse s k).seg = none ∧ ∀ p, (pulse s k).direct = some p → p.2.source ≠ .segment

theorem portNext_source_ne {s : State} {k : Nat} (h : NoSegmentAtPort s k) {p : Nat × EdgeEntry}
    (hp : portNext (pulse s k) = some p) : p.2.source ≠ .segment := by
  obtain ⟨hseg, hdirect⟩ := h
  refine hdirect p ?_
  unfold portNext at hp
  rw [hseg] at hp
  cases hd : (pulse s k).direct with
  | none => simp [hd] at hp
  | some d => simpa [hd] using hp

/-- With no boundary to decide and no entry of the segment engine at the port, a stop is the end of the playback alone. -/
theorem stopPlayback_of_noSegment {s : State} {k : Nat} (hb : (playback s k).bound = none) (hp : NoSegmentAtPort s k)
    (tb : Bool) : stopPlayback k tb s = playStop k (lc s) tb s := by
  unfold stopPlayback
  simp only [boundaryDue_unbound hb]
  congr 1
  split
  · rename_i w e he
    exact if_neg (by simp [portNext_source_ne hp he])
  · rfl

/-- The end of a playback writes SG_Ln_EVENTS alone of the registers. -/
theorem playStop_regsBut (k n : Nat) (s : State) : RegsBut [regAddr (.sgLEvents k)] s (playStop k n false s) := by
  unfold playStop playEnd
  dsimp only
  split
  · exact raise_regsBut (.sgLEvents k) 3 (playIdle k (2 * n) s)
  · exact fun _ _ _ => rfl

/-- PLAYBACK_STOP writes SG_Ln_EVENTS alone of the registers where no boundary is to be decided and neither slot of the lane
holds an entry of the segment engine. -/
theorem playbackStop_regsBut {s : State} {k n : Nat} (hstop : (playback s k).stopAt = some n)
    (hb : (playback s k).bound = none) (hp : NoSegmentAtPort s k) :
    RegsBut [regAddr (.sgLEvents k)] s (playbackStop k s) := by
  unfold playbackStop
  rw [hstop]
  dsimp only
  rw [stopPlayback_of_noSegment (s := toLc n s) hb hp]
  exact playStop_regsBut k (lc (toLc n s)) (toLc n s)

/-! ### A stop that meets one in the slot of the direct entries -/

/-- Lane cycle 0 of lane 0, which no gating holds: the stop of its playback is due, no boundary waits, the slot of the segment
engine is empty, and the slot of the direct entries holds a late entry that names the segment engine as its source. -/
def misplacedEntryState : State :=
  { State.reset with
    released := true
    byre := { State.reset.byre with state := .run }
    tb := { Timebase.reset with gated := 0 }
    pl := [(0, { PulseLane.reset with
      direct := some (0, { time := 0, width := 0, kind := 0, tag := 0, ctx := 0, source := .segment }) })]
    pb := [(0, { Playback.reset with play := true, stopAt := some 0 })] }

theorem misplacedEntryState_stateInv : StateInv misplacedEntryState := by
  unfold StateInv Rising CoreState
  decide +kernel

/-- The stop takes the entry, and the port reports it as late. -/
theorem lnEvents_playbackStop_misplaced :
    reg misplacedEntryState (.lnEvents 0) = 0 ∧ reg (playbackStop 0 misplacedEntryState) (.lnEvents 0) = 1 := by
  decide +kernel

/-- Refutes O21. Its clause on PLAYBACK_STOP says that, with no boundary waiting and the slot of the segment engine empty,
SG_Ln_EVENTS is the one register written. The clause does not ask what the slot of the direct entries holds: a stop also takes
an entry there that names the segment engine as its source, and here that entry is late and sets LN_EVENTS. EMIT, which
alone fills the slot, puts no such entry there; with the slot free of one the clause holds (`playbackStop_regsBut`). -/
theorem not_segmentPlayback : ¬ Obligations.SegmentPlayback := by
  intro h
  obtain ⟨-, -, -, hstop, -⟩ := h misplacedEntryState rfl
  obtain ⟨t, ht, -, -, -, -, -, -, -, -, -, -, -, hregs, -⟩ := hstop 0 0 (by decide) (by decide) (by decide)
  rw [exec_playbackStop rfl (by decide)] at ht
  cases ht
  obtain ⟨hbefore, hafter⟩ := lnEvents_playbackStop_misplaced
  have hkept : reg (playbackStop 0 misplacedEntryState) (.lnEvents 0) = reg misplacedEntryState (.lnEvents 0) :=
    RegsBut.reg (hregs (by decide) (by decide)) (by decide)
  rw [hbefore, hafter] at hkept
  exact absurd hkept (by decide)

end Sys2Proof.Proofs
end
